-- ==== Sys2Proof/Word.lean ====
section
/-! DEFINITION. The word types of the UZ-2416: octets, stage time, generations, and the small bounded
numbers of the instrument lines (00_scope.md, "Numbers and units"). -/
namespace Sys2Proof

/-- An octet of an instrument line or of a control frame. -/
abbrev Byte := BitVec 8

/-- A canonical 32-bit word of a set record (R189), and the width of the drift and stage counters. -/
abbrev Word32 := BitVec 32

/-- Stage time: a 32-bit count of microseconds that wraps (00_scope.md, "Stage time"). -/
abbrev StageTime := BitVec 32

/-- A generation: a 16-bit count of takes that wraps (R93, R94). -/
abbrev Generation := BitVec 16

/-- Key, velocity, program, controller number or controller value: 0 to 127. -/
abbrev Seven := Fin 128

/-- A bend value or a bank number: 0 to 16383. -/
abbrev Fourteen := Fin 16384

/-- A note input N0 to N3. -/
abbrev Input := Fin 4

/-- A note output O0 to O5. -/
abbrev Output := Fin 6

/-- A channel of a line, held as its number less one: channel 1 is 0 and channel 16 is 15 (the low
four bits of a kind octet, R191). -/
abbrev Chan := Fin 16

/-- The two control ports (R158). -/
inductive Port where
  /-- The panel port, of the panel processor. -/
  | panelPort
  /-- The show port, of the show bridge. -/
  | showPort
deriving DecidableEq, Repr

end Sys2Proof
end

