-- ==== Sys2Proof/Syntax.lean ====
section
/-! DEFINITION. The commands of the UZ-2416: one constructor for each row of spec/opcode_table.json.

The part has no register window (00_scope.md): a request reaches it as a frame that a transfer carries
in, and the frame waits in its port's request queue (R162). So the row of a request names the port
whose oldest request is answered; the request's own fields are those of the frame that State holds.
The rows of the instrument lines, of the pins and of the clocks carry what the line or pin delivers. -/
namespace Sys2Proof

/-- A continuous event of an instrument line: it has no note and no Note Table entry (R58). -/
inductive ContinuousEvent where
  | control (number value : Seven)
  | pressure (value : Seven)
  | bend (value : Fourteen)
deriving DecidableEq, Repr

/-- The two timing octets that make an alignment point (R130). -/
inductive AlignKind where
  | startOctet
  | continueOctet
deriving DecidableEq, Repr

/-- The commands, one per row of the table. -/
inductive Instr where
  /-- SET WRITE of a header, song, scene, layer or pattern record is answered at port `p` (R10). -/
  | setWrite (p : Port)
  /-- SET WRITE in the length form of a click sound is answered at port `p` (R13). -/
  | setWriteSoundLength (p : Port)
  /-- SET WRITE in the samples form of a click sound is answered at port `p` (R13). -/
  | setWriteSoundSamples (p : Port)
  /-- SET READ is answered at port `p` (R14). -/
  | setRead (p : Port)
  /-- SET DIGEST is answered at port `p` (R16). -/
  | setDigest (p : Port)
  /-- ENTER SHOW is answered at port `p` (R117, R182). -/
  | enterShow (p : Port)
  /-- ENTER SETUP is answered at port `p` (R118, R183). -/
  | enterSetup (p : Port)
  /-- RESTART is answered at port `p` (R184). -/
  | restart (p : Port)
  /-- GO SONG is answered at port `p` (R100). -/
  | goSong (p : Port)
  /-- GO SCENE is answered at port `p` (R100). -/
  | goScene (p : Port)
  /-- GO NEXT is answered at port `p` (R101). -/
  | goNext (p : Port)
  /-- GO PREV is answered at port `p` (R101). -/
  | goPrev (p : Port)
  /-- CANCEL is answered at port `p` (R102). -/
  | cancel (p : Port)
  /-- FREEZE is answered at port `p` (R103). -/
  | freeze (p : Port)
  /-- THAW is answered at port `p` (R103). -/
  | thaw (p : Port)
  /-- STEP is answered at port `p` (R104). -/
  | step (p : Port)
  /-- TEMPO SOURCE is answered at port `p` (R129). -/
  | tempoSource (p : Port)
  /-- TEMPO SET is answered at port `p` (R126). -/
  | tempoSet (p : Port)
  /-- TRIM is answered at port `p` (R127). -/
  | trim (p : Port)
  /-- TAP is answered at port `p` with the status decided when its frame completed (R141, R163). -/
  | tap (p : Port)
  /-- BEAT MARK is answered at the show port with the status decided when its frame completed
  (R142, R163). -/
  | beatMark
  /-- OUTPUT ENABLE is answered at port `p` (R39). -/
  | outputEnable (p : Port)
  /-- CRITICAL LEVEL is answered at port `p` (R37). -/
  | criticalLevel (p : Port)
  /-- PANIC is answered at port `p` (R73, R74). -/
  | panic (p : Port)
  /-- CLICK LEVEL is answered at port `p` (R153). -/
  | clickLevel (p : Port)
  /-- CLICK MUTE is answered at port `p` (R153). -/
  | clickMute (p : Port)
  /-- COUNTER SET is answered at port `p` (R176). -/
  | counterSet (p : Port)
  /-- COUNTER READ is answered at port `p` (R176). -/
  | counterRead (p : Port)
  /-- CAPTURE ARM is answered at port `p` (R179). -/
  | captureArm (p : Port)
  /-- CAPTURE READ is answered at port `p` (R180). -/
  | captureRead (p : Port)
  /-- STATUS is answered at port `p` (R171). -/
  | status (p : Port)
  /-- SUBSCRIBE is answered at port `p` (R167). -/
  | subscribe (p : Port)
  /-- A request of an unassigned kind or of a length its kind does not allow is answered UNKNOWN or
  LENGTH at port `p` (R163). -/
  | unknownRequest (p : Port)
  /-- Chip-select falls at port `p` (R159). -/
  | transferBegin (p : Port)
  /-- Chip-select rises at port `p`, the part having received `octets`, and shifted as many octets out,
  since its fall (R160). -/
  | transferEnd (p : Port) (octets : List Byte)
  /-- Input `n` delivers a NOTE-ON of channel `c`, key `k` and velocity `v` (R47). -/
  | noteOn (n : Input) (c : Chan) (k v : Seven)
  /-- Input `n` delivers a NOTE-OFF of channel `c` and key `k`: as a NOTE-ON octet with velocity 0
  when `asNoteOn`, otherwise as a NOTE-OFF octet (R21, R66). -/
  | noteOff (n : Input) (c : Chan) (k : Seven) (asNoteOn : Bool)
  /-- Input `n` delivers a CONTROL event of channel `c` whose controller number is the header's sustain
  controller number, with value `v` (R67). -/
  | sustainPedal (n : Input) (c : Chan) (v : Seven)
  /-- Input `n` delivers a CONTROL, PRESSURE or BEND event of channel `c` (R58). -/
  | continuousEvent (n : Input) (c : Chan) (e : ContinuousEvent)
  /-- Input `n` delivers a PROGRAM event of channel `c` and program `program` (R27). -/
  | songSelect (n : Input) (c : Chan) (program : Seven)
  /-- A CLOCK timing octet arrives at input `n` (R28, R130). -/
  | clock (n : Input)
  /-- A START or CONTINUE timing octet arrives at input `n` (R28, R130). -/
  | alignmentPoint (n : Input) (kind : AlignKind)
  /-- A STOP timing octet arrives at input `n` (R26, R28). -/
  | stop (n : Input)
  /-- Octet `b` arrives at input `n` (R20 to R24). -/
  | inputOctet (n : Input) (b : Byte)
  /-- A rising edge of the sync input is accepted (R130). -/
  | syncEdge
  /-- A falling edge of the panic input is accepted (R73). -/
  | panicLineEdge
  /-- The reset pin is driven low (R185). -/
  | resetPinLow
  /-- The reset pin is released while the panic input rests low (`panicLow`) and the sync input rests
  high (`syncHigh`), or not (R185). -/
  | resetPinRelease (panicLow syncHigh : Bool)
  /-- The crystal stops (R186). -/
  | crystalStop
  /-- The crystal returns (R186). -/
  | crystalReturn
  /-- One microsecond of stage time passes (R123). -/
  | stageTick
  /-- The beat phase wraps (R113, R123). -/
  | beatBoundary
  /-- The subdivision reached by the beat phase rises above the click index (R124). -/
  | clickBoundary
  /-- The beat line's high time ends (R125). -/
  | beatLineEnd
  /-- An audio sample period begins (R149 to R152, R154). -/
  | samplePeriod
  /-- 10 microseconds pass without an audio clock cycle while the clock is PRESENT (R155). -/
  | audioClockLoss
  /-- A presence run has lasted 1,000 microseconds (R155). -/
  | audioClockReturn
  /-- Stage time reaches the spill deadline of the record of output `o` and channel `c` (R85). -/
  | spillExpiry (o : Output) (c : Chan)
  /-- Stage time reaches the holdover deadline (R137). -/
  | holdoverExpiry
  /-- A digest that has read its last word completes (R18). -/
  | digestComplete
  /-- The preparation in flight has copied and checked its whole run (R107). -/
  | preparationComplete
  /-- The preparation in flight fails a check (R106). -/
  | preparationCheckFail
  /-- The last octet of the event on the line of output `o` goes out (R31). -/
  | transmissionComplete (o : Output)
  /-- A rising edge of the panic input is accepted (R73). -/
  | panicLineRise
  /-- A falling edge of the sync input is accepted (R130). -/
  | syncLineFall
  /-- The first audio clock cycle after a gap arrives while the clock is MISSING (R155). -/
  | presenceRunOpen
  /-- 10 microseconds pass without an audio clock cycle while the clock is MISSING (R155). -/
  | presenceRunGap
deriving DecidableEq, Repr

end Sys2Proof
end

