-- ==== Sys2Proof/Decode.lean ====
section
/-! DEFINITION. `decodeTableWord`: the command that a word spells by the bits of spec/opcode_table.json.
No row of this table gives bits (every row's "fields" is empty and none has "fixed"), so no word spells a
command. What octets DO spell for this part, request frames and instrument-line events, is decoded by
Sys2Proof/Machine/Formats.lean and Sys2Proof/Machine/NotePorts.lean. -/
namespace Sys2Proof

/-- The command spelled by the table's bits: none, since the table gives no row any bits. -/
def decodeTableWord (_nbits _w : Nat) : Option Instr := none

end Sys2Proof
end

