-- ==== Sys2Proof/Config.lean ====
section
/-! DEFINITION. What the spec fixes as sizes and times, each with its rule, and the one value that
the spec leaves open (a constant without a body). -/
namespace Sys2Proof.Config

/-- Entries of the active-note table (R60). -/
abbrev tableSize : Nat := 128
/-- Legs of one note (R52). -/
abbrev maxLegs : Nat := 8
/-- Events of one urgent queue (R29). -/
abbrev urgentSize : Nat := 48
/-- Note-ons of one urgent queue (R29). -/
abbrev urgentNoteOns : Nat := 32
/-- Places of one bulk queue (R29). -/
abbrev bulkSize : Nat := 32
/-- Settlement is attempted at this urgent length or below (R35). -/
abbrev settleLength : Nat := 24
/-- Line time of one octet, in microseconds (R31). -/
abbrev octetMicros : Nat := 320
/-- Requests one port's request queue holds (R158). -/
abbrev requestSize : Nat := 4
/-- A notice is admitted below this number of frames held (R165). -/
abbrev noticeLimit : Nat := 12
/-- A request is answered within this time of the moment it begins to be handled (R163). -/
abbrev answerMicros : Nat := 200
/-- A preparation ends within this time of its start (R105). -/
abbrev preparationMicros : Nat := 2000
/-- High time of the beat line at a bar boundary (R125). -/
abbrev barPulse : Nat := 48000
/-- High time of the beat line at any other beat boundary (R125). -/
abbrev beatPulse : Nat := 16000
/-- Length of the presence run that makes the audio clock PRESENT (R155). -/
abbrev presenceMicros : Nat := 1000
/-- Places of the capture list (R178). -/
abbrev capturePlaces : Nat := 32
/-- Sample places of one click sound (R7). -/
abbrev samplePlaces : Nat := 4096

/-- Whether TEMPO SOURCE with kind INTERNAL or MARK refuses RANGE when its parameter octet is not the
0 that R188's request table lays down. R129 and R188 do not say, so nothing fixes this constant
(DESIGN CHOICE, log entry 3: a free value). -/
opaque sourceParameterChecked : Bool

end Sys2Proof.Config
end

