-- ==== Sys2Proof/Machine/Arith.lean ====
section
/-! DEFINITION. The arithmetic of 00_scope.md ("Rounding and division", "Stage time"), bit fields and
octet orders, and the sparse store in canonical form that holds the records of the set memory. -/
namespace Sys2Proof.Machine

/-- A value clamped (or saturated) to the range `lo` to `hi` (00_scope.md). -/
def clampInt (lo hi x : Int) : Int := if x < lo then lo else if hi < x then hi else x

/-- `num / den` rounded half up, which is floor(x + 1/2), for a positive `den` (00_scope.md). -/
def roundHalfUp (num den : Int) : Int := (2 * num + den).fdiv (2 * den)

/-- The interval from stage time `a` to stage time `b`: their difference modulo 2^32 (00_scope.md). -/
def interval (a b : StageTime) : Nat := (b - a).toNat

/-- Stage time `now` has reached the deadline `t`. No deadline lies more than 30 seconds ahead, so the
wrap is not met (00_scope.md): a difference below half the range lies at or after the deadline. -/
def reached (now t : StageTime) : Bool := interval t now < 2 ^ 31

/-- The stage time `micros` microseconds after `t`. -/
def after (t : StageTime) (micros : Nat) : StageTime := t + BitVec.ofNat 32 micros

/-- Bits `lo` to `lo + len - 1` of `w`, as a number. -/
def bitField (w lo len : Nat) : Nat := w / 2 ^ lo % 2 ^ len

/-- `v` placed as a field of `len` bits at bit `lo`. -/
def putField (v lo len : Nat) : Nat := v % 2 ^ len * 2 ^ lo

/-- The two's-complement reading of the low `len` bits of `v`. -/
def signedField (v len : Nat) : Int :=
  let x := v % 2 ^ len
  if x < 2 ^ (len - 1) then (x : Int) else (x : Int) - 2 ^ len

/-- The two's-complement code of `x` in `len` bits. -/
def unsignedCode (x : Int) (len : Nat) : Nat := (x % (2 ^ len : Int)).toNat

/-- A number as `n` octets, least significant first (R187). -/
def octetsLE : Nat → Nat → List Byte
  | 0, _ => []
  | n + 1, v => BitVec.ofNat 8 v :: octetsLE n (v / 256)

/-- The number that octets spell, least significant first (R187). -/
def numberLE : List Byte → Nat
  | [] => 0
  | b :: bs => b.toNat + 256 * numberLE bs

/-- Octets `i` to `i + n - 1` of `bs` as a number, least significant first; an octet that is not there
reads as 0. -/
def fieldLE (bs : List Byte) (i n : Nat) : Nat := numberLE ((bs.drop i).take n)

/-- Every item of a vector changed by `f`. -/
def mapAll {α β : Type} {n : Nat} (f : α → β) (v : Vector α n) : Vector β n :=
  ⟨⟨v.toList.map f⟩, by simp⟩

/-- A store of numbered places: (place, content) pairs with the places strictly rising and no entry
equal to what an unlisted place reads as. -/
abbrev Store (α : Type) := List (Nat × α)

/-- What place `k` holds: an unlisted place reads as `d`. -/
def Store.read {α : Type} (d : α) (m : Store α) (k : Nat) : α :=
  match m with
  | [] => d
  | (j, v) :: rest => if j = k then v else Store.read d rest k

/-- Place `k` takes `v`; the canonical form is kept, so writing `d` removes the entry. -/
def Store.write {α : Type} [DecidableEq α] (d : α) (m : Store α) (k : Nat) (v : α) : Store α :=
  match m with
  | [] => if v = d then [] else [(k, v)]
  | (j, w) :: rest =>
    if j < k then (j, w) :: Store.write d rest k v
    else if j = k then (if v = d then rest else (k, v) :: rest)
    else (if v = d then (j, w) :: rest else (k, v) :: (j, w) :: rest)

/-- The places are strictly rising from `from_`, lie below `bound`, and hold something else than `d`. -/
def Store.wfFrom {α : Type} [DecidableEq α] (d : α) (bound : Nat) : Nat → Store α → Bool
  | _, [] => true
  | lo, (j, v) :: rest => lo ≤ j && j < bound && v ≠ d && Store.wfFrom d bound (j + 1) rest

/-- The canonical form of a store of `bound` places. -/
def Store.wf {α : Type} [DecidableEq α] (d : α) (bound : Nat) (m : Store α) : Bool :=
  Store.wfFrom d bound 0 m

end Sys2Proof.Machine
end

