-- ==== Sys2Proof/Machine/Records.lean ====
section
/-! DEFINITION. The records of the set memory (chapter 1): their fields (R2 to R7), the empty patterns of
R8, and the set-memory block with its under-copy set and digest state (R1). -/
namespace Sys2Proof.Machine

/-- The side whose scene requests take rank 2 (R2). -/
inductive Lead where
  | panelSide
  | showSide
deriving DecidableEq, Repr

/-- The boundary at which a scene is taken (R4). -/
inductive Quantize where
  | immediate
  | beat
  | bar
deriving DecidableEq, Repr

/-- The action of a layer entry (R5). -/
inductive Action where
  | route
  | next
  | prev
  | tap
deriving DecidableEq, Repr

/-- A level of a click pattern's accent list (R6). -/
inductive Level where
  | silent
  | normal
  | accent
deriving DecidableEq, Repr

/-- The set header (R2). Channels of records are held by number, 1 to 16. -/
structure Header where
  setlistLength : Nat
  lead : Lead
  /-- Milliseconds. -/
  spillLimit : Nat
  sustainController : Nat
  songSelect : Option Nat
  followShift : Nat
deriving DecidableEq, Repr

/-- A song record (R3). -/
structure Song where
  firstScene : Nat
  sceneCount : Nat
  countInBars : Nat
  tag : BitVec 16
deriving DecidableEq, Repr

/-- A program with its optional bank: what a PROGRAM event carries (R29). -/
structure Program where
  number : Seven
  bank : Option Fourteen
deriving DecidableEq, Repr

/-- A program setting of a scene record (R4). -/
structure Setting where
  output : Output
  channel : Chan
  program : Program
  alternate : Option Chan
deriving DecidableEq, Repr

/-- A scene record (R4). -/
structure Scene where
  layerFirst : Nat
  layerCount : Nat
  settings : List Setting
  tempo : Option Nat
  ratio : Nat
  meter : Nat
  pattern : Fin 16
  quantize : Quantize
  echo : BitVec 4
  cueTag : Byte
deriving DecidableEq, Repr

/-- A layer entry (R5). -/
structure Layer where
  inputs : BitVec 4
  sourceChannel : Nat
  keyLow : Nat
  keyHigh : Nat
  velocityLow : Nat
  velocityHigh : Nat
  action : Action
  outputs : BitVec 6
  destChannel : Nat
  transpose : Int
  scale : Nat
  offset : Int
  passContinuous : Bool
  cueTag : Byte
deriving DecidableEq, Repr

/-- A sound index and a gain: what a click pattern names for a kind of click, and a click (R6, 8.3). -/
structure Click where
  sound : Fin 4
  gain : Nat
deriving DecidableEq, Repr

/-- A click pattern (R6). -/
structure Pattern where
  division : Nat
  levels : List Level
  accent : Click
  normal : Click
  subdivision : Click
  countIn : Click
deriving DecidableEq, Repr

/-- The empty header (R8): sustain controller 64, everything else zero or absent. -/
def Header.empty : Header := ⟨0, .panelSide, 0, 64, none, 0⟩
/-- The empty song record (R8). -/
def Song.empty : Song := ⟨0, 0, 0, 0⟩
/-- The empty scene record (R8). -/
def Scene.empty : Scene := ⟨0, 0, [], none, 0, 0, 0, .immediate, 0, 0⟩
/-- The empty layer entry (R8). -/
def Layer.empty : Layer := ⟨0, 0, 0, 0, 0, 0, .route, 0, 0, 0, 0, 0, false, 0⟩
/-- The empty click pattern (R8). -/
def Pattern.empty : Pattern := ⟨0, [], ⟨0, 0⟩, ⟨0, 0⟩, ⟨0, 0⟩, ⟨0, 0⟩⟩

/-- The silent pattern that a pattern record of division 0 is copied as (R9). -/
def Pattern.silent : Pattern := ⟨1, [.silent], ⟨0, 0⟩, ⟨0, 0⟩, ⟨0, 0⟩, ⟨0, 0⟩⟩

/-- A pattern as a handover copies it (R9, R145). -/
def Pattern.copied (p : Pattern) : Pattern := if p.division = 0 then Pattern.silent else p

/-- A scene record as preparation copies it: a record of meter 0 has ratio 256 and meter 4 (R9, R105). -/
def Scene.copied (r : Scene) : Scene := if r.meter = 0 then { r with ratio := 256, meter := 4 } else r

/-- The under-copy set: a scene record and its layer run (R11). -/
structure UnderCopy where
  scene : Nat
  first : Nat
  count : Nat
deriving DecidableEq, Repr

/-- A running digest (R1, R16, R17). `point` is the number of selected words read; `allRead` is set in
the microsecond in which the digest has nothing left to read, so that its completion is due (R17). -/
structure Digest where
  requester : Port
  kinds : BitVec 6
  sum : Nat
  point : Nat
  disturbed : Bool
  allRead : Bool
deriving DecidableEq, Repr

/-- The Set Memory block (R1): the records, the under-copy set and the digest state. `samples` holds
sample place k of sound i at place 4096 × i + k. -/
structure SetMemory where
  header : Header
  songs : Store Song
  scenes : Store Scene
  layers : Store Layer
  patterns : Store Pattern
  soundLengths : Vector Nat 4
  samples : Store (BitVec 16)
  underCopy : Option UnderCopy
  digest : Option Digest
deriving DecidableEq, Repr

/-- The Set Memory after pin reset: every record empty, nothing under copy, no digest (R8, R19). -/
def SetMemory.pinReset : SetMemory :=
  { header := Header.empty, songs := [], scenes := [], layers := [], patterns := [],
    soundLengths := Vector.replicate 4 0, samples := [], underCopy := none, digest := none }

/-- Song record `i` (R3). -/
def SetMemory.song (m : SetMemory) (i : Nat) : Song := Store.read Song.empty m.songs i
/-- Scene record `i` (R4). -/
def SetMemory.scene (m : SetMemory) (i : Nat) : Scene := Store.read Scene.empty m.scenes i
/-- Layer entry `i` (R5). -/
def SetMemory.layer (m : SetMemory) (i : Nat) : Layer := Store.read Layer.empty m.layers i
/-- Click pattern `i` (R6). -/
def SetMemory.pattern (m : SetMemory) (i : Nat) : Pattern := Store.read Pattern.empty m.patterns i
/-- Sample place `k` of click sound `i` (R7). -/
def SetMemory.sample (m : SetMemory) (i : Fin 4) (k : Nat) : BitVec 16 :=
  Store.read 0 m.samples (Config.samplePlaces * i.val + k)
/-- The length of click sound `i` (R7). -/
def SetMemory.soundLength (m : SetMemory) (i : Fin 4) : Nat := m.soundLengths[i]

/-- The canonical form of the set memory's stores. -/
def SetMemory.wf (m : SetMemory) : Bool :=
  Store.wf Song.empty 64 m.songs && Store.wf Scene.empty 256 m.scenes &&
    Store.wf Layer.empty 1024 m.layers && Store.wf Pattern.empty 16 m.patterns &&
    Store.wf 0 (4 * Config.samplePlaces) m.samples

/-- Whether scene record `i` is in the under-copy set (R11). -/
def SetMemory.sceneHeld (m : SetMemory) (i : Nat) : Bool :=
  match m.underCopy with
  | none => false
  | some u => u.scene = i

/-- Whether layer entry `i` is in the under-copy set (R11). -/
def SetMemory.layerHeld (m : SetMemory) (i : Nat) : Bool :=
  match m.underCopy with
  | none => false
  | some u => u.first ≤ i && i < u.first + u.count && i < 1024

end Sys2Proof.Machine
end

