-- ==== Sys2Proof/Machine/Blocks.lean ====
section
/-! DEFINITION. The state of the other blocks of the UZ-2416 (00_scope.md, Table 2), each with its values
after pin reset: note ports, layer router, note table, channel table, scene engine, tempo engine, click
generator, control ports, stage counters and capture list. -/
namespace Sys2Proof.Machine

/-! ### Names shared by the blocks -/

/-- The mode (R93). -/
inductive Mode where
  | setupMode
  | showMode
deriving DecidableEq, Repr

/-- The origin of a scene request (00_scope.md, "Names and type styles"). -/
inductive Origin where
  | panelSide
  | showSide
  | cue
  | modeChange
deriving DecidableEq, Repr

/-- The status of a response (R188). -/
inductive Status where
  | done
  | full
  | busy
  | range
  | mode
  | inUse
  | outranked
  | already
  | none
  | atEnd
  | empty
  | source
  | length
  | unknown
deriving DecidableEq, Repr

/-- Why a change was refused: a failed preparation check (R106), or the status of a refusal (R170). -/
inductive Reason where
  | bounds
  | order
  | noInputs
  | noOutputs
  | refusal (status : Status)
deriving DecidableEq, Repr

/-- Why a staged change was superseded (R98, R102). -/
inductive SupersedeCause where
  | replaced
  | cancelled
deriving DecidableEq, Repr

/-- The cause of a panic (R74). -/
inductive PanicCause where
  | panelRequest
  | showRequest
  | line
deriving DecidableEq, Repr

/-- Pulses per beat of a SYNC source: 1, 2, 4 or 24 (R120). -/
inductive PulseRate where
  | one
  | two
  | four
  | twentyFour
deriving DecidableEq, Repr

/-- The requested tempo source (R120). -/
inductive Source where
  | internal
  | clock (n : Input)
  | sync (rate : PulseRate)
  | mark
deriving DecidableEq, Repr

/-- The source state (R120). -/
inductive SourceState where
  | free
  | acquiring
  | locked
  | holdover
deriving DecidableEq, Repr

/-- The thirteen counter events, in the order of R174. -/
inductive CounterEvent where
  | framingErrors
  | routedNoteOns
  | voidRoutes
  | tableFullDrops
  | legsSent
  | queueDiscards
  | coalesced
  | outOfRangeKeys
  | fanOutClipped
  | staleProgramNotes
  | referenceOutliers
  | sceneTakes
  | barSlips
deriving DecidableEq, Repr

/-- The nine capture kinds, in the order of R177. -/
inductive CaptureKind where
  | sceneTaken
  | changeRefused
  | superseded
  | lockChange
  | queueOverflow
  | panicOwed
  | voidRoute
  | panic
  | mode
deriving DecidableEq, Repr

/-! ### Control ports (chapter 9) -/

/-- The notices and their payloads (R170). -/
inductive Notice where
  | sceneTaken (song scene : Nat) (tag : BitVec 16) (generation : Generation) (origin : Origin)
  | changeReady (song scene : Nat) (origin : Origin) (quantize : Quantize)
  | changeRefused (song scene : Option Nat) (origin : Origin) (reason : Reason) (offset : Option Nat)
  | changeSuperseded (song scene : Nat) (origin : Origin) (cause : SupersedeCause)
  | songStart (song : Nat) (tag : BitVec 16) (generation : Generation)
  | position (song : Option Nat) (bar : Int) (beat : Nat) (generation : Generation)
  | lock (state : SourceState) (source : Source) (base : Nat)
  | queueOverflow (output : Output) (length : Nat)
  | queueCritical (output : Output) (length level : Nat)
  | counter (index : Fin 4) (event : CounterEvent) (value : Word32)
  | captureFull (kinds : BitVec 9)
  | digest (value : Word32) (kinds : BitVec 6) (disturbed : Bool)
  | panic (cause : PanicCause)
  | mode (mode : Mode)
deriving DecidableEq, Repr

/-- A frame of an outbound queue (R158): a response, with its payload as fixed at admission, or a
notice. -/
inductive Frame where
  | response (kind tag : Byte) (status : Status) (payload : List Byte)
  | notice (n : Notice)
deriving DecidableEq, Repr

/-- A request of a request queue (R158): its length octet, its kind, its tag, its payload, and the
answer already decided for it when R163 requires one. -/
structure Request where
  length : Nat
  kind : Byte
  tag : Byte
  payload : List Byte
  decided : Option Status
deriving DecidableEq, Repr

/-- The outbound side of a transfer: the head of the outbound queue, or idle fill (R159). -/
inductive OutboundSide where
  | queuedFrame
  | idleFill
deriving DecidableEq, Repr

/-- The transfer state of a port (R158). -/
inductive Transfer where
  | idle
  | inTransfer (received : List Byte) (side : OutboundSide)
deriving DecidableEq, Repr

/-- The state of one control port (R158). The attention line is not held: it is asserted exactly while
the outbound queue is not empty (R169, `PortState.attention`). `handledSince` is the stage time at which
the oldest request began to be handled (R163). -/
structure PortState where
  transfer : Transfer
  requests : List Request
  outbound : List Frame
  marks : BitVec 9
  lostNotice : Bool
  shortFrames : BitVec 16
  handledSince : StageTime
deriving DecidableEq, Repr

/-- Every subscription mark set except POSITION, whose bit is 2 (R167, R188). -/
def resetMarks : BitVec 9 := 0b111111011#9

/-- A control port after pin reset (R172). -/
def PortState.pinReset : PortState :=
  { transfer := .idle, requests := [], outbound := [], marks := resetMarks, lostNotice := false,
    shortFrames := 0, handledSince := 0 }

/-! ### Stage counters and capture list (chapter 10) -/

/-- One stage counter (R174). -/
structure Counter where
  select : Option CounterEvent
  ports : BitVec 8
  threshold : Word32
  value : Word32
  reachedMark : Bool
deriving DecidableEq, Repr

/-- A counter after either reset (R181). -/
def Counter.clear : Counter := ⟨none, 0, 0, 0, false⟩

/-- The detail of a capture record (R177). -/
inductive Detail where
  | refused (reason : Reason)
  | superseded (cause : SupersedeCause)
  | lock (state : SourceState) (source : Source)
  | panic (cause : PanicCause)
  | mode (mode : Mode)
deriving DecidableEq, Repr

/-- A capture record (R177). A place without a record is `none` in the list. `songTag` is the song tag that
R3 has the capture of a take carry; R177's fields and the layout of R188 have no place for it, so the record
keeps it and CAPTURE READ does not send it (DESIGN CHOICE between R3 and R177, R188; log entry 30). -/
structure CaptureRecord where
  time : StageTime
  kind : CaptureKind
  origin : Option Origin
  output : Option Output
  song : Option Nat
  scene : Option Nat
  generation : Option Generation
  channel : Option Chan
  detail : Option Detail
  cueTag : Byte
  songTag : Option (BitVec 16) := none
deriving DecidableEq, Repr

/-- The capture state (R178). -/
inductive CaptureState where
  | disarmed
  | armed
  | full
deriving DecidableEq, Repr

/-- The capture list (R178). -/
structure Capture where
  places : Vector (Option CaptureRecord) 32
  state : CaptureState
  kinds : BitVec 9
  index : Nat
deriving DecidableEq, Repr

/-- The capture list after either reset (R181). -/
def Capture.clear : Capture := ⟨Vector.replicate 32 none, .disarmed, 0, 0⟩

/-- What the masters read: both ports, the counters and the capture list. Every block reports into it. -/
structure Desk where
  panelPort : PortState
  showPort : PortState
  counters : Vector Counter 4
  capture : Capture
deriving DecidableEq, Repr

/-- Ports, counters and capture list after pin reset (R172, R181). -/
def Desk.pinReset : Desk :=
  { panelPort := PortState.pinReset, showPort := PortState.pinReset,
    counters := Vector.replicate 4 Counter.clear, capture := Capture.clear }

/-! ### Note outputs (chapter 2) -/

/-- The events of an urgent queue (R29). A note-on names the leg it belongs to by the leg's number. A
PROGRAM is marked `expiry` when a spill expiry released it, for the panic of R85 (log entry 31). -/
inductive Urgent where
  | noteOn (c : Chan) (key velocity : Seven) (leg : Nat)
  | noteOff (c : Chan) (key : Seven)
  | program (c : Chan) (program : Program) (expiry : Bool)
  | allNotesOff (c : Chan)
deriving DecidableEq, Repr

/-- The kind of a continuous event, with the controller number of a CONTROL (R38). -/
inductive ContinuousKind where
  | control (number : Seven)
  | pressure
  | bend
deriving DecidableEq, Repr

/-- A place of a bulk queue: its identity (kind and channel), its value and its follow-up value (R38). -/
structure BulkPlace where
  kind : ContinuousKind
  channel : Chan
  value : Fourteen
  followUp : Option Fourteen
deriving DecidableEq, Repr

/-- The queue whose head is on the line. -/
inductive LineQueue where
  | urgent
  | bulk
deriving DecidableEq, Repr

/-- The transmit state (R29, R31): when SENDING, the event on the line is the head of queue `q`, and its
last octet goes out at stage time `until_`. -/
inductive Transmit where
  | idle
  | sending (q : LineQueue) (until_ : StageTime)
deriving DecidableEq, Repr

/-- The state of one output (R29). -/
structure OutPort where
  urgent : List Urgent
  bulk : List BulkPlace
  transmit : Transmit
  enabled : Bool
  overflow : Bool
  critical : Bool
  level : Nat
deriving DecidableEq, Repr

/-- An output after pin reset (R41). -/
def OutPort.pinReset : OutPort :=
  { urgent := [], bulk := [], transmit := .idle, enabled := true, overflow := false, critical := false,
    level := 40 }

/-! ### Destination-channel records (chapter 5) -/

/-- A pending program with its generation and its spill deadline: the three are present together
(R79). -/
structure Pending where
  program : Program
  generation : Generation
  deadline : StageTime
deriving DecidableEq, Repr

/-- A destination-channel record (R30, R79). -/
structure ChanRec where
  program : Option Seven
  bank : Option Fourteen
  pending : Option Pending
  sounding : Nat
  old : Nat
  redirect : Option (Chan × Generation)
  panicOwed : Bool
  held : Option Program
deriving DecidableEq, Repr

/-- A destination-channel record after either reset (R92). -/
def ChanRec.clear : ChanRec := ⟨none, none, none, 0, 0, none, false, none⟩

/-! ### The active-note table (chapter 4) -/

/-- A leg (R60). `id` is the model's number for the leg, so that a queued note-on can name it. -/
structure Leg where
  id : Nat
  output : Output
  channel : Chan
  key : Seven
  velocity : Seven
  sent : Bool
deriving DecidableEq, Repr

/-- An entry of the active-note table (R60). -/
structure Entry where
  input : Input
  channel : Chan
  key : Seven
  sustained : Bool
  generation : Generation
  legs : List Leg
deriving DecidableEq, Repr

/-- The instrument side with the desk it reports to: the outputs, the 96 destination-channel records
(record (o, c) at place 16 × o + c), the active-note table in table order, the 64 pedal states (input n
and channel c at place 16 × n + c; set is DOWN), and the number the next leg takes. -/
structure Rig where
  desk : Desk
  outputs : Vector OutPort 6
  records : Vector ChanRec 96
  table : List Entry
  pedals : Vector Bool 64
  nextLeg : Nat
deriving DecidableEq, Repr

/-- The instrument side after pin reset (R41, R77, R92). -/
def Rig.pinReset : Rig :=
  { desk := Desk.pinReset, outputs := Vector.replicate 6 OutPort.pinReset,
    records := Vector.replicate 96 ChanRec.clear, table := [], pedals := Vector.replicate 64 false,
    nextLeg := 0 }

/-! ### Note inputs (chapter 2) -/

/-- The channel kinds of an instrument line (R20, R191). -/
inductive ChannelKind where
  | noteOff
  | noteOn
  | keyPressure
  | control
  | program
  | pressure
  | bend
deriving DecidableEq, Repr

/-- The kind in force of a deframer (R20). -/
inductive KindInForce where
  | none
  | channel (kind : ChannelKind) (c : Chan)
  | skip
deriving DecidableEq, Repr

/-- A deframer: the kind in force and the data held, which are none or one value (R20). -/
structure Deframer where
  kind : KindInForce
  held : Option Seven
deriving DecidableEq, Repr

/-- A deframer after either reset (R24, R41). -/
def Deframer.clear : Deframer := ⟨.none, none⟩

/-! ### Layer router (chapter 3) -/

/-- The fill state of the standby bank (R42). -/
inductive Fill where
  | empty
  | filling
  | filled
deriving DecidableEq, Repr

/-- The Layer Router (R42). A bank entry's position is its place in the list. `standbyEcho` is the echo
permit mask that the standby bank holds while its fill state is FILLING or FILLED. -/
structure Router where
  active : List Layer
  standby : List Layer
  fill : Fill
  standbyEcho : BitVec 4
  echo : BitVec 4
deriving DecidableEq, Repr

/-- The Layer Router after pin reset, RESTART and ENTER SETUP (R46). -/
def Router.clear : Router := ⟨[], [], .empty, 0, 0⟩

/-! ### Scene engine (chapter 6) -/

/-- A scene of the set: song index, scene index within the song, scene record index (R93, R95). -/
structure Target where
  song : Nat
  scene : Nat
  record : Nat
deriving DecidableEq, Repr

/-- The preparation state of a change (R95). -/
inductive Preparation where
  | preparing
  | ready
deriving DecidableEq, Repr

/-- The change of the staged slot (R95). `startedAt` is the stage time at which its preparation
started (R105). -/
structure Change where
  target : Target
  origin : Origin
  rank : Nat
  requestQuantize : Option Quantize
  quantize : Quantize
  cueTag : Byte
  preparation : Preparation
  copy : Scene
  startedAt : StageTime
deriving DecidableEq, Repr

/-- The song position (R93). -/
structure Position where
  song : Option Nat
  bar : Int
  beat : Nat
  newBarOwed : Bool
deriving DecidableEq, Repr

/-- The position after either reset and after ENTER SETUP (R118, R119). -/
def Position.clear : Position := ⟨none, 0, 0, false⟩

/-- The Scene Engine (R93). -/
structure SceneEngine where
  mode : Mode
  current : Option Target
  generation : Generation
  staged : Option Change
  frozen : Bool
  position : Position
  meter : Nat
deriving DecidableEq, Repr

/-- The Scene Engine after pin reset (R119). -/
def SceneEngine.pinReset : SceneEngine :=
  { mode := .setupMode, current := none, generation := 0, staged := none, frozen := false,
    position := Position.clear, meter := 4 }

/-! ### Tempo engine (chapter 7) -/

/-- The reference fields of the Tempo Engine (R120). `pulses` none is AWAITING. -/
structure Reference where
  pulses : Option Nat
  lastBeat : Option StageTime
  previous : Option Nat
  acquisitionRun : Nat
  outlierRun : Nat
  holdoverDeadline : Option StageTime
  holdoverBeats : Nat
deriving DecidableEq, Repr

/-- The reference fields as TEMPO SOURCE and both resets clear them (R129, R143). -/
def Reference.clear : Reference := ⟨none, none, none, 0, 0, none, 0⟩

/-- The Tempo Engine (R120). `phaseOwed` holds the increment of the current microsecond while that
microsecond's advance of the phase, which makes a beat or click boundary, is still to be made (R123,
R124): the boundary is a step of its own, BEAT_BOUNDARY or CLICK_BOUNDARY. `lineHighUntil` is the beat
line: none is low. -/
structure Tempo where
  base : Nat
  ratio : Nat
  trim : Int
  effective : Nat
  increment : Nat
  phase : BitVec 32
  phaseOwed : Option Nat
  clickIndex : Nat
  source : Source
  followShift : Nat
  state : SourceState
  reference : Reference
  taps : List Nat
  lastTap : Option StageTime
  ownBeats : Word32
  refBeats : Word32
  clamped : Bool
  lineHighUntil : Option StageTime
deriving DecidableEq, Repr

/-- The Tempo Engine after pin reset (R143). -/
def Tempo.pinReset : Tempo :=
  { base := 12000, ratio := 256, trim := 0, effective := 12000, increment := 8590, phase := 0,
    phaseOwed := none, clickIndex := 0, source := .internal, followShift := 0, state := .free,
    reference := Reference.clear, taps := [], lastTap := none, ownBeats := 0, refBeats := 0,
    clamped := false, lineHighUntil := none }

/-! ### Click generator (chapter 8) -/

/-- A click voice (R144): FREE, or PLAYING a sound at a gain. -/
inductive Voice where
  | free
  | playing (sound : Fin 4) (gain length position : Nat)
deriving DecidableEq, Repr

/-- The state of the audio clock (R144). -/
inductive AudioClock where
  | present
  | missing
deriving DecidableEq, Repr

/-- The Click Generator (R144). `waiting` holds the clicks that the next sample period starts (R149).
`formed` is the sample formed in the last sample period, `left` and `right` are the slots of the frame being
sent, which carry the sample of the period before, and `lastRight` is the right slot of the frame before that
one, whose last bit falls in the first bit period of the frame (R154). -/
structure ClickGen where
  pattern : Pattern
  voices : Vector Voice 4
  master : Nat
  mute : Bool
  audio : AudioClock
  presenceRun : Option StageTime
  waiting : List Click
  formed : BitVec 16
  left : BitVec 16
  right : BitVec 16
  lastRight : BitVec 16
deriving DecidableEq, Repr

/-- The Click Generator after pin reset (R157). -/
def ClickGen.pinReset : ClickGen :=
  { pattern := Pattern.silent, voices := Vector.replicate 4 .free, master := 16384, mute := false,
    audio := .missing, presenceRun := none, waiting := [], formed := 0, left := 0, right := 0,
    lastRight := 0 }

/-! ### Pins -/

/-- The lines the part samples: the reset pin, the presence of the crystal, and the accepted levels of
the panic and sync inputs (R73, R130, R185, R186). -/
structure Pins where
  resetHeld : Bool
  crystalPresent : Bool
  panicLow : Bool
  syncHigh : Bool
deriving DecidableEq, Repr

/-- The lines at rest: reset released, crystal running, panic input high and sync input low (DESIGN
CHOICE for the two inputs: R185 takes them at the levels they hold at release; log entry 4). -/
def Pins.atRest : Pins := ⟨false, true, false, false⟩

end Sys2Proof.Machine
end

