-- ==== Sys2Proof/Machine/Formats.lean ====
section
/-! DEFINITION. Chapter 12, the outbound direction: the code tables of R188, the octets of responses and
notices (R187, R188), the canonical words of the records (R189), the bodies SET READ returns, and the
octets of the output lines (R192). -/
namespace Sys2Proof.Machine

/-- One octet of a number. -/
def octet (v : Nat) : Byte := BitVec.ofNat 8 v

/-! ### Code tables (R188) -/

/-- Status codes. -/
def Status.code : Status → Byte
  | .done => 0x00
  | .full => 0x01
  | .busy => 0x02
  | .range => 0x03
  | .mode => 0x04
  | .inUse => 0x05
  | .outranked => 0x06
  | .already => 0x07
  | .none => 0x08
  | .atEnd => 0x09
  | .empty => 0x0A
  | .source => 0x0B
  | .length => 0x0C
  | .unknown => 0x0D

/-- Preparation reasons; a refusal carries its status code. -/
def Reason.code : Reason → Byte
  | .bounds => 0x20
  | .order => 0x21
  | .noInputs => 0x22
  | .noOutputs => 0x23
  | .refusal st => st.code

/-- Origin codes. -/
def Origin.code : Origin → Byte
  | .panelSide => 0
  | .showSide => 1
  | .cue => 2
  | .modeChange => 3

/-- Quantize codes of requests, notices and STATUS (0 is absent). -/
def Quantize.code : Quantize → Byte
  | .immediate => 1
  | .beat => 2
  | .bar => 3

/-- Quantize codes of scene records (R189). -/
def Quantize.recordCode : Quantize → Nat
  | .immediate => 0
  | .beat => 1
  | .bar => 2

/-- Pulses per beat. -/
def PulseRate.perBeat : PulseRate → Nat
  | .one => 1
  | .two => 2
  | .four => 4
  | .twentyFour => 24

/-- The code of a SYNC pulse count in a LOCK CHANGE detail. -/
def PulseRate.detailCode : PulseRate → Nat
  | .one => 0
  | .two => 1
  | .four => 2
  | .twentyFour => 3

/-- Source-kind codes. -/
def Source.kindCode : Source → Nat
  | .internal => 0
  | .clock _ => 1
  | .sync _ => 2
  | .mark => 3

/-- The source parameter: the input for CLOCK, the pulse count for SYNC, 0 for the others. -/
def Source.parameter : Source → Nat
  | .internal => 0
  | .clock n => n.val
  | .sync rate => rate.perBeat
  | .mark => 0

/-- Reference pulses per beat of the requested source (R130). -/
def Source.pulsesPerBeat : Source → Nat
  | .internal => 1
  | .clock _ => 24
  | .sync rate => rate.perBeat
  | .mark => 1

/-- Source-state codes. -/
def SourceState.code : SourceState → Nat
  | .free => 0
  | .acquiring => 1
  | .locked => 2
  | .holdover => 3

/-- Mode codes. -/
def Mode.code : Mode → Byte
  | .setupMode => 0
  | .showMode => 1

/-- Panic-cause codes. -/
def PanicCause.code : PanicCause → Byte
  | .panelRequest => 0
  | .showRequest => 1
  | .line => 2

/-- REPLACED and CANCELLED. -/
def SupersedeCause.code : SupersedeCause → Byte
  | .replaced => 0
  | .cancelled => 1

/-- Counter selects: 1 to 13 in the order of R174; 0 is NONE. -/
def CounterEvent.code : CounterEvent → Nat
  | .framingErrors => 1
  | .routedNoteOns => 2
  | .voidRoutes => 3
  | .tableFullDrops => 4
  | .legsSent => 5
  | .queueDiscards => 6
  | .coalesced => 7
  | .outOfRangeKeys => 8
  | .fanOutClipped => 9
  | .staleProgramNotes => 10
  | .referenceOutliers => 11
  | .sceneTakes => 12
  | .barSlips => 13

/-- How many ports a counter event's mask ranges over: four inputs, six outputs, or none (R174). -/
def CounterEvent.portCount : CounterEvent → Nat
  | .framingErrors => 4
  | .routedNoteOns => 4
  | .voidRoutes => 4
  | .tableFullDrops => 4
  | .legsSent => 6
  | .queueDiscards => 6
  | .coalesced => 6
  | .outOfRangeKeys => 6
  | .fanOutClipped => 6
  | .staleProgramNotes => 6
  | .referenceOutliers => 0
  | .sceneTakes => 0
  | .barSlips => 0

/-- The mask bit and the code of a capture kind, in the order of R177. -/
def CaptureKind.bit : CaptureKind → Nat
  | .sceneTaken => 0
  | .changeRefused => 1
  | .superseded => 2
  | .lockChange => 3
  | .queueOverflow => 4
  | .panicOwed => 5
  | .voidRoute => 6
  | .panic => 7
  | .mode => 8

/-- The detail octet of a capture record. -/
def Detail.code : Detail → Byte
  | .refused reason => reason.code
  | .superseded cause => cause.code
  | .lock st src =>
    let p := match src with
      | .clock n => n.val
      | .sync rate => rate.detailCode
      | .internal => 0
      | .mark => 0
    octet (putField st.code 0 2 + putField src.kindCode 2 2 + putField p 4 2)
  | .panic cause => cause.code
  | .mode m => m.code

/-- An optional song or scene octet: FFh is absent. -/
def optOctet : Option Nat → Byte
  | none => 0xFF
  | some v => octet v

/-- An optional field whose absent code is FFh. -/
def optFF {α : Type} (code : α → Byte) : Option α → Byte
  | none => 0xFF
  | some v => code v

/-! ### Notices (R187, R188) -/

/-- The kind octet of a notice. -/
def Notice.kindOctet : Notice → Byte
  | .sceneTaken .. => 0x81
  | .changeReady .. => 0x82
  | .changeRefused .. => 0x83
  | .changeSuperseded .. => 0x84
  | .songStart .. => 0x85
  | .position .. => 0x86
  | .lock .. => 0x87
  | .queueOverflow .. => 0x88
  | .queueCritical .. => 0x88
  | .counter .. => 0x89
  | .captureFull .. => 0x8A
  | .digest .. => 0x8B
  | .panic .. => 0x8C
  | .mode .. => 0x8D

/-- The payload of a notice. -/
def Notice.payload : Notice → List Byte
  | .sceneTaken song scene tag gen origin =>
    [octet song, octet scene] ++ octetsLE 2 tag.toNat ++ octetsLE 2 gen.toNat ++ [origin.code]
  | .changeReady song scene origin q => [octet song, octet scene, origin.code, q.code]
  | .changeRefused song scene origin reason offset =>
    [optOctet song, optOctet scene, origin.code, reason.code] ++ octetsLE 2 (offset.getD 0xFFFF)
  | .changeSuperseded song scene origin cause =>
    [octet song, octet scene, origin.code, cause.code]
  | .songStart song tag gen => octet song :: (octetsLE 2 tag.toNat ++ octetsLE 2 gen.toNat)
  | .position song bar beat gen =>
    optOctet song :: (octetsLE 2 (unsignedCode bar 16) ++ [octet beat] ++ octetsLE 2 gen.toNat)
  | .lock st src base =>
    [octet st.code, octet src.kindCode, octet src.parameter] ++ octetsLE 2 base
  | .queueOverflow o len => [0, octet o.val, octet len, 0]
  | .queueCritical o len level => [1, octet o.val, octet len, octet level]
  | .counter i ev value => [octet i.val, octet ev.code] ++ octetsLE 4 value.toNat
  | .captureFull kinds => octetsLE 2 kinds.toNat
  | .digest value kinds disturbed =>
    octetsLE 4 value.toNat ++ [octet kinds.toNat, if disturbed then 1 else 0]
  | .panic cause => [cause.code]
  | .mode m => [m.code]

/-- The octets of a frame: the length, the kind, the tag and status of a response, the payload. -/
def Frame.octets : Frame → List Byte
  | .response kind tag st payload =>
    octet (payload.length + 4) :: kind :: tag :: st.code :: payload
  | .notice n => octet (n.payload.length + 2) :: n.kindOctet :: n.payload

/-- The kind octet of a response: its request's with the top bit cleared (R188). -/
def responseKind (kind : Byte) : Byte := kind &&& 0x7F

/-- Whether a frame is a POSITION notice (R166). -/
def Frame.isPosition : Frame → Bool
  | .notice (.position ..) => true
  | _ => false

/-- The subscription mark of a notice, in the order of R167; none for a directed notice (R168). -/
def Notice.mark : Notice → Option Nat
  | .sceneTaken .. => some 0
  | .songStart .. => some 1
  | .position .. => some 2
  | .lock .. => some 3
  | .queueOverflow .. => some 4
  | .queueCritical .. => some 4
  | .counter .. => some 5
  | .captureFull .. => some 6
  | .panic .. => some 7
  | .mode .. => some 8
  | .changeReady .. => none
  | .changeRefused .. => none
  | .changeSuperseded .. => none
  | .digest .. => none

/-! ### Canonical words (R189) -/

/-- The word that holds the fields placed in it. -/
def wordOf (v : Nat) : Word32 := BitVec.ofNat 32 v

/-- An optional number whose absent code is 0. -/
def optNat (v : Option Nat) : Nat := v.getD 0

/-- An optional channel as its number, 0 for absent. -/
def optChan : Option Chan → Nat
  | none => 0
  | some c => c.val + 1

/-- The action code of a layer entry. -/
def Action.code : Action → Nat
  | .route => 0
  | .next => 1
  | .prev => 2
  | .tap => 3

/-- The level code of an accent list. -/
def Level.code : Level → Nat
  | .silent => 1
  | .normal => 2
  | .accent => 3

/-- The lead bit of the header. -/
def Lead.code : Lead → Nat
  | .panelSide => 0
  | .showSide => 1

/-- The two words of the header. -/
def Header.words (h : Header) : List Word32 :=
  [wordOf (putField h.setlistLength 0 7 + putField h.lead.code 7 1 + putField h.spillLimit 8 15 +
      putField h.sustainController 23 7),
   wordOf (putField (optNat h.songSelect) 0 5 + putField h.followShift 5 3)]

/-- The word of a song record. -/
def Song.words (r : Song) : List Word32 :=
  [wordOf (putField r.firstScene 0 8 + putField r.sceneCount 8 5 + putField r.countInBars 13 2 +
      putField r.tag.toNat 16 16)]

/-- The two words of a program setting. -/
def Setting.words (t : Setting) : List Word32 :=
  [wordOf (putField t.output.val 0 3 + putField (t.channel.val + 1) 3 5 +
      putField t.program.number.val 8 7 + (match t.program.bank with
        | none => 0
        | some b => putField 1 15 1 + putField b.val 16 14)),
   wordOf (putField (optChan t.alternate) 0 5)]

/-- The words of the setting list of a scene record: two to a setting, zero beyond the list, eight
settings in all (R15). -/
def settingWords : Nat → List Setting → List Word32
  | 0, _ => []
  | n + 1, [] => 0 :: 0 :: settingWords n []
  | n + 1, t :: ts => t.words ++ settingWords n ts

/-- The nineteen words of a scene record. -/
def Scene.words (r : Scene) : List Word32 :=
  [wordOf (putField r.layerFirst 0 10 + putField r.layerCount 10 7 +
      putField r.settings.length 17 4 + putField r.meter 21 4 + putField r.pattern.val 25 4 +
      putField r.quantize.recordCode 29 2),
   wordOf ((match r.tempo with
        | none => 0
        | some t => putField t 0 15 + putField 1 15 1) + putField r.ratio 16 11 +
      putField r.echo.toNat 27 4),
   wordOf (putField r.cueTag.toNat 0 8)] ++ settingWords 8 r.settings

/-- The three words of a layer entry. -/
def Layer.words (r : Layer) : List Word32 :=
  [wordOf (putField r.inputs.toNat 0 4 + putField r.sourceChannel 4 5 + putField r.keyLow 9 7 +
      putField r.keyHigh 16 7 + putField r.action.code 23 2 +
      putField (if r.passContinuous then 1 else 0) 25 1),
   wordOf (putField r.velocityLow 0 7 + putField r.velocityHigh 7 7 + putField r.outputs.toNat 14 6 +
      putField r.destChannel 20 5),
   wordOf (putField (unsignedCode r.transpose 8) 0 8 + putField r.scale 8 7 +
      putField (unsignedCode r.offset 7) 15 7 + putField r.cueTag.toNat 22 8)]

/-- The level fields of a click pattern, from level `j` on. -/
def levelFields : Nat → List Level → Nat
  | _, [] => 0
  | j, l :: ls => putField l.code (2 * j) 2 + levelFields (j + 1) ls

/-- The four words of a click pattern. -/
def Pattern.words (r : Pattern) : List Word32 :=
  [wordOf (putField r.division 0 4 + putField r.levels.length 4 4 + putField r.accent.sound.val 8 2 +
      putField r.normal.sound.val 10 2 + putField r.subdivision.sound.val 12 2 +
      putField r.countIn.sound.val 14 2 + putField r.accent.gain 16 15),
   wordOf (levelFields 0 r.levels),
   wordOf (putField r.normal.gain 0 15 + putField r.subdivision.gain 16 15),
   wordOf (putField r.countIn.gain 0 15)]

/-- The length word of a click sound. -/
def lengthWord (len : Nat) : Word32 := wordOf (putField len 0 13)

/-- Word `w` of click sound `i`: the length, then two samples to a word. -/
def SetMemory.soundWord (m : SetMemory) (i : Fin 4) (w : Nat) : Word32 :=
  if w = 0 then lengthWord (m.soundLength i)
  else wordOf ((m.sample i (2 * (w - 1))).toNat + 2 ^ 16 * (m.sample i (2 * (w - 1) + 1)).toNat)

/-- Words of the kinds, in the order of R15: header, songs, scenes, layers, patterns, sounds. -/
def kindWords : List Nat := [2, 64, 4864, 3072, 64, 8196]

/-- Word `i` of kind `kind` as it is stored now (R15). -/
def SetMemory.word (m : SetMemory) (kind i : Nat) : Word32 :=
  match kind with
  | 0 => m.header.words.getD i 0
  | 1 => (m.song i).words.getD 0 0
  | 2 => (m.scene (i / 19)).words.getD (i % 19) 0
  | 3 => (m.layer (i / 3)).words.getD (i % 3) 0
  | 4 => (m.pattern (i / 4)).words.getD (i % 4) 0
  | _ => m.soundWord (Fin.ofNat 4 (i / 2049)) (i % 2049)

/-- The kind and the place within it of selected word `i`, counting the kinds from `kind` on. -/
def locateWord (kinds : BitVec 6) : Nat → List Nat → Nat → Option (Nat × Nat)
  | _, [], _ => none
  | kind, size :: sizes, i =>
    if kinds.getLsbD kind then
      if i < size then some (kind, i) else locateWord kinds (kind + 1) sizes (i - size)
    else locateWord kinds (kind + 1) sizes i

/-- Selected word `i` of a digest over `kinds`; none when the digest has read them all (R15, R17). -/
def SetMemory.digestWord (m : SetMemory) (kinds : BitVec 6) (i : Nat) : Option Word32 :=
  (locateWord kinds 0 kindWords i).map fun p => m.word p.1 p.2

/-- The number of words of the kinds selected, counting from `kind` on. -/
def selectedWords (kinds : BitVec 6) : Nat → List Nat → Nat
  | _, [] => 0
  | kind, size :: sizes =>
    (if kinds.getLsbD kind then size else 0) + selectedWords kinds (kind + 1) sizes

/-- The digest of a running sum (R18). -/
def foldDigest (sum : Nat) : Word32 :=
  wordOf (2 ^ 32 - 1 - (sum % 2 ^ 32 + sum / 2 ^ 32) % 2 ^ 32)

/-! ### Bodies of SET READ (R189) -/

/-- Words as octets, four to a word. -/
def wordOctets (ws : List Word32) : List Byte := ws.flatMap fun w => octetsLE 4 w.toNat

/-- A setting of the packed scene form. -/
def Setting.packed (t : Setting) : List Byte :=
  [octet (putField t.output.val 0 3 + putField (optChan t.alternate) 3 5), octet (t.channel.val + 1),
   octet t.program.number.val] ++ octetsLE 2 (match t.program.bank with
     | none => 0
     | some b => b.val + 2 ^ 15)

/-- The packed form of a scene record: 13 octets and 5 per setting. -/
def Scene.packed (r : Scene) : List Byte :=
  octetsLE 2 r.layerFirst ++ [octet r.layerCount, octet r.settings.length] ++
    octetsLE 2 (optNat r.tempo) ++ octetsLE 2 r.ratio ++
    [octet r.meter, octet r.pattern.val, octet r.quantize.recordCode, octet r.echo.toNat, r.cueTag] ++
    r.settings.flatMap Setting.packed

/-- The samples body: offset, count and the samples from `offset` on. -/
def SetMemory.samplesBody (m : SetMemory) (i : Fin 4) (offset count : Nat) : List Byte :=
  octetsLE 2 offset ++ [octet count] ++
    (List.range count).flatMap fun k => octetsLE 2 (m.sample i (offset + k)).toNat

/-! ### Octets of the output lines (R192) -/

/-- A kind octet of the output lines (R191). -/
def kindOctet (base : Nat) (c : Chan) : Byte := octet (base + c.val)

/-- The octets an urgent event is sent as (R31, R192). -/
def Urgent.octets : Urgent → List Byte
  | .noteOn c key velocity _ => [kindOctet 0x90 c, octet key.val, octet velocity.val]
  | .noteOff c key => [kindOctet 0x80 c, octet key.val, 64]
  | .program c p _ =>
    (match p.bank with
      | none => []
      | some b => [kindOctet 0xB0 c, 0, octet (b.val / 128), kindOctet 0xB0 c, 32, octet (b.val % 128)]) ++
    [kindOctet 0xC0 c, octet p.number.val]
  | .allNotesOff c => [kindOctet 0xB0 c, 123, 0]

/-- The octets a continuous event is sent as (R31, R191). -/
def BulkPlace.octets (b : BulkPlace) : List Byte :=
  match b.kind with
  | .control number => [kindOctet 0xB0 b.channel, octet number.val, octet b.value.val]
  | .pressure => [kindOctet 0xD0 b.channel, octet b.value.val]
  | .bend => [kindOctet 0xE0 b.channel, octet (b.value.val % 128), octet (b.value.val / 128)]

/-! ### The audio serial output (R154) -/

/-- The data line over the 32 bit periods of one frame, first period first: each slot most significant
bit first, beginning one bit period after the change of word select, so that the last bit of the right
slot of the frame before stands in the first period. -/
def serialBits (lastRight left right : BitVec 16) : List Bool :=
  lastRight.getLsbD 0 :: ((List.range 16).map fun k => left.getLsbD (15 - k)) ++
    ((List.range 15).map fun k => right.getLsbD (15 - k))

/-- The word select over the 32 bit periods of one frame: low (false) for the left slot. -/
def wordSelect : List Bool := List.replicate 16 false ++ List.replicate 16 true

end Sys2Proof.Machine
end

