-- ==== Sys2Proof/Machine/Operands.lean ====
section
/-! DEFINITION. Chapter 12, the inbound direction: which row of the request catalogue a frame is (R163,
R188), the fields of its payload, and the record bodies of SET WRITE with their range checks (R10, R189,
R190). -/
namespace Sys2Proof.Machine

/-! ### The request catalogue (R163, R188) -/

/-- What a request is: a row of the catalogue, or a frame that is answered LENGTH or UNKNOWN. -/
inductive RequestRow where
  | setWrite
  | soundLength
  | soundSamples
  | setRead
  | setDigest
  | enterShow
  | enterSetup
  | restart
  | goSong
  | goScene
  | goNext
  | goPrev
  | cancel
  | freeze
  | thaw
  | step
  | tempoSource
  | tempoSet
  | trim
  | tap
  | beatMark
  | outputEnable
  | criticalLevel
  | panic
  | clickLevel
  | clickMute
  | counterSet
  | counterRead
  | captureArm
  | captureRead
  | status
  | subscribe
  | turnedAway (status : Status)
deriving DecidableEq, Repr

/-- The record-kind code of a SET WRITE or SET READ: the first payload octet. -/
def Request.recordKind (r : Request) : Nat := fieldLE r.payload 0 1

/-- The record index of a SET WRITE or SET READ. -/
def Request.recordIndex (r : Request) : Nat := fieldLE r.payload 1 2

/-- Payload octet `i` as a number. -/
def Request.octetAt (r : Request) (i : Nat) : Nat := fieldLE r.payload i 1

/-- The body of a SET WRITE: the payload after the record kind and the index. -/
def Request.body (r : Request) : List Byte := r.payload.drop 3

/-- Whether the length of a SET WRITE is the one its record kind, and its count octet, lay down (R188).
A record-kind code outside 0 to 6 passes at any length of 6 or more. -/
def Request.setWriteFits (r : Request) : Bool :=
  match r.payload with
  | [] => false
  | k :: _ =>
    match k.toNat with
    | 0 => r.length = 14
    | 1 => r.length = 10
    | 2 => 7 ≤ r.payload.length && r.length = 19 + 5 * r.octetAt 6
    | 3 => r.length = 18
    | 4 => r.length = 22
    | 5 => r.length = 10
    | 6 => 6 ≤ r.payload.length && r.length = 9 + 2 * r.octetAt 5
    | _ => 6 ≤ r.length

/-- Whether the length of a SET READ is the one its record kind lays down (R188). -/
def Request.setReadFits (r : Request) : Bool :=
  match r.payload with
  | [] => false
  | k :: _ => if k.toNat = 6 then r.length = 9 else if k.toNat < 6 then r.length = 6 else 6 ≤ r.length

/-- The row of a frame whose kind is assigned, with whether its length is allowed (R188). -/
def Request.kindRow (r : Request) : Option (RequestRow × Bool) :=
  match r.kind.toNat with
  | 0x01 =>
    some ((if r.recordKind = 5 then .soundLength else if r.recordKind = 6 then .soundSamples
      else .setWrite), r.setWriteFits)
  | 0x02 => some (.setRead, r.setReadFits)
  | 0x03 => some (.setDigest, r.length = 4)
  | 0x04 => some (.enterShow, r.length = 3)
  | 0x05 => some (.enterSetup, r.length = 3)
  | 0x06 => some (.restart, r.length = 3)
  | 0x07 => some (.goSong, r.length = 6)
  | 0x08 => some (.goScene, r.length = 5)
  | 0x09 => some (.goNext, r.length = 4)
  | 0x0A => some (.goPrev, r.length = 4)
  | 0x0B => some (.cancel, r.length = 3)
  | 0x0C => some (.freeze, r.length = 3)
  | 0x0D => some (.thaw, r.length = 3)
  | 0x0E => some (.step, r.length = 3)
  | 0x0F => some (.tempoSource, r.length = 6)
  | 0x10 => some (.tempoSet, r.length = 5)
  | 0x11 => some (.trim, r.length = 5)
  | 0x12 => some (.tap, r.length = 3)
  | 0x13 => some (.beatMark, r.length = 4)
  | 0x14 => some (.outputEnable, r.length = 4)
  | 0x15 => some (.criticalLevel, r.length = 5)
  | 0x16 => some (.panic, r.length = 3)
  | 0x17 => some (.clickLevel, r.length = 5)
  | 0x18 => some (.clickMute, r.length = 4)
  | 0x19 => some (.counterSet, r.length = 10)
  | 0x1A => some (.counterRead, r.length = 4)
  | 0x1B => some (.captureArm, r.length = 6)
  | 0x1C => some (.captureRead, r.length = 4)
  | 0x1D => some (.status, r.length = 3)
  | 0x1E => some (.subscribe, r.length = 5)
  | _ => none

/-- The checks of R163 in order: an impossible length is LENGTH; an unassigned kind, or BEAT MARK at the
panel port, is UNKNOWN; a length not allowed for the kind is LENGTH; otherwise the row that owns it. -/
def classify (p : Port) (r : Request) : RequestRow :=
  if r.length < 3 || 64 < r.length then .turnedAway .length
  else match r.kindRow with
    | none => .turnedAway .unknown
    | some (row, fits) =>
      if row = .beatMark && p = .panelPort then .turnedAway .unknown
      else if fits then row else .turnedAway .length

/-- The request that the inbound octets of a transfer spell, when they arrived whole (R161); none when
fewer arrived than the frame needs. `octets` begins with a length octet that is not 0. -/
def inboundRequest (octets : List Byte) : Option Request :=
  let L := fieldLE octets 0 1
  if 3 ≤ L && L ≤ 64 then
    if L ≤ octets.length then
      some ⟨L, octets.getD 1 0, octets.getD 2 0, (octets.drop 3).take (L - 3), none⟩
    else none
  else if 3 ≤ octets.length then some ⟨L, octets.getD 1 0, octets.getD 2 0, [], none⟩
  else none

/-! ### Enumerated octets (R188) -/

/-- A quantize octet of a scene request: 0 names none; an unassigned code gives none outside. -/
def decodeQuantize : Nat → Option (Option Quantize)
  | 0 => some none
  | 1 => some (some .immediate)
  | 2 => some (some .beat)
  | 3 => some (some .bar)
  | _ => none

/-- A quantize code of a scene record (R189). -/
def decodeRecordQuantize : Nat → Option Quantize
  | 0 => some .immediate
  | 1 => some .beat
  | 2 => some .bar
  | _ => none

/-- A pulse count per beat. -/
def decodeRate : Nat → Option PulseRate
  | 1 => some .one
  | 2 => some .two
  | 4 => some .four
  | 24 => some .twentyFour
  | _ => none

/-- A counter select: 0 is NONE; an unassigned code gives none outside. -/
def decodeSelect : Nat → Option (Option CounterEvent)
  | 0 => some none
  | 1 => some (some .framingErrors)
  | 2 => some (some .routedNoteOns)
  | 3 => some (some .voidRoutes)
  | 4 => some (some .tableFullDrops)
  | 5 => some (some .legsSent)
  | 6 => some (some .queueDiscards)
  | 7 => some (some .coalesced)
  | 8 => some (some .outOfRangeKeys)
  | 9 => some (some .fanOutClipped)
  | 10 => some (some .staleProgramNotes)
  | 11 => some (some .referenceOutliers)
  | 12 => some (some .sceneTakes)
  | 13 => some (some .barSlips)
  | _ => none

/-- A source kind and its parameter octet (R129). For INTERNAL and MARK the parameter is laid down as 0;
whether another value there is refused is not stated (`Config.sourceParameterChecked`). -/
def decodeSource (kind parameter : Nat) : Option Source :=
  match kind with
  | 0 => if parameter ≠ 0 ∧ Config.sourceParameterChecked = true then none else some .internal
  | 1 => if h : parameter < 4 then some (.clock ⟨parameter, h⟩) else none
  | 2 => (decodeRate parameter).map .sync
  | 3 => if parameter ≠ 0 ∧ Config.sourceParameterChecked = true then none else some .mark
  | _ => none

/-! ### Record bodies (R10 step 2, R189, R190) -/

/-- The header fields within their ranges (R2). -/
def Header.inRange (h : Header) : Bool :=
  h.setlistLength ≤ 64 && h.spillLimit ≤ 30000 && h.sustainController ≤ 127 &&
    (match h.songSelect with
      | none => true
      | some c => 1 ≤ c && c ≤ 16) && h.followShift ≤ 4

/-- The song fields within their ranges (R3). -/
def Song.inRange (r : Song) : Bool :=
  r.firstScene ≤ 255 && 1 ≤ r.sceneCount && r.sceneCount ≤ 16 && r.countInBars ≤ 2

/-- The scene fields within their ranges (R4). -/
def Scene.inRange (r : Scene) : Bool :=
  r.layerFirst ≤ 1023 && r.layerCount ≤ 64 && r.settings.length ≤ 8 &&
    (match r.tempo with
      | none => true
      | some t => 2000 ≤ t && t ≤ 30000) &&
    64 ≤ r.ratio && r.ratio ≤ 1024 && 1 ≤ r.meter && r.meter ≤ 15

/-- The layer fields within their ranges, key low not above key high and velocity low not above velocity
high (R5, R10). -/
def Layer.inRange (r : Layer) : Bool :=
  1 ≤ r.sourceChannel && r.sourceChannel ≤ 16 && r.keyHigh ≤ 127 && r.keyLow ≤ r.keyHigh &&
    1 ≤ r.velocityLow && r.velocityLow ≤ r.velocityHigh && r.velocityHigh ≤ 127 &&
    1 ≤ r.destChannel && r.destChannel ≤ 16 && -48 ≤ r.transpose && r.transpose ≤ 48 &&
    r.scale ≤ 127 && -63 ≤ r.offset && r.offset ≤ 63

/-- The pattern fields within their ranges (R6). -/
def Pattern.inRange (r : Pattern) : Bool :=
  [1, 2, 3, 4, 6, 8].contains r.division && 1 ≤ r.levels.length && r.levels.length ≤ 15 &&
    r.accent.gain ≤ 32767 && r.normal.gain ≤ 32767 && r.subdivision.gain ≤ 32767 &&
    r.countIn.gain ≤ 32767

/-- An optional number whose absent code is 0. -/
def absentZero (v : Nat) : Option Nat := if v = 0 then none else some v

/-- The header that a body spells, when its fields are in range. -/
def decodeHeader (body : List Byte) : Option Header :=
  let w0 := fieldLE body 0 4
  let w1 := fieldLE body 4 4
  let h : Header :=
    { setlistLength := bitField w0 0 7
      lead := if bitField w0 7 1 = 0 then .panelSide else .showSide
      spillLimit := bitField w0 8 15
      sustainController := bitField w0 23 7
      songSelect := absentZero (bitField w1 0 5)
      followShift := bitField w1 5 3 }
  if h.inRange then some h else none

/-- The song record that a body spells, when its fields are in range. -/
def decodeSong (body : List Byte) : Option Song :=
  let w := fieldLE body 0 4
  let r : Song :=
    { firstScene := bitField w 0 8, sceneCount := bitField w 8 5, countInBars := bitField w 13 2,
      tag := BitVec.ofNat 16 (bitField w 16 16) }
  if r.inRange then some r else none

/-- A channel number 1 to 16. -/
def decodeChan (v : Nat) : Option Chan :=
  if h : 1 ≤ v ∧ v ≤ 16 then some ⟨v - 1, by omega⟩ else none

/-- An optional channel, 0 for absent; a number above 16 gives none outside. -/
def decodeOptChan (v : Nat) : Option (Option Chan) :=
  if v = 0 then some none else (decodeChan v).map some

/-- A program setting of the packed scene form, from its five octets (R189). -/
def decodeSetting (octets : List Byte) : Option Setting :=
  let head := fieldLE octets 0 1
  let bank := fieldLE octets 3 2
  let program := fieldLE octets 2 1
  if ho : bitField head 0 3 < 6 then
    if hp : program < 128 then
      match decodeChan (fieldLE octets 1 1), decodeOptChan (bitField head 3 5) with
      | some c, some alt =>
        some { output := ⟨bitField head 0 3, ho⟩, channel := c,
               program := ⟨⟨program, hp⟩,
                 if bitField bank 15 1 = 1 then some (Fin.ofNat 16384 (bitField bank 0 14)) else none⟩,
               alternate := alt }
      | _, _ => none
    else none
  else none

/-- `n` settings of the packed scene form. -/
def decodeSettings : Nat → List Byte → Option (List Setting)
  | 0, _ => some []
  | n + 1, octets =>
    match decodeSetting (octets.take 5), decodeSettings n (octets.drop 5) with
    | some t, some ts => some (t :: ts)
    | _, _ => none

/-- The scene record that a packed body spells, when its fields are in range. -/
def decodeScene (body : List Byte) : Option Scene :=
  let n := fieldLE body 3 1
  let pattern := fieldLE body 9 1
  if hp : pattern < 16 then
    match decodeSettings n (body.drop 13), decodeRecordQuantize (fieldLE body 10 1) with
    | some settings, some q =>
      let r : Scene :=
        { layerFirst := fieldLE body 0 2, layerCount := fieldLE body 2 1, settings := settings,
          tempo := absentZero (fieldLE body 4 2), ratio := fieldLE body 6 2,
          meter := fieldLE body 8 1, pattern := ⟨pattern, hp⟩, quantize := q,
          echo := BitVec.ofNat 4 (fieldLE body 11 1), cueTag := octet (fieldLE body 12 1) }
      if r.inRange then some r else none
    | _, _ => none
  else none

/-- An action code of a layer entry: two bits, all assigned. -/
def decodeAction : Nat → Action
  | 0 => .route
  | 1 => .next
  | 2 => .prev
  | _ => .tap

/-- The layer entry that a body spells, when its fields are in range. -/
def decodeLayer (body : List Byte) : Option Layer :=
  let w0 := fieldLE body 0 4
  let w1 := fieldLE body 4 4
  let w2 := fieldLE body 8 4
  let r : Layer :=
    { inputs := BitVec.ofNat 4 (bitField w0 0 4), sourceChannel := bitField w0 4 5,
      keyLow := bitField w0 9 7, keyHigh := bitField w0 16 7,
      action := decodeAction (bitField w0 23 2), passContinuous := bitField w0 25 1 = 1,
      velocityLow := bitField w1 0 7, velocityHigh := bitField w1 7 7,
      outputs := BitVec.ofNat 6 (bitField w1 14 6), destChannel := bitField w1 20 5,
      transpose := signedField (bitField w2 0 8) 8, scale := bitField w2 8 7,
      offset := signedField (bitField w2 15 7) 7, cueTag := octet (bitField w2 22 8) }
  if r.inRange then some r else none

/-- A level code; 0 and codes outside the field are unassigned. -/
def decodeLevel : Nat → Option Level
  | 1 => some .silent
  | 2 => some .normal
  | 3 => some .accent
  | _ => none

/-- The first `n` levels of a level word, from level `j` on. -/
def decodeLevels : Nat → Nat → Nat → Option (List Level)
  | 0, _, _ => some []
  | n + 1, j, w =>
    match decodeLevel (bitField w (2 * j) 2), decodeLevels n (j + 1) w with
    | some l, some ls => some (l :: ls)
    | _, _ => none

/-- The click pattern that a body spells, when its fields are in range. -/
def decodePattern (body : List Byte) : Option Pattern :=
  let w0 := fieldLE body 0 4
  let w2 := fieldLE body 8 4
  let w3 := fieldLE body 12 4
  match decodeLevels (bitField w0 4 4) 0 (fieldLE body 4 4) with
  | none => none
  | some levels =>
    let r : Pattern :=
      { division := bitField w0 0 4, levels := levels,
        accent := ⟨Fin.ofNat 4 (bitField w0 8 2), bitField w0 16 15⟩,
        normal := ⟨Fin.ofNat 4 (bitField w0 10 2), bitField w2 0 15⟩,
        subdivision := ⟨Fin.ofNat 4 (bitField w0 12 2), bitField w2 16 15⟩,
        countIn := ⟨Fin.ofNat 4 (bitField w0 14 2), bitField w3 0 15⟩ }
    if r.inRange then some r else none

/-- The length that a click-sound length body spells, when it is in range (R13, R189). -/
def decodeSoundLength (body : List Byte) : Option Nat :=
  let len := bitField (fieldLE body 0 4) 0 13
  if len ≤ Config.samplePlaces then some len else none

/-- An offset and a count that name sample places of one sound (R13, R14). -/
def samplesFit (offset count : Nat) : Bool :=
  1 ≤ count && count ≤ 24 && offset ≤ 4095 && offset + count ≤ Config.samplePlaces

/-- `n` samples of two octets each. -/
def decodeSamples : Nat → List Byte → List (BitVec 16)
  | 0, _ => []
  | n + 1, octets => BitVec.ofNat 16 (fieldLE octets 0 2) :: decodeSamples n (octets.drop 2)

/-- A number of a table of `n` items. -/
def decodeIndex (n : Nat) (v : Nat) : Option (Fin n) := if h : v < n then some ⟨v, h⟩ else none

end Sys2Proof.Machine
end

