-- ==== Sys2Proof/Machine/State.lean ====
section
/-! DEFINITION. The state of the UZ-2416 as plain data, the reasons a step can stop, and the state after
pin reset. -/
namespace Sys2Proof.Machine

/-- The whole part (00_scope.md, Table 2), its stage time and lines, and the queue of commands that
wait, first in first out. -/
structure State where
  mem : SetMemory
  rig : Rig
  inputs : Vector Deframer 4
  router : Router
  scene : SceneEngine
  tempo : Tempo
  click : ClickGen
  time : StageTime
  pins : Pins
  pending : List Instr
deriving DecidableEq, Repr

/-- The faults of a step. The spec gives the UZ-2416 none: an event the part cannot act on is answered
with a status, counted, discarded or ignored, and no rule stops the part. So nothing raises a fault and
the type has no constructor (log entry 2). -/
inductive Fault : Type
deriving DecidableEq, Repr

/-- The refusals of a step. -/
inductive Refusal where
  /-- The command has no meaning in this model. Raised only by a refused arm of `exec`, of which there
  is none; safe, since a refused step proves nothing about the part. -/
  | notModelled (mnemonic : String)
deriving DecidableEq, Repr

/-- The part right after pin reset (R185): every block at its pin-reset values, stage time 0, no command
waiting. -/
def State.reset : State :=
  { mem := SetMemory.pinReset, rig := Rig.pinReset, inputs := Vector.replicate 4 Deframer.clear,
    router := Router.clear, scene := SceneEngine.pinReset, tempo := Tempo.pinReset,
    click := ClickGen.pinReset, time := 0, pins := Pins.atRest, pending := [] }

end Sys2Proof.Machine
end

