-- ==== Sys2Proof/Machine/Ops.lean ====
section
/-! DEFINITION. The shared operations of the desk (ports, counters, capture list) and of State: admitting
responses and notices (chapter 9), taking reports (chapter 10), and the setters every command uses. -/
namespace Sys2Proof.Machine

/-! ### One port (chapter 9) -/

/-- The frames held by a port: the outbound queue together with the request queue (R165). -/
def PortState.framesHeld (x : PortState) : Nat := x.outbound.length + x.requests.length

/-- The attention line of a port, asserted while the outbound queue is not empty (R169). -/
def PortState.attention (x : PortState) : Bool := !x.outbound.isEmpty

/-- Whether the head of the outbound queue is the outbound frame of a transfer in progress (R159). -/
def PortState.headOnLine (x : PortState) : Bool :=
  match x.transfer with
  | .inTransfer _ .queuedFrame => true
  | _ => false

/-- The frames of the outbound queue that wait: all but one being shifted out (R166). -/
def PortState.waiting (x : PortState) : List Frame :=
  if x.headOnLine then x.outbound.drop 1 else x.outbound

/-- The frame being shifted out, as a list of none or one. -/
def PortState.shifting (x : PortState) : List Frame :=
  if x.headOnLine then x.outbound.take 1 else []

/-- Whether a notice passes the port's subscription: a directed notice always does (R167, R168). -/
def PortState.subscribed (x : PortState) (n : Notice) : Bool :=
  match n.mark with
  | none => true
  | some k => x.marks.getLsbD k

/-- `n` takes the place of every waiting POSITION (there is at most one) (R166). -/
def replacePosition (n : Notice) (fs : List Frame) : List Frame :=
  fs.map fun f => if f.isPosition then .notice n else f

/-- A notice is admitted at the end of the queue while fewer than 12 frames are held, and is otherwise
dropped and the lost-notice flag set (R165). -/
def PortState.admitNotice (x : PortState) (n : Notice) : PortState :=
  if x.framesHeld < Config.noticeLimit then { x with outbound := x.outbound ++ [.notice n] }
  else { x with lostNotice := true }

/-- A notice is offered to a port: passed over when it is not subscribed, coalesced when it is a POSITION
and one waits, otherwise judged for admission (R165 to R168). -/
def PortState.offer (x : PortState) (n : Notice) : PortState :=
  if x.subscribed n then
    if (Frame.notice n).isPosition && x.waiting.any Frame.isPosition then
      { x with outbound := x.shifting ++ replacePosition n x.waiting }
    else x.admitNotice n
  else x

/-- A response is always admitted (R165). -/
def PortState.respond (x : PortState) (r : Request) (st : Status) (payload : List Byte) : PortState :=
  { x with outbound := x.outbound ++ [.response (responseKind r.kind) r.tag st payload] }

/-- The oldest request is answered: its response is admitted, it leaves the request queue, and the next
request begins to be handled at stage time `now` (R163, R164). -/
def PortState.answer (x : PortState) (now : StageTime) (st : Status) (payload : List Byte) : PortState :=
  match x.requests with
  | [] => x
  | r :: rest => { x.respond r st payload with requests := rest, handledSince := now }

/-! ### The desk -/

/-- The state of port `p`. -/
def Desk.port (d : Desk) : Port → PortState
  | .panelPort => d.panelPort
  | .showPort => d.showPort

/-- Port `p` takes the state `x`. -/
def Desk.setPort (d : Desk) (p : Port) (x : PortState) : Desk :=
  match p with
  | .panelPort => { d with panelPort := x }
  | .showPort => { d with showPort := x }

/-- A notice is raised for port `p`. -/
def Desk.raiseAt (d : Desk) (p : Port) (n : Notice) : Desk := d.setPort p ((d.port p).offer n)

/-- A notice is raised once for each port and judged at each (R165, R170). -/
def Desk.raise (d : Desk) (n : Notice) : Desk := (d.raiseAt .panelPort n).raiseAt .showPort n

/-- A directed notice about a change goes to the port of its origin; that of a CUE change to the panel
port and that of a MODE change to both (R99). -/
def Desk.raiseFor (d : Desk) (origin : Origin) (n : Notice) : Desk :=
  match origin with
  | .panelSide => d.raiseAt .panelPort n
  | .showSide => d.raiseAt .showPort n
  | .cue => d.raiseAt .panelPort n
  | .modeChange => d.raise n

/-- Whether a counter accepts a report of event `ev` that names port `named` (R175); bit i of the mask is port i
(DESIGN CHOICE, log entry 40). -/
def Counter.accepts (k : Counter) (ev : CounterEvent) (named : Nat) : Bool :=
  k.select = some ev && (ev.portCount = 0 || k.ports.getLsbD named)

/-- A counter that has accepted a report: the value rises by one and wraps; reaching the threshold sets
the reached mark (R175). -/
def Counter.bump (k : Counter) : Counter :=
  let v := k.value + 1
  { k with value := v, reachedMark := k.reachedMark || (k.threshold ≠ 0 && v = k.threshold) }

/-- Counter `i` takes a report, and sends a COUNTER notice when it newly reaches its threshold (R175). -/
def Desk.count (d : Desk) (ev : CounterEvent) (named : Nat) (i : Fin 4) : Desk :=
  let k := d.counters[i]
  if k.accepts ev named then
    let d' := { d with counters := d.counters.set i k.bump }
    if k.bump.reachedMark && !k.reachedMark then d'.raise (.counter i ev k.bump.value) else d'
  else d

/-- A report of a counter event is taken by every counter that accepts it (R175). `named` is the number
of the port the report names, 0 for an event that names none. R175 does not order the COUNTER notices that
one report brings about at several counters; the model takes counters 0 to 3 in order (DESIGN CHOICE, log
entry 35). -/
def Desk.report (d : Desk) (ev : CounterEvent) (named : Nat) : Desk :=
  (((d.count ev named 0).count ev named 1).count ev named 2).count ev named 3

/-- A capture report reaches the list (R178): an ARMED list writes a record of a selected kind at the
capture index, and an index that reaches 32 makes it FULL and sends CAPTURE FULL. -/
def Desk.record (d : Desk) (rec : CaptureRecord) : Desk :=
  let l := d.capture
  if l.state = .armed && l.kinds.getLsbD rec.kind.bit then
    if h : l.index < 32 then
      let l' : Capture :=
        { l with places := l.places.set l.index (some rec), index := l.index + 1
                 state := if l.index + 1 = Config.capturePlaces then .full else .armed }
      let d' := { d with capture := l' }
      if l'.state = .full then d'.raise (.captureFull l.kinds) else d'
    else d
  else d

/-- A capture record with every field at its empty value but the stage time and the kind (R177). -/
def emptyRecord (now : StageTime) (kind : CaptureKind) : CaptureRecord :=
  { time := now, kind := kind, origin := none, output := none, song := none, scene := none,
    generation := none, channel := none, detail := none, cueTag := 0 }

/-! ### Setters and views of State -/

/-- The instrument side takes the value `x`. -/
def State.setRig (s : State) (x : Rig) : State := { s with rig := x }
/-- The set memory takes the value `x`. -/
def State.setMem (s : State) (x : SetMemory) : State := { s with mem := x }
/-- The deframers take the value `x`. -/
def State.setInputs (s : State) (x : Vector Deframer 4) : State := { s with inputs := x }
/-- The Layer Router takes the value `x`. -/
def State.setRouter (s : State) (x : Router) : State := { s with router := x }
/-- The Scene Engine takes the value `x`. -/
def State.setScene (s : State) (x : SceneEngine) : State := { s with scene := x }
/-- The Tempo Engine takes the value `x`. -/
def State.setTempo (s : State) (x : Tempo) : State := { s with tempo := x }
/-- The Click Generator takes the value `x`. -/
def State.setClick (s : State) (x : ClickGen) : State := { s with click := x }
/-- Stage time takes the value `x`. -/
def State.setTime (s : State) (x : StageTime) : State := { s with time := x }
/-- The sampled lines take the value `x`. -/
def State.setPins (s : State) (x : Pins) : State := { s with pins := x }

/-- The desk takes the value `x`. -/
def Rig.setDesk (r : Rig) (x : Desk) : Rig := { r with desk := x }
/-- The desk of the part. -/
def State.desk (s : State) : Desk := s.rig.desk
/-- The desk of the part takes the value `x`. -/
def State.setDesk (s : State) (x : Desk) : State := s.setRig (s.rig.setDesk x)
/-- The state of port `p`. -/
def State.port (s : State) (p : Port) : PortState := s.desk.port p
/-- Port `p` takes the state `x`. -/
def State.setPort (s : State) (p : Port) (x : PortState) : State := s.setDesk (s.desk.setPort p x)

/-- A notice is raised for both ports. -/
def State.raise (s : State) (n : Notice) : State := s.setDesk (s.desk.raise n)
/-- A directed notice is raised for the ports of an origin. -/
def State.raiseFor (s : State) (origin : Origin) (n : Notice) : State :=
  s.setDesk (s.desk.raiseFor origin n)
/-- A report is made to the stage counters. -/
def State.report (s : State) (ev : CounterEvent) (named : Nat) : State :=
  s.setDesk (s.desk.report ev named)
/-- A record is reported to the capture list. -/
def State.record (s : State) (rec : CaptureRecord) : State := s.setDesk (s.desk.record rec)
/-- The oldest request of port `p` is answered. -/
def State.answer (s : State) (p : Port) (st : Status) (payload : List Byte) : State :=
  s.setPort p ((s.port p).answer s.time st payload)

/-- The origin of a scene request from port `p`. -/
def portOrigin : Port → Origin
  | .panelPort => .panelSide
  | .showPort => .showSide

/-! ### When the part takes events -/

/-- The part takes events while the reset pin is not held and the crystal runs (R185, R186). -/
def State.live (s : State) : Bool := !s.pins.resetHeld && s.pins.crystalPresent

/-- The attention line of port `p`, released while the reset pin is held low (R169, R185). -/
def State.attention (s : State) (p : Port) : Bool := !s.pins.resetHeld && (s.port p).attention

/-- A command of an event that the part takes only while it is live: an event that falls while the reset
pin is held or the crystal is absent is lost and changes nothing (R185, R186). -/
def whenLive (f : State → State) (s : State) : Host.Outcome State Fault Refusal :=
  .next (if s.live then f s else s)

end Sys2Proof.Machine
end

