-- ==== Sys2Proof/Machine/Flags.lean ====
section
/-! DEFINITION. Views and setters of the instrument side, and the overflow and critical flags of an output
with the notices they send (R36, R37). -/
namespace Sys2Proof.Machine

/-- Stage time and current generation: what an operation of the instrument side reads of the rest of the
part. -/
structure Moment where
  now : StageTime
  generation : Generation
deriving DecidableEq, Repr

/-- The moment at which a command is taken. -/
def State.moment (s : State) : Moment := ⟨s.time, s.scene.generation⟩

/-- The place of record (o, c). -/
def recordPlace (o : Output) (c : Chan) : Fin 96 := ⟨16 * o.val + c.val, by omega⟩

/-- The place of the pedal of input `n` and channel `c`. -/
def pedalPlace (n : Input) (c : Chan) : Fin 64 := ⟨16 * n.val + c.val, by omega⟩

/-- Output `o`. -/
def Rig.out (r : Rig) (o : Output) : OutPort := r.outputs[o]
/-- Output `o` takes the state `x`. -/
def Rig.setOut (r : Rig) (o : Output) (x : OutPort) : Rig := { r with outputs := r.outputs.set o x }
/-- Destination-channel record (o, c). -/
def Rig.chan (r : Rig) (o : Output) (c : Chan) : ChanRec := r.records[recordPlace o c]
/-- Record (o, c) takes the value `x`. -/
def Rig.setChan (r : Rig) (o : Output) (c : Chan) (x : ChanRec) : Rig :=
  { r with records := r.records.set (recordPlace o c) x }
/-- The pedal of input `n` and channel `c`: set is DOWN. -/
def Rig.pedal (r : Rig) (n : Input) (c : Chan) : Bool := r.pedals[pedalPlace n c]
/-- The pedal of input `n` and channel `c` takes the value `x`. -/
def Rig.setPedal (r : Rig) (n : Input) (c : Chan) (x : Bool) : Rig :=
  { r with pedals := r.pedals.set (pedalPlace n c) x }
/-- The active-note table takes the value `x`. -/
def Rig.setTable (r : Rig) (x : List Entry) : Rig := { r with table := x }
/-- A notice is raised for both ports. -/
def Rig.raise (r : Rig) (n : Notice) : Rig := r.setDesk (r.desk.raise n)
/-- A report is made to the stage counters. -/
def Rig.report (r : Rig) (ev : CounterEvent) (named : Nat) : Rig := r.setDesk (r.desk.report ev named)
/-- A record is reported to the capture list. -/
def Rig.record (r : Rig) (rec : CaptureRecord) : Rig := r.setDesk (r.desk.record rec)

/-- A discard or a panic-owed mark on output `o` acts on its overflow flag: a clear flag is raised, and a
QUEUE notice with cause OVERFLOW carries the urgent queue length (R36). -/
def Rig.raiseOverflow (r : Rig) (o : Output) : Rig :=
  if (r.out o).overflow then r
  else (r.setOut o { r.out o with overflow := true }).raise (.queueOverflow o (r.out o).urgent.length)

/-- After an append, an urgent length above the critical level raises a clear critical flag, and a QUEUE
notice with cause CRITICAL goes to both ports (R37). -/
def Rig.raiseCritical (r : Rig) (o : Output) : Rig :=
  let q := r.out o
  if q.level < q.urgent.length && !q.critical then
    (r.setOut o { q with critical := true }).raise (.queueCritical o q.urgent.length q.level)
  else r

/-- After a completed transmission or a purge: the critical flag clears when the urgent length is at or
below the critical level, the overflow flag when the urgent queue is empty (R36, R37). -/
def OutPort.clearFlags (q : OutPort) : OutPort :=
  { q with critical := q.critical && q.level < q.urgent.length
           overflow := q.overflow && !q.urgent.isEmpty }

/-- A note-on of channel `c` discarded or refused on output `o`: counted, captured, and the overflow flag
acted on (R32). -/
def Rig.reportDiscard (r : Rig) (m : Moment) (o : Output) (c : Chan) : Rig :=
  ((r.report .queueDiscards o.val).record
    { emptyRecord m.now .queueOverflow with output := some o, channel := some c }).raiseOverflow o

end Sys2Proof.Machine
end

