-- ==== Sys2Proof/Machine/Outputs.lean ====
section
/-! DEFINITION. The output queues (chapter 2): transmission, the offers to the urgent and bulk queues and
their full-queue rules, purges, settlement (R29 to R40). -/
namespace Sys2Proof.Machine

/-! ### The urgent queue -/

/-- Whether an urgent event is a note-on. -/
def Urgent.isNoteOn : Urgent → Bool
  | .noteOn .. => true
  | _ => false

/-- Whether the head of the urgent queue is on the line. -/
def OutPort.urgentOnLine (q : OutPort) : Bool :=
  match q.transmit with
  | .sending .urgent _ => true
  | _ => false

/-- Whether the head of the bulk queue is on the line. -/
def OutPort.bulkOnLine (q : OutPort) : Bool :=
  match q.transmit with
  | .sending .bulk _ => true
  | _ => false

/-- Number of note-ons of the urgent queue. -/
def OutPort.noteOns (q : OutPort) : Nat := (q.urgent.filter Urgent.isNoteOn).length

/-- An idle output with a queued event begins the head of the urgent queue, or else the head of the bulk
queue; a note-on that begins is reported as LEGS SENT (R31). -/
def Rig.startLine (r : Rig) (m : Moment) (o : Output) : Rig :=
  let q := r.out o
  match q.transmit with
  | .sending _ _ => r
  | .idle =>
    match q.urgent, q.bulk with
    | e :: _, _ =>
      let r' := r.setOut o
        { q with transmit := .sending .urgent (after m.now (Config.octetMicros * e.octets.length)) }
      if e.isNoteOn then r'.report .legsSent o.val else r'
    | [], b :: _ =>
      r.setOut o
        { q with transmit := .sending .bulk (after m.now (Config.octetMicros * b.octets.length)) }
    | [], [] => r

/-- A PROGRAM appended for a channel removes that channel's held program (R30). -/
def Rig.dropHeld (r : Rig) (o : Output) (e : Urgent) : Rig :=
  match e with
  | .program c _ _ => r.setChan o c { r.chan o c with held := none }
  | _ => r

/-- An urgent event is appended to the queue of output `o` (R31, R37). -/
def Rig.append (r : Rig) (m : Moment) (o : Output) (e : Urgent) : Rig :=
  let q := r.out o
  (((r.setOut o { q with urgent := q.urgent ++ [e] }).dropHeld o e).raiseCritical o).startLine m o

/-- The first note-on of a list of urgent events: its channel, its leg, and the list without it. -/
def takeNoteOn : List Urgent → Option (Chan × Nat × List Urgent)
  | [] => none
  | .noteOn c _ _ leg :: rest => some (c, leg, rest)
  | e :: rest => (takeNoteOn rest).map fun x => (x.1, x.2.1, e :: x.2.2)

/-- The oldest discardable note-on of an output: any queued note-on except the one on the line (R32). -/
def OutPort.discardable (q : OutPort) : Option (Chan × Nat × List Urgent) :=
  if q.urgentOnLine then
    (takeNoteOn (q.urgent.drop 1)).map fun x => (x.1, x.2.1, q.urgent.take 1 ++ x.2.2)
  else takeNoteOn q.urgent

/-- What became of an offered urgent event: whether it was appended, and the leg of the note-on that was
discarded for it. -/
structure Offer where
  rig : Rig
  appended : Bool
  discarded : Option Nat
deriving DecidableEq, Repr

/-- The full-queue case: the oldest discardable note-on is removed and the event appended, which leaves
the length as it was; with none to remove, `refuse` says what becomes of the event (R32, R33, R34). -/
def Rig.replace (r : Rig) (m : Moment) (o : Output) (e : Urgent) (refuse : Rig → Rig) : Offer :=
  match (r.out o).discardable with
  | none => ⟨refuse r, false, none⟩
  | some (c, leg, rest) =>
    ⟨(((r.setOut o { r.out o with urgent := rest ++ [e] }).dropHeld o e).reportDiscard m o c).startLine m o,
      true, some leg⟩

/-- A NOTE-ON is offered to output `o` (R32). -/
def Rig.offerNoteOn (r : Rig) (m : Moment) (o : Output) (c : Chan) (key velocity : Seven) (leg : Nat) :
    Offer :=
  let q := r.out o
  if q.enabled then
    if q.noteOns < Config.urgentNoteOns && q.urgent.length < Config.urgentSize then
      ⟨r.append m o (.noteOn c key velocity leg), true, none⟩
    else r.replace m o (.noteOn c key velocity leg) fun r => r.reportDiscard m o c
  else ⟨r, false, none⟩

/-- The panic-owed mark of record (o, c) is set or stays set, and each NOTE-OFF so refused is counted and
captured and acts on the overflow flag (R33). -/
def Rig.owe (r : Rig) (m : Moment) (o : Output) (c : Chan) : Rig :=
  (((r.setChan o c { r.chan o c with panicOwed := true }).report .queueDiscards o.val).record
    { emptyRecord m.now .panicOwed with output := some o, channel := some c }).raiseOverflow o

/-- A NOTE-OFF is offered to output `o`; a disabled output drops it (R33, R39). -/
def Rig.offerNoteOff (r : Rig) (m : Moment) (o : Output) (c : Chan) (key : Seven) : Offer :=
  let q := r.out o
  if q.enabled then
    if q.urgent.length < Config.urgentSize then ⟨r.append m o (.noteOff c key), true, none⟩
    else r.replace m o (.noteOff c key) fun r => r.owe m o c
  else ⟨r, false, none⟩

/-- An ALL-NOTES-OFF is offered to output `o`; refused while its channel is already owed it makes no
report (R33, R39). -/
def Rig.offerAllNotesOff (r : Rig) (m : Moment) (o : Output) (c : Chan) : Offer :=
  let q := r.out o
  if q.enabled then
    if q.urgent.length < Config.urgentSize then ⟨r.append m o (.allNotesOff c), true, none⟩
    else r.replace m o (.allNotesOff c) fun r => if (r.chan o c).panicOwed then r else r.owe m o c
  else ⟨r, false, none⟩

/-- The program becomes the held program of record (o, c), replacing any there (R34). -/
def Rig.hold (r : Rig) (o : Output) (c : Chan) (p : Program) : Rig :=
  r.setChan o c { r.chan o c with held := some p }

/-- A PROGRAM is offered to output `o`; a full queue with nothing to discard, or a disabled output, holds
it (R34). -/
def Rig.offerProgram (r : Rig) (m : Moment) (o : Output) (c : Chan) (p : Program) : Offer :=
  let q := r.out o
  if q.enabled then
    if q.urgent.length < Config.urgentSize then ⟨r.append m o (.program c p false), true, none⟩
    else r.replace m o (.program c p false) fun r => r.hold o c p
  else ⟨r.hold o c p, false, none⟩

/-! ### The bulk queue (R38) -/

/-- Whether two continuous events have the same identity. -/
def BulkPlace.sameAs (b : BulkPlace) (kind : ContinuousKind) (c : Chan) : Bool :=
  b.kind = kind && b.channel = c

/-- The place with an identity takes a new value and keeps its position. -/
def coalesceValue (kind : ContinuousKind) (c : Chan) (v : Fourteen) (bs : List BulkPlace) : List BulkPlace :=
  bs.map fun b => if b.sameAs kind c then { b with value := v } else b

/-- The bulk places that wait behind the one on the line. -/
def OutPort.bulkWaiting (q : OutPort) : List BulkPlace :=
  if q.bulkOnLine then q.bulk.drop 1 else q.bulk

/-- The bulk place on the line, as a list of none or one. -/
def OutPort.bulkSending (q : OutPort) : List BulkPlace := if q.bulkOnLine then q.bulk.take 1 else []

/-- A continuous event is offered to output `o` (R38). -/
def Rig.offerBulk (r : Rig) (m : Moment) (o : Output) (kind : ContinuousKind) (c : Chan) (v : Fourteen) :
    Rig :=
  let q := r.out o
  if q.enabled then
    if q.bulkWaiting.any (·.sameAs kind c) then
      (r.setOut o { q with bulk := q.bulkSending ++ coalesceValue kind c v q.bulkWaiting }).report
        .coalesced o.val
    else if q.bulkSending.any (·.sameAs kind c) then
      (r.setOut o
        { q with bulk := q.bulkSending.map (fun b => { b with followUp := some v }) ++ q.bulkWaiting }).report
        .coalesced o.val
    else if q.bulk.length < Config.bulkSize then
      (r.setOut o { q with bulk := q.bulk ++ [⟨kind, c, v, none⟩] }).startLine m o
    else
      ((r.setOut o
        { q with bulk := q.bulkSending ++ q.bulkWaiting.drop 1 ++ [⟨kind, c, v, none⟩] }).report
        .queueDiscards o.val).startLine m o
  else r

/-! ### Purges (R39, R40, R41) -/

/-- Both queues of an output are emptied but for the event on the line, which loses its follow-up value so
that its place is removed when it completes. DESIGN CHOICE (log entry 37): R40 removes the place "together with
any follow-up value it holds", and the spec leaves open a value offered after the purge while that event is
still on the line; the model takes it as a follow-up value of R38, and the place stays. -/
def OutPort.purge (q : OutPort) : OutPort :=
  { q with urgent := if q.urgentOnLine then q.urgent.take 1 else []
           bulk := (if q.bulkOnLine then q.bulk.take 1 else []).map fun b => { b with followUp := none } }

/-- The urgent events that a purge removes. -/
def OutPort.purged (q : OutPort) : List Urgent := if q.urgentOnLine then q.urgent.drop 1 else q.urgent

/-- A purged PROGRAM becomes the held program of its record unless the record already has one (R39). -/
def Rig.holdPurged (r : Rig) (o : Output) (e : Urgent) : Rig :=
  match e with
  | .program c p _ => if (r.chan o c).held.isSome then r else r.hold o c p
  | _ => r

/-- An enabled output becomes disabled (R39). Purged programs are held newest first, since the one decided
later stands. -/
def Rig.disable (r : Rig) (o : Output) : Rig :=
  let q := r.out o
  q.purged.reverse.foldl (fun r e => r.holdPurged o e)
    (r.setOut o { q.purge with enabled := false, overflow := false, critical := false })

/-- The sixteen channels in order. -/
def allChans : List Chan := [0, 1, 2, 3, 4, 5, 6, 7, 8, 9, 10, 11, 12, 13, 14, 15]

/-- The six outputs in order. -/
def allOutputs : List Output := [0, 1, 2, 3, 4, 5]

/-- An ALL-NOTES-OFF is appended on every channel of an enabled output (R40, R41). -/
def Rig.silence (r : Rig) (m : Moment) (o : Output) : Rig :=
  allChans.foldl (fun r c => r.append m o (.allNotesOff c)) r

end Sys2Proof.Machine
end

