-- ==== Sys2Proof/Machine/Notes.lean ====
section
/-! DEFINITION. The active-note table and the sustain pedal (chapter 4), the destination-channel records
and program spill (chapter 5), and the operations of the outputs that involve them: settlement,
transmission, panic. -/
namespace Sys2Proof.Machine

/-! ### Ages and old legs (R61) -/

/-- The age of a generation (R61). -/
def age (current g : Generation) : Nat := (current - g).toNat

/-- Whether a leg of generation `g` is old for a record: the record holds a pending program and `g` is
below the pending generation (R61). -/
def ChanRec.isOld (x : ChanRec) (current g : Generation) : Bool :=
  match x.pending with
  | none => false
  | some p => age current p.generation < age current g

/-! ### Finding and marking legs -/

/-- The leg of number `id` with the generation of its entry. -/
def findLeg (table : List Entry) (id : Nat) : Option (Generation × Leg) :=
  match table with
  | [] => none
  | e :: rest =>
    match e.legs.find? (fun l => l.id = id) with
    | some l => some (e.generation, l)
    | none => findLeg rest id

/-- The leg of number `id` gets the mark `sent`. -/
def markLeg (table : List Entry) (id : Nat) (sent : Bool) : List Entry :=
  table.map fun e =>
    { e with legs := e.legs.map fun l => if l.id = id then { l with sent := sent } else l }

/-- The leg of number `id` leaves its entry, and an entry left without legs is removed (R60, R68). -/
def removeLeg (table : List Entry) (id : Nat) : List Entry :=
  (table.map fun e => { e with legs := e.legs.filter fun l => l.id ≠ id }).filter fun e => !e.legs.isEmpty

/-! ### Programs of a record (R80, R86) -/

/-- The current program, and the current bank when one is named, as a PROGRAM sets them (R80). -/
def ChanRec.setCurrent (x : ChanRec) (p : Program) : ChanRec :=
  { x with program := some p.number
           bank := match p.bank with
             | none => x.bank
             | some b => some b }

/-- Whether a program setting equals the current state of a record (R80). -/
def ChanRec.equals (x : ChanRec) (p : Program) : Bool :=
  x.program = some p.number && (match p.bank with
    | none => true
    | some b => x.bank = some b)

/-- The pending program, with its generation and deadline, is cleared (R79). -/
def ChanRec.clearPending (x : ChanRec) : ChanRec := { x with pending := none }

/-- A pending program is released (R86): offered, made current, cleared. With it, the leg of the note-on
discarded for it. -/
def Rig.release (r : Rig) (m : Moment) (o : Output) (c : Chan) : Rig × Option Nat :=
  match (r.chan o c).pending with
  | none => (r, none)
  | some p =>
    let off := r.offerProgram m o c p.program
    (off.rig.setChan o c ((off.rig.chan o c).setCurrent p.program).clearPending, off.discarded)

/-- A sent leg leaves the counts of record (o, c); the mark says whether this brought the old-leg count
to 0 (R65, R68). -/
def Rig.lowerCounts (r : Rig) (o : Output) (c : Chan) (old : Bool) : Rig × Bool :=
  let x := r.chan o c
  (r.setChan o c { x with sounding := x.sounding - 1, old := if old then x.old - 1 else x.old },
    old && x.old - 1 = 0)

/-- A discarded note-on is settled (R65): its leg, when it still stands and is sent, becomes unsent and
leaves the counts, and an old-leg count brought to 0 releases the pending program, whose PROGRAM may
discard another note-on. Each round but the first has used up a pending program, so `fuel` of one more
than the 96 records is enough. -/
def Rig.settleDiscard : Nat → Moment → Option Nat → Rig → Rig
  | 0, _, _, r => r
  | _ + 1, _, none, r => r
  | fuel + 1, m, some id, r =>
    match findLeg r.table id with
    | none => r
    | some (g, l) =>
      if l.sent then
        let old := (r.chan l.output l.channel).isOld m.generation g
        let x := (r.setTable (markLeg r.table id false)).lowerCounts l.output l.channel old
        if x.2 then
          let y := x.1.release m l.output l.channel
          settleDiscard fuel m y.2 y.1
        else x.1
      else r

/-- Rounds that settle every discard an offer can lead to. -/
abbrev discardFuel : Nat := 97

/-- The rig after an offer, with the note-on it discarded settled. -/
def Offer.settled (x : Offer) (m : Moment) : Rig := x.rig.settleDiscard discardFuel m x.discarded

/-- A pending program is released and what its PROGRAM discards is settled. -/
def Rig.releaseSettled (r : Rig) (m : Moment) (o : Output) (c : Chan) : Rig :=
  let y := r.release m o c
  y.1.settleDiscard discardFuel m y.2

/-! ### Ending legs and entries (R68 to R70) -/

/-- A leg ends (R68): its note-off when it is sent, its counts, the release these cause, its removal. -/
def Rig.endLeg (r : Rig) (m : Moment) (id : Nat) : Rig :=
  match findLeg r.table id with
  | none => r
  | some (g, l) =>
    let r := r.setTable (removeLeg r.table id)
    if l.sent then
      let r := (r.offerNoteOff m l.output l.channel l.key).settled m
      let x := r.lowerCounts l.output l.channel ((r.chan l.output l.channel).isOld m.generation g)
      if x.2 then x.1.releaseSettled m l.output l.channel else x.1
    else r

/-- Legs end one after another. -/
def Rig.endLegs (r : Rig) (m : Moment) (ids : List Nat) : Rig := ids.foldl (fun r id => r.endLeg m id) r

/-- The numbers of the legs of some entries, in table order and leg order. -/
def legIds (es : List Entry) : List Nat := es.flatMap fun e => e.legs.map (·.id)

/-- Whether an entry is of source (n, c, k). -/
def Entry.isFrom (e : Entry) (n : Input) (c : Chan) (k : Seven) : Bool :=
  e.input = n && e.channel = c && e.key = k

/-- A leg ends if it is still sent and old for record (o, c) (R70). -/
def Rig.endOldLeg (r : Rig) (m : Moment) (o : Output) (c : Chan) (id : Nat) : Rig :=
  match findLeg r.table id with
  | none => r
  | some (g, l) =>
    if l.sent && l.output = o && l.channel = c && (r.chan o c).isOld m.generation g then r.endLeg m id
    else r

/-- Whether an urgent event is a PROGRAM of channel `c`. -/
def Urgent.isProgramOf (c : Chan) : Urgent → Bool
  | .program d _ _ => d = c
  | _ => false

/-- A PROGRAM marked as released by a spill expiry. -/
def Urgent.byExpiry : Urgent → Urgent
  | .program c p _ => .program c p true
  | e => e

/-- The newest PROGRAM of channel `c` in a queue is marked as released by a spill expiry. -/
def markExpiry (c : Chan) : List Urgent → List Urgent
  | [] => []
  | e :: rest =>
    if rest.any (·.isProgramOf c) then e :: markExpiry c rest
    else if e.isProgramOf c then e.byExpiry :: rest
    else e :: rest

/-- The queue of output `o` with the PROGRAM of channel `c` marked as released by a spill expiry. -/
def Rig.markExpired (r : Rig) (o : Output) (c : Chan) : Rig :=
  r.setOut o { r.out o with urgent := markExpiry c (r.out o).urgent }

/-- Every sent old leg on record (o, c) ends, in table order and leg order, and the last one releases the
pending program (R70). -/
def Rig.endOldLegs (r : Rig) (m : Moment) (o : Output) (c : Chan) : Rig :=
  (legIds r.table).foldl (fun r id => r.endOldLeg m o c id) r

/-- A spill expiry of record (o, c): its sent old legs end and its pending program is released (R70, R85). A
PROGRAM that the release has queued, not held, is marked, so that a panic that purges it can offer it again
(R85; log entry 31). -/
def Rig.expireSpill (r : Rig) (m : Moment) (o : Output) (c : Chan) : Rig :=
  let t := r.endOldLegs m o c
  if (r.chan o c).pending.isSome && (t.chan o c).pending.isNone && (t.chan o c).held.isNone then
    t.markExpired o c
  else t

/-! ### Note-ons, note-offs and the pedal (R62 to R67) -/

/-- A leg as the router hands it over (R53). -/
structure LegPlan where
  output : Output
  channel : Chan
  key : Seven
  velocity : Seven
deriving DecidableEq, Repr

/-- Planned legs with numbers from `first` on, every leg unsent (R64). -/
def numberLegs : Nat → List LegPlan → List Leg
  | _, [] => []
  | first, l :: ls => ⟨first, l.output, l.channel, l.key, l.velocity, false⟩ :: numberLegs (first + 1) ls

/-- A leg becomes sent: its record gains one in its sounding count, and a record that holds a pending
program makes it a stale-program note (R64, R88). -/
def Rig.markSent (r : Rig) (l : Leg) : Rig :=
  let x := r.chan l.output l.channel
  let r := (r.setTable (markLeg r.table l.id true)).setChan l.output l.channel
    { x with sounding := x.sounding + 1 }
  if x.pending.isSome then r.report .staleProgramNotes l.output.val else r

/-- A new leg offers its NOTE-ON; a leg whose note-on is queued becomes sent, and then a note-on
discarded for it is settled (R64). DESIGN CHOICE (log entry 38): a note-on that an idle output begins at once is
reported as LEGS SENT by its offer, and so before the STALE-PROGRAM NOTES of its leg; the spec does not order
the two reports. -/
def Rig.soundLeg (r : Rig) (m : Moment) (l : Leg) : Rig :=
  let off := r.offerNoteOn m l.output l.channel l.key l.velocity l.id
  if off.appended then (off.rig.markSent l).settleDiscard discardFuel m off.discarded else off.rig

/-- A new entry is appended at the end of table order and its legs are sounded in leg order (R64). -/
def Rig.create (r : Rig) (m : Moment) (n : Input) (c : Chan) (k : Seven) (plans : List LegPlan) : Rig :=
  let legs := numberLegs r.nextLeg plans
  let r := { r with table := r.table ++ [⟨n, c, k, false, m.generation, legs⟩]
                    nextLeg := r.nextLeg + plans.length }
  legs.foldl (fun r l => r.soundLeg m l) r

/-- A note-on with its legs reaches the Note Table: retrigger, steal, drop or creation (R62 to R64). -/
def Rig.strike (r : Rig) (m : Moment) (n : Input) (c : Chan) (k : Seven) (plans : List LegPlan) : Rig :=
  match r.table.find? (·.isFrom n c k) with
  | some e => (r.endLegs m (legIds [e])).create m n c k plans
  | none =>
    if r.table.length < Config.tableSize then r.create m n c k plans
    else match r.table.find? (·.sustained) with
      | some e => (r.endLegs m (legIds [e])).create m n c k plans
      | none => r.report .tableFullDrops n.val

/-- The entry of source (n, c, k) becomes SUSTAINED (R66). -/
def sustainEntry (table : List Entry) (n : Input) (c : Chan) (k : Seven) : List Entry :=
  table.map fun e => if e.isFrom n c k then { e with sustained := true } else e

/-- A NOTE-OFF reaches the Note Table (R66). -/
def Rig.liftKey (r : Rig) (m : Moment) (n : Input) (c : Chan) (k : Seven) : Rig :=
  match r.table.find? (·.isFrom n c k) with
  | none => r
  | some e =>
    if e.sustained then r
    else if r.pedal n c then r.setTable (sustainEntry r.table n c k)
    else r.endLegs m (legIds [e])

/-- A pedal event of value `v` reaches the Note Table (R67): 64 to 127 is DOWN. -/
def Rig.movePedal (r : Rig) (m : Moment) (n : Input) (c : Chan) (v : Seven) : Rig :=
  if 64 ≤ v.val then r.setPedal n c true
  else if r.pedal n c then
    (r.setPedal n c false).endLegs m
      (legIds (r.table.filter fun e => e.sustained && e.input = n && e.channel = c))
  else r

/-! ### Program settings at a take (R81 to R84) -/

/-- A PROGRAM is offered on (o, c) and made current, and what it discards is settled (R82). -/
def Rig.sendProgram (r : Rig) (m : Moment) (o : Output) (c : Chan) (p : Program) : Rig :=
  let off := r.offerProgram m o c p
  (off.rig.setChan o c ((off.rig.chan o c).setCurrent p)).settleDiscard discardFuel m off.discarded

/-- The flip case: the program goes to the silent alternate, R redirects to it for the new generation,
and a program still pending on R is never sent (R83). -/
def Rig.flip (r : Rig) (m : Moment) (o : Output) (c alternate : Chan) (p : Program) : Rig :=
  let r := r.sendProgram m o alternate p
  let x := r.chan o c
  r.setChan o c
    { x with redirect := some (alternate, m.generation), pending := none
             old := if x.pending.isSome then 0 else x.old }

/-- The pending case: the program waits for the legs now sounding on R until the deadline; with a spill
limit of 0 the expiry is carried out within the setting (R84). `limit` is in milliseconds. -/
def Rig.leavePending (r : Rig) (m : Moment) (limit : Nat) (o : Output) (c : Chan) (p : Program) : Rig :=
  let x := r.chan o c
  let r := r.setChan o c
    { x with pending := some ⟨p, m.generation, after m.now (limit * 1000)⟩, old := x.sounding }
  if limit = 0 then r.expireSpill m o c else r

/-- One program setting of a take (R81). -/
def Rig.applySetting (r : Rig) (m : Moment) (limit : Nat) (t : Setting) : Rig :=
  let x := r.chan t.output t.channel
  if x.equals t.program && x.pending.isNone then r
  else if x.sounding = 0 then r.sendProgram m t.output t.channel t.program
  else match t.alternate with
    | some a =>
      if (r.chan t.output a).sounding = 0 then r.flip m t.output t.channel a t.program
      else r.leavePending m limit t.output t.channel t.program
    | none => r.leavePending m limit t.output t.channel t.program

/-- Every record changed by `f`. -/
def Rig.mapRecords (r : Rig) (f : ChanRec → ChanRec) : Rig := { r with records := mapAll f r.records }

/-- A redirect whose generation is not `g` is removed (R81). -/
def ChanRec.dropRedirect (x : ChanRec) (g : Generation) : ChanRec :=
  match x.redirect with
  | some (_, h) => if h = g then x else { x with redirect := none }
  | none => x

/-- The second stage of a take (R81, R109). -/
def Rig.applySettings (r : Rig) (m : Moment) (limit : Nat) (ts : List Setting) : Rig :=
  ts.foldl (fun r t => r.applySetting m limit t) (r.mapRecords fun x => x.dropRedirect m.generation)

/-! ### Settlement and transmission (R31, R35) -/

/-- Settlement of one channel: the ALL-NOTES-OFF it is owed, then its held program; a mark clears only
when its event is appended (R35). -/
def Rig.settleChan (r : Rig) (m : Moment) (o : Output) (c : Chan) : Rig :=
  let r :=
    if (r.chan o c).panicOwed then
      let off := r.offerAllNotesOff m o c
      let r := if off.appended then off.rig.setChan o c { off.rig.chan o c with panicOwed := false } else off.rig
      r.settleDiscard discardFuel m off.discarded
    else r
  match (r.chan o c).held with
  | none => r
  | some p => (r.offerProgram m o c p).settled m

/-- Settlement of an output, over its channels from 1 to 16 (R35). At a completed transmission the line is idle,
and the first append of settlement begins it with the head of the urgent queue, which from then on is no
discardable note-on for the offers that follow (DESIGN CHOICE, log entry 32). -/
def Rig.settle (r : Rig) (m : Moment) (o : Output) : Rig :=
  allChans.foldl (fun r c => r.settleChan m o c) r

/-- The place of the event on the line leaves its queue, but for a bulk place with a follow-up value,
which stays at the head with that value (R31, R38). -/
def OutPort.completeHead (q : OutPort) : OutPort :=
  match q.transmit with
  | .idle => q
  | .sending .urgent _ => { q with urgent := q.urgent.drop 1, transmit := .idle }
  | .sending .bulk _ =>
    match q.bulk with
    | [] => { q with transmit := .idle }
    | b :: rest =>
      match b.followUp with
      | none => { q with bulk := rest, transmit := .idle }
      | some v => { q with bulk := { b with value := v, followUp := none } :: rest, transmit := .idle }

/-- The last octet of the event on the line of output `o` has gone out: the place is removed, the flags
are judged, settlement is attempted, and the next event begins (R31, R35 to R37). R31 and R35 do not order
the settlement and the beginning of the next event; in the model the next event begins at the first append of
settlement, or behind a settlement that appends nothing (DESIGN CHOICE, log entry 32). -/
def Rig.completeLine (r : Rig) (m : Moment) (o : Output) : Rig :=
  match (r.out o).transmit with
  | .idle => r
  | .sending _ _ =>
    let q := (r.out o).completeHead.clearFlags
    let r := r.setOut o q
    (if q.enabled && q.urgent.length ≤ Config.settleLength then r.settle m o else r).startLine m o

/-- Whether the transmission of output `o` is due: its last octet has gone out by `now` (R31). -/
def Rig.lineDue (r : Rig) (now : StageTime) (o : Output) : Bool :=
  match (r.out o).transmit with
  | .idle => false
  | .sending _ t => reached now t

/-- A disabled output becomes enabled, and settlement is attempted at once (R39). -/
def Rig.enable (r : Rig) (m : Moment) (o : Output) : Rig :=
  (r.setOut o { r.out o with enabled := true }).settle m o

/-- OUTPUT ENABLE acts on one output; one whose enable does not change is not affected (R39). -/
def Rig.setEnable (r : Rig) (m : Moment) (o : Output) (on : Bool) : Rig :=
  if (r.out o).enabled = on then r else if on then r.enable m o else r.disable o

/-! ### Panic (R40, R74, R90) -/

/-- The program of channel `c` that a purge takes from a spill expiry: that of the newest PROGRAM of the
channel among the purged events, when a spill expiry released it (R85). -/
def expiredProgram (c : Chan) : List Urgent → Option Program
  | [] => none
  | e :: rest =>
    if rest.any (·.isProgramOf c) then expiredProgram c rest
    else match e with
      | .program d p true => if d = c then some p else none
      | _ => none

/-- The program that a panic offers for a record: the pending one, or else the held one (R40), or else
`expired`, which a spill expiry had queued and this panic has purged (R85). R40's list does not name the
last; the model follows R85 (DESIGN CHOICE, log entry 31). -/
def ChanRec.panicProgram (x : ChanRec) (expired : Option Program) : Option Program :=
  match x.pending, x.held with
  | some p, _ => some p.program
  | none, some p => some p
  | none, none => expired

/-- The panic's program of one channel of an enabled output is appended; `purged` is what the panic took
from its urgent queue (R40, R85). -/
def Rig.panicChan (r : Rig) (m : Moment) (o : Output) (purged : List Urgent) (c : Chan) : Rig :=
  match (r.chan o c).panicProgram (expiredProgram c purged) with
  | none => r
  | some p => r.append m o (.program c p false)

/-- On a disabled output the pending program becomes the held program (R40, R90). -/
def Rig.panicHold (r : Rig) (o : Output) (c : Chan) : Rig :=
  match (r.chan o c).pending with
  | none => r
  | some p => r.hold o c p.program

/-- The third stage of a panic at one output, after its purge (R40, R74). -/
def Rig.panicOutput (r : Rig) (m : Moment) (o : Output) (purged : List Urgent) : Rig :=
  if (r.out o).enabled then allChans.foldl (fun r c => r.panicChan m o purged c) (r.silence m o)
  else allChans.foldl (fun r c => r.panicHold o c) r

/-- Every pending program is made current and cleared (R74 stage 4, R90). -/
def ChanRec.panicCurrent (x : ChanRec) : ChanRec :=
  match x.pending with
  | none => x
  | some p => (x.setCurrent p.program).clearPending

/-- Every output changed by `f`. -/
def Rig.mapOutputs (r : Rig) (f : OutPort → OutPort) : Rig := { r with outputs := mapAll f r.outputs }

/-- The table empties without note-offs and every pedal becomes UP (R74, R77). -/
def Rig.clearTable (r : Rig) : Rig := { r with table := [], pedals := Vector.replicate 64 false }

/-- A panic: table, records, queues, programs, report (R74). -/
def Rig.panic (r : Rig) (m : Moment) (cause : PanicCause) : Rig :=
  let before := r
  let r := (r.clearTable.mapRecords fun x =>
    { x with sounding := 0, old := 0, panicOwed := false, redirect := none }).mapOutputs fun q =>
      { q.purge with overflow := false, critical := false }
  let r := (allOutputs.foldl (fun r o => r.panicOutput m o (before.out o).purged) r).mapRecords ChanRec.panicCurrent
  (r.raise (.panic cause)).record { emptyRecord m.now .panic with detail := some (.panic cause) }

/-! ### Leaving SHOW and RESTART (R76, R77, R91, R92, R41) -/

/-- ENTER SETUP: every entry ends in table order, every pedal becomes UP, every redirect is removed
(R76, R91). -/
def Rig.leaveShow (r : Rig) (m : Moment) : Rig :=
  let r := r.endLegs m (legIds r.table)
  { r with pedals := Vector.replicate 64 false }.mapRecords fun x => { x with redirect := none }

/-- RESTART of the Note Table, the Channel Table and the outputs: the event on each line completes, and an
ALL-NOTES-OFF is appended on each channel of each enabled output (R41, R77, R92). -/
def Rig.restart (r : Rig) (m : Moment) : Rig :=
  let r := (r.clearTable.mapRecords fun _ => ChanRec.clear).mapOutputs fun q =>
    { q.purge with overflow := false, critical := false, level := 40 }
  allOutputs.foldl (fun r o => if (r.out o).enabled then r.silence m o else r) r

end Sys2Proof.Machine
end

