-- ==== Sys2Proof/Machine/Tempos.lean ====
section
/-! DEFINITION. The arithmetic of the Tempo Engine (chapter 7): effective tempo and increment, the beat
phase and its subdivisions, measurements, windows, the rate and phase steps of a follow. -/
namespace Sys2Proof.Machine

/-- The ratio in force: the stored ratio in FREE, unity in the other states (R121). -/
def Tempo.ratioInForce (t : Tempo) : Nat := if t.state = .free then t.ratio else 256

/-- The unclamped tempo U (R121). -/
def Tempo.unclamped (t : Tempo) : Int := roundHalfUp (t.base * t.ratioInForce) 256 + t.trim

/-- The phase increment of an effective tempo (R122). -/
def incrementOf (effective : Nat) : Nat := (effective * 2 ^ 32 + 3000000000) / 6000000000

/-- Effective tempo, tempo-clamped flag and increment are computed again (R121, R122). -/
def Tempo.recompute (t : Tempo) : Tempo :=
  let u := t.unclamped
  let eff := (clampInt 2000 30000 u).toNat
  { t with effective := eff, clamped := u < 2000 || 30000 < u, increment := incrementOf eff }

/-- The subdivision reached by a phase under a division (R124). -/
def subdivisionAt (phase : BitVec 32) (division : Nat) : Nat := phase.toNat * division / 2 ^ 32

/-- The phase error E at a reference beat: the phase as a signed 32-bit number (R135). -/
def phaseError (phase : BitVec 32) : Int := phase.toInt

/-- The phase after a correction: P less E shifted right arithmetically by F + 1, but left as it is when E
is -1 (R135). -/
def correctedPhase (phase : BitVec 32) (shift : Nat) : BitVec 32 :=
  if phaseError phase = -1 then phase
  else BitVec.ofInt 32 ((phase.toNat : Int) - (phaseError phase).fdiv (2 ^ (shift + 1)))

/-- The measurement of an interval, when the interval is in range (R131). -/
def measure (i : Nat) : Option Nat :=
  if 200000 ≤ i ∧ i ≤ 3000000 then some ((2 * 6000000000 + i) / (2 * i)) else none

/-- Whether `m` lies within `percent` per cent of `base` (R132, R134). -/
def within (percent m base : Nat) : Bool := 100 * ((m : Int) - base).natAbs ≤ percent * base

/-- The rate step of a follow (R134). -/
def followedBase (base m shift : Nat) : Nat :=
  (clampInt 2000 30000 ((base : Int) + ((m : Int) - base).tdiv (2 ^ shift))).toNat

/-- The holdover deadline: two beats at the base tempo after the last reference beat (R137). -/
def Tempo.holdoverAfter (t : Tempo) (last : StageTime) : StageTime := after last (12000000000 / t.base)

/-- The reference fields take the value `x`. -/
def Tempo.setReference (t : Tempo) (x : Reference) : Tempo := { t with reference := x }

/-- The Tempo Engine after RESTART: trim kept, the follow shift from the header (R143). A beat or click boundary of
the present microsecond that is still owed when RESTART is handled is dropped with the phase: it is made neither
before nor after the RESTART. R143 says that no beat boundary is emitted, and the spec leaves open a boundary that
the microsecond of the RESTART has already reached (DESIGN CHOICE, log entry 42). -/
def Tempo.restart (t : Tempo) (shift : Nat) : Tempo :=
  { Tempo.pinReset with trim := t.trim, followShift := shift }.recompute

/-- The tempo a tap series gives: round half up of 6×10^9 × n / S (R141). -/
def tappedTempo (intervals : List Nat) : Nat :=
  let n := intervals.length
  let sum := intervals.sum
  (2 * (6000000000 * n) + sum) / (2 * sum)

/-- An interval joins the tap series, which keeps the newest four (R141). -/
def joinTaps (taps : List Nat) (i : Nat) : List Nat :=
  let l := taps ++ [i]
  if l.length = 5 then l.drop 1 else l

end Sys2Proof.Machine
end

