-- ==== Sys2Proof/Machine/Clicks.lean ====
section
/-! DEFINITION. The Click Generator (chapter 8): handover, the click of each kind of boundary, voices, the
mix, the audio frame and the audio clock. -/
namespace Sys2Proof.Machine

/-- The click of a beat boundary: the count-in click below bar 0, otherwise that of the level of the beat
(R146, R148). -/
def Pattern.beatClick (p : Pattern) (bar : Int) (beat : Nat) : Option Click :=
  if bar < 0 then some p.countIn
  else match p.levels[beat % p.levels.length]? with
    | some .accent => some p.accent
    | some .normal => some p.normal
    | some .silent => none
    | none => none

/-- The click of a subdivision boundary: none during count-in (R147). -/
def Pattern.subdivisionClick (p : Pattern) (bar : Int) : Option Click :=
  if bar < 0 then none else some p.subdivision

/-- A click waits for the next sample period; while the audio clock is MISSING it is not remembered (R149,
R155). -/
def ClickGen.ask (g : ClickGen) (c : Option Click) : ClickGen :=
  match c, g.audio with
  | some c, .present => { g with waiting := g.waiting ++ [c] }
  | _, _ => g

/-- A pattern is handed over: its copy replaces the pattern in force (R145). -/
def ClickGen.handover (g : ClickGen) (p : Pattern) : ClickGen := { g with pattern := p.copied }

/-- The four voices in order. -/
def allVoices : List (Fin 4) := [0, 1, 2, 3]

/-- Whether voice `a` has a greater played fraction than voice `b`, compared exactly (R150). -/
def Voice.fartherThan (a b : Voice) : Bool :=
  match a, b with
  | .playing _ _ la pa, .playing _ _ lb pb => pb * la < pa * lb
  | _, _ => false

/-- The voice a click takes: the lowest-numbered FREE voice, or else the one with the greatest played
fraction, the lowest-numbered of those that tie (R149, R150). -/
def ClickGen.voiceFor (g : ClickGen) : Fin 4 :=
  match allVoices.find? (fun i => g.voices[i] = .free) with
  | some i => i
  | none =>
    allVoices.foldl (fun best i => if (g.voices[i]).fartherThan g.voices[best] then i else best) 0

/-- A click starts its voice, unless its sound has length 0 now (R149). -/
def ClickGen.start (g : ClickGen) (mem : SetMemory) (c : Click) : ClickGen :=
  let len := mem.soundLength c.sound
  if len = 0 then g
  else { g with voices := g.voices.set g.voiceFor (.playing c.sound c.gain len 0) }

/-- What a voice adds to the mix: its sample times its gain (R152). -/
def Voice.contribution (v : Voice) (mem : SetMemory) : Int :=
  match v with
  | .free => 0
  | .playing sound gain _ pos => (mem.sample sound pos).toInt * gain

/-- The sum acc over the playing voices (R152). -/
def ClickGen.acc (g : ClickGen) (mem : SetMemory) : Int :=
  (allVoices.map fun i => (g.voices[i]).contribution mem).sum

/-- The output sample y: acc × master / 2^30 rounded half up and saturated (R152). -/
def mixSample (acc : Int) (master : Nat) : Int :=
  clampInt (-32768) 32767 ((acc * master + 2 ^ 29).fdiv (2 ^ 30))

/-- A playing voice moves on by one sample and ends at its length (R151). -/
def Voice.advance : Voice → Voice
  | .free => .free
  | .playing sound gain len pos =>
    if len ≤ pos + 1 then .free else .playing sound gain len (pos + 1)

/-- A sample period begins (R149 to R152, R154): the frame carries the sample of the period before, the
waiting clicks start their voices in order, the voices are mixed, and each moves on. -/
def ClickGen.samplePeriod (g : ClickGen) (mem : SetMemory) : ClickGen :=
  let g := { g with left := g.formed, right := g.formed, lastRight := g.right }
  let g := g.waiting.foldl (fun g c => g.start mem c) { g with waiting := [] }
  let y := BitVec.ofInt 16 (mixSample (g.acc mem) g.master)
  { g with formed := if g.mute then 0 else y, voices := mapAll Voice.advance g.voices }

/-- A voice that plays sound `i` stops (R13). -/
def Voice.stopSound (v : Voice) (i : Fin 4) : Voice :=
  match v with
  | .free => .free
  | .playing sound _ _ _ => if sound = i then .free else v

/-- Every voice playing sound `i` stops at once (R13, R151). -/
def ClickGen.stopSound (g : ClickGen) (i : Fin 4) : ClickGen :=
  { g with voices := mapAll (fun v => v.stopSound i) g.voices }

/-- Every voice stops and is FREE. -/
def ClickGen.stopAll (g : ClickGen) : ClickGen := { g with voices := Vector.replicate 4 .free }

/-- The audio clock becomes MISSING: voices stop, waiting clicks are not remembered, the lines go low
(R155). -/
def ClickGen.loseClock (g : ClickGen) : ClickGen :=
  { g.stopAll with audio := .missing, presenceRun := none, waiting := [], formed := 0, left := 0,
                   right := 0, lastRight := 0 }

/-- The audio clock becomes PRESENT: the first frame begins and carries a zero sample (R155). -/
def ClickGen.regainClock (g : ClickGen) : ClickGen :=
  { g with audio := .present, presenceRun := none, waiting := [], formed := 0, left := 0, right := 0,
           lastRight := 0 }

/-- Whether a presence run has lasted its 1,000 microseconds (R155). -/
def ClickGen.returnDue (g : ClickGen) (now : StageTime) : Bool :=
  match g.audio, g.presenceRun with
  | .missing, some t => reached now (after t Config.presenceMicros)
  | _, _ => false

/-- The lines of the audio serial output over the 32 bit periods of one frame: the bit clock in half
periods, low and then high in each bit period, and word select and data in bit periods, first period first
(R154). Which half of a bit period is high is the model's (DESIGN CHOICE, log entry 20). -/
structure AudioLines where
  bitClock : List Bool
  wordSelect : List Bool
  data : List Bool
deriving DecidableEq, Repr

/-- The three lines held low (R155, R185). -/
def AudioLines.low : AudioLines :=
  ⟨List.replicate 64 false, List.replicate 32 false, List.replicate 32 false⟩

/-- The audio lines over the frame being sent; while the audio clock is MISSING all three are held low
(R154, R155). -/
def ClickGen.lines (g : ClickGen) : AudioLines :=
  match g.audio with
  | .missing => .low
  | .present =>
    ⟨(List.replicate 32 [false, true]).flatten, wordSelect, serialBits g.lastRight g.left g.right⟩

/-- The Click Generator after RESTART: voices stopped, pattern 0 handed over, gain, mute and audio clock
kept (R157). -/
def ClickGen.restart (g : ClickGen) (mem : SetMemory) : ClickGen :=
  { g.stopAll with waiting := [] }.handover (mem.pattern 0)

end Sys2Proof.Machine
end

