-- ==== Sys2Proof/Machine/Scenes.lean ====
section
/-! DEFINITION. The Scene Engine's shared operations (chapter 6): ranks, the resolution and acceptance of
scene requests, preparation, the take, beat boundaries, realignment and count-in. -/
namespace Sys2Proof.Machine

/-! ### Requests, ranks and resolution (R96 to R101) -/

/-- The rank of an origin under the lead of the header (R96). -/
def rankOf (lead : Lead) (origin : Origin) : Nat :=
  match origin, lead with
  | .modeChange, _ => 3
  | .panelSide, .panelSide => 2
  | .panelSide, .showSide => 1
  | .cue, .panelSide => 2
  | .cue, .showSide => 1
  | .showSide, .panelSide => 1
  | .showSide, .showSide => 2

/-- The rank a request of origin `origin` has now. -/
def State.rank (s : State) (origin : Origin) : Nat := rankOf s.mem.header.lead origin

/-- What a scene request asks for: a song and scene (GO SONG), a scene of the current song (GO SCENE), the
next or the previous scene (R100, R101). -/
inductive SceneAsk where
  | song (song scene : Nat)
  | scene (scene : Nat)
  | next
  | prev
deriving DecidableEq, Repr

/-- A scene request refused: its status, and its target when step 2 of R97 reached one (R99). -/
structure Refused where
  status : Status
  target : Option (Nat × Nat)
deriving DecidableEq, Repr

/-- The base scene of GO NEXT and GO PREV: the staged target when the request's rank is at least that
change's, otherwise the current scene (R101). -/
def State.baseScene (s : State) (rank : Nat) : Option (Nat × Nat) :=
  let current := s.scene.current.map fun t => (t.song, t.scene)
  match s.scene.staged with
  | some c => if c.rank ≤ rank then some (c.target.song, c.target.scene) else current
  | none => current

/-- GO NEXT from a base (R101). -/
def State.resolveNext (s : State) : Option (Nat × Nat) → Except Status (Nat × Nat)
  | none => .ok (0, 0)
  | some (song, k) =>
    if k + 1 < (s.mem.song song).sceneCount then .ok (song, k + 1)
    else if song + 1 < s.mem.header.setlistLength then .ok (song + 1, 0)
    else .error .atEnd

/-- GO PREV from a base (R101). -/
def State.resolvePrev (s : State) : Option (Nat × Nat) → Except Status (Nat × Nat)
  | none => .error .atEnd
  | some (song, k) =>
    if 0 < k then .ok (song, k - 1)
    else if 0 < song then
      if (s.mem.song (song - 1)).sceneCount = 0 then .error .range
      else .ok (song - 1, (s.mem.song (song - 1)).sceneCount - 1)
    else .error .atEnd

/-- Step 2 of R97: the target a request resolves to (R100, R101). -/
def State.resolve (s : State) (rank : Nat) : SceneAsk → Except Status (Nat × Nat)
  | .song song scene => .ok (song, scene)
  | .scene scene =>
    match s.scene.current with
    | none => .error .none
    | some t => .ok (t.song, scene)
  | .next => s.resolveNext (s.baseScene rank)
  | .prev => s.resolvePrev (s.baseScene rank)

/-- Steps 3 to 5 of R97 on a resolved target. -/
def State.checkTarget (s : State) (rank : Nat) (t : Nat × Nat) : Except Refused (Nat × Nat) :=
  if s.mem.header.setlistLength ≤ t.1 || (s.mem.song t.1).sceneCount ≤ t.2 then
    .error ⟨.range, some t⟩
  else if s.scene.current.map (fun c => (c.song, c.scene)) = some t then .error ⟨.already, some t⟩
  else match s.scene.staged with
    | some c => if rank < c.rank then .error ⟨.outranked, some t⟩ else .ok t
    | none => .ok t

/-- The checks of R97, in order: the accepted target, or the refusal. -/
def State.judge (s : State) (origin : Origin) (ask : SceneAsk) : Except Refused (Nat × Nat) :=
  if s.scene.mode ≠ .showMode then .error ⟨.mode, none⟩
  else match s.resolve (s.rank origin) ask with
    | .error st => .error ⟨st, none⟩
    | .ok t => s.checkTarget (s.rank origin) t

/-! ### Staging and preparation (R95, R98, R105 to R107) -/

/-- A change leaves the slot before its take: its preparation stops, the standby bank and the under-copy
set empty (R11, R44). -/
def State.dropStaged (s : State) : State :=
  ((s.setScene { s.scene with staged := none }).setMem { s.mem with underCopy := none }).setRouter
    { s.router with standby := [], fill := .empty, standbyEcho := 0 }

/-- CHANGE SUPERSEDED for a displaced or cancelled change, and its SUPERSEDED record (R98, R102). -/
def State.reportSuperseded (s : State) (c : Change) (cause : SupersedeCause) : State :=
  (s.raiseFor c.origin (.changeSuperseded c.target.song c.target.scene c.origin cause)).record
    { emptyRecord s.time .superseded with
      origin := some c.origin, song := some c.target.song, scene := some c.target.scene,
      generation := some s.scene.generation, detail := some (.superseded cause), cueTag := c.cueTag }

/-- The record index of a target, fixed at acceptance (R95). -/
def State.recordOf (s : State) (t : Nat × Nat) : Nat := ((s.mem.song t.1).firstScene + t.2) % 256

/-- An accepted change enters the slot and its preparation starts (R95, R97, R105, R44). -/
def State.stage (s : State) (origin : Origin) (t : Nat × Nat) (q : Option Quantize) (tag : Byte) : State :=
  let record := s.recordOf t
  let copy := (s.mem.scene record).copied
  let c : Change :=
    { target := ⟨t.1, t.2, record⟩, origin := origin, rank := s.rank origin, requestQuantize := q,
      quantize := q.getD copy.quantize, cueTag := tag, preparation := .preparing, copy := copy,
      startedAt := s.time }
  ((s.setScene { s.scene with staged := some c }).setMem
      { s.mem with underCopy := some ⟨record, copy.layerFirst, copy.layerCount⟩ }).setRouter
    { s.router with standby := [], fill := .filling, standbyEcho := copy.echo }

/-- An accepted request: a change in the slot is displaced, and the new one enters it (R97 step 6,
R98). -/
def State.accept (s : State) (origin : Origin) (t : Nat × Nat) (q : Option Quantize) (tag : Byte) : State :=
  let s := match s.scene.staged with
    | none => s
    | some c => s.dropStaged.reportSuperseded c .replaced
  s.stage origin t q tag

/-- The CHANGE REFUSED record of a refused request or a failed preparation (R99, R106, R177). -/
def State.recordRefused (s : State) (origin : Origin) (target : Option (Nat × Nat)) (reason : Reason)
    (tag : Byte) : State :=
  s.record { emptyRecord s.time .changeRefused with
    origin := some origin, song := target.map (·.1), scene := target.map (·.2),
    generation := some s.scene.generation, detail := some (.refused reason), cueTag := tag }

/-- A scene request of origin CUE: no response, and a refusal is captured with the resolved target when step 2 of
R97 reached one (R99). For a song select that R27 lets pass and R97 refuses, R177 would have the program as the song
with the scene absent; the model records the resolved target of R99, the song and scene 0 (DESIGN CHOICE, log entry
43). -/
def State.cueRequest (s : State) (ask : SceneAsk) (tag : Byte) : State :=
  match s.judge .cue ask with
  | .ok t => s.accept .cue t none tag
  | .error e => s.recordRefused .cue e.target (.refusal e.status) tag

/-- The request of origin MODE that ENTER SHOW makes; a refusal is sent to both ports and captured
(R117). -/
def State.modeRequest (s : State) : State :=
  match s.judge .modeChange (.song 0 0) with
  | .ok t => s.accept .modeChange t (some .immediate) 0
  | .error e =>
    (s.raiseFor .modeChange
      (.changeRefused (e.target.map (·.1)) (e.target.map (·.2)) .modeChange (.refusal e.status) none)).recordRefused
      .modeChange e.target (.refusal e.status) 0

/-- The layer entries of a run, in run order. -/
def SetMemory.run (m : SetMemory) (first count : Nat) : List Layer :=
  (List.range count).map fun k => m.layer (first + k)

/-- The entry checks of R106 over a run, `offset` being the offset of the first entry of the list and
`before` the entry before it: the first check that fails, with the offset of its entry. -/
def checkEntries : Option Layer → Nat → List Layer → Option (Reason × Nat)
  | _, _, [] => none
  | before, offset, e :: rest =>
    let disordered := match before with
      | none => false
      | some b => e.sourceChannel < b.sourceChannel ||
          (e.sourceChannel = b.sourceChannel && e.keyLow < b.keyLow)
    if disordered then some (.order, offset)
    else if e.inputs = 0 then some (.noInputs, offset)
    else if e.action = .route && e.outputs = 0 then some (.noOutputs, offset)
    else checkEntries (some e) (offset + 1) rest

/-- The checks of R106 over the run of a scene copy. -/
def SetMemory.checkRun (m : SetMemory) (r : Scene) : Option (Reason × Nat) :=
  if 1024 < r.layerFirst + r.layerCount then some (.bounds, 1024 - r.layerFirst)
  else checkEntries none 0 (m.run r.layerFirst r.layerCount)

/-- A preparation fails a check (R106). -/
def State.failPreparation (s : State) (c : Change) (reason : Reason) (offset : Nat) : State :=
  (s.dropStaged.raiseFor c.origin
    (.changeRefused (some c.target.song) (some c.target.scene) c.origin reason (some offset))).recordRefused
    c.origin (some (c.target.song, c.target.scene)) reason c.cueTag

/-! ### The position (R111, R113 to R116) -/

/-- SONG START goes to both ports in SHOW, with the tag the song record then holds (R3, R114). -/
def State.songStart (s : State) : State :=
  match s.scene.mode, s.scene.position.song with
  | .showMode, some song =>
    s.raise (.songStart song (s.mem.song song).tag s.scene.generation)
  | _, _ => s

/-- A POSITION notice is raised with the position (R116). -/
def State.raisePosition (s : State) : State :=
  let p := s.scene.position
  s.raise (.position p.song p.bar p.beat s.scene.generation)

/-- The bar after a rise by one: it stays at 32767 (R113). -/
def nextBar (bar : Int) : Int := if bar = 32767 then bar else bar + 1

/-- Whether the next beat boundary is a bar boundary (R113 stage 1). -/
def SceneEngine.barBoundaryNext (e : SceneEngine) : Bool :=
  e.position.newBarOwed || e.meter ≤ e.position.beat + 1

/-- The position after a beat boundary (R113 stage 1). -/
def SceneEngine.countBeat (e : SceneEngine) : SceneEngine :=
  if e.barBoundaryNext then
    { e with position := { e.position with beat := 0, bar := nextBar e.position.bar, newBarOwed := false } }
  else { e with position := { e.position with beat := e.position.beat + 1 } }

/-- The position that a take to `target` sets (R111). `hadScene` says whether there was a current scene
before the take. -/
def SetMemory.takePosition (m : SetMemory) (p : Position) (hadScene : Bool) (target : Target) : Position :=
  if p.song ≠ some target.song || !hadScene then
    ⟨some target.song, -((m.song target.song).countInBars : Int), 0, false⟩
  else p

/-! ### The take (R109 to R112) -/

/-- First stage: banks, generation, current scene, generation horizon (R45, R72, R94, R109). The entries
of the horizon end at the age they had before the increment, so that their legs are old as R61 says. -/
def State.takeBanks (s : State) (c : Change) : State :=
  let g := s.scene.generation + 1
  let rig := s.rig.endLegs s.moment (legIds (s.rig.table.filter fun e => e.generation = g))
  ((s.setRig rig).setRouter ⟨s.router.standby, [], .empty, 0, s.router.standbyEcho⟩).setScene
    { s.scene with generation := g, current := some c.target }

/-- Second stage: redirects and program settings (R81, R109). -/
def State.takePrograms (s : State) (c : Change) : State :=
  s.setRig (s.rig.applySettings s.moment s.mem.header.spillLimit c.copy.settings)

/-- Third stage: ratio, tempo and meter (R110, R128). -/
def State.takeTempo (s : State) (c : Change) : State :=
  let t := s.tempo
  let base := if t.state = .free then c.copy.tempo.getD t.base else t.base
  (s.setTempo { t with ratio := c.copy.ratio, base := base }.recompute).setScene
    { s.scene with meter := c.copy.meter }

/-- A change of the division in force sets the click index to the subdivision reached under the new
division, and hands over no click boundary (R124). -/
def Tempo.newDivision (t : Tempo) (before now : Nat) : Tempo :=
  if before = now then t else { t with clickIndex := subdivisionAt t.phase now }

/-- A pattern is handed over from the set memory, and the click index follows a new division (R124,
R145). -/
def State.handover (s : State) (pattern : Nat) : State :=
  let g := s.click.handover (s.mem.pattern pattern)
  (s.setClick g).setTempo (s.tempo.newDivision s.click.pattern.division g.pattern.division)

/-- Fifth stage: the position (R111). -/
def State.takePosition (s : State) (hadScene : Bool) (c : Change) : State :=
  s.setScene { s.scene with position := s.mem.takePosition s.scene.position hadScene c.target }

/-- Sixth stage: the slot empties and the take is reported (R112). `started` says that the fifth stage was
a song change that set the bar to 0, so that SONG START follows SCENE TAKEN (R111). The record keeps the
song tag (R3; log entry 30). -/
def State.takeReport (s : State) (c : Change) (started : Bool) : State :=
  let s := s.setScene { s.scene with staged := none }
  let s := s.raise (.sceneTaken c.target.song c.target.scene (s.mem.song c.target.song).tag
    s.scene.generation c.origin)
  let s := if started then s.songStart else s
  let s := s.record { emptyRecord s.time .sceneTaken with
    origin := some c.origin, song := some c.target.song, scene := some c.target.scene,
    generation := some s.scene.generation, cueTag := c.copy.cueTag,
    songTag := some (s.mem.song c.target.song).tag }
  (s.report .sceneTakes 0).raisePosition

/-- A take (R109 to R112). -/
def State.take (s : State) (c : Change) : State :=
  let hadScene := s.scene.current.isSome
  let songChange := s.scene.position.song ≠ some c.target.song || !hadScene
  let s := ((((s.takeBanks c).takePrograms c).takeTempo c).handover c.copy.pattern.val).takePosition hadScene c
  s.takeReport c (songChange && s.scene.position.bar = 0)

/-- The READY change of the slot that may be taken now: none while the frozen mark is set (R103, R108). -/
def SceneEngine.takeable (e : SceneEngine) (boundary : Quantize → Bool) : Option Change :=
  match e.staged with
  | some c => if c.preparation = .ready && !e.frozen && boundary c.quantize then some c else none
  | none => none

/-- A preparation has copied and checked its whole run (R107): the change is READY, and a change of
quantize IMMEDIATE is taken at once unless the frozen mark is set (R108). -/
def State.completePreparation (s : State) (c : Change) : State :=
  let run := s.mem.run c.copy.layerFirst c.copy.layerCount
  let ready := { c with preparation := Preparation.ready }
  let s := ((s.setRouter { s.router with standby := run, fill := .filled }).setMem
    { s.mem with underCopy := none }).setScene { s.scene with staged := some ready }
  let s := s.raiseFor c.origin (.changeReady c.target.song c.target.scene c.origin c.quantize)
  match s.scene.takeable (fun q => q = .immediate) with
  | some c => s.take c
  | none => s

/-- A preparation in flight ends: it completes, or it fails its first failing check (R106, R107). -/
def State.endPreparation (s : State) : State :=
  match s.scene.staged with
  | none => s
  | some c =>
    if c.preparation = .preparing then
      match s.mem.checkRun c.copy with
      | none => s.completePreparation c
      | some (reason, offset) => s.failPreparation c reason offset
    else s

/-- Whether a preparation in flight has used up the time it may take (R105). -/
def State.preparationOverdue (s : State) : Bool :=
  match s.scene.staged with
  | none => false
  | some c => c.preparation = .preparing && reached s.time (after c.startedAt Config.preparationMicros)

/-! ### Beat boundaries (R113, R123, R125) -/

/-- A change of source state is reported: a LOCK notice to both ports and a LOCK CHANGE record (R139). -/
def State.reportLock (s : State) : State :=
  let t := s.tempo
  (s.raise (.lock t.state t.source t.base)).record
    { emptyRecord s.time .lockChange with detail := some (.lock t.state t.source) }

/-- The reference fields at a return to ACQUIRING: both runs and the holdover count 0, no previous
measurement, no holdover deadline (R136, R138). -/
def Reference.relisten (x : Reference) : Reference :=
  { x with previous := none, acquisitionRun := 0, outlierRun := 0, holdoverDeadline := none,
           holdoverBeats := 0 }

/-- The Tempo Engine's own part of a beat boundary (R123, R138, R140): the click index becomes 0, OWN
BEATS counts in LOCKED, and the sixteenth beat in HOLDOVER returns the state to ACQUIRING. -/
def State.tempoBeat (s : State) : State :=
  let t := { s.tempo with clickIndex := 0 }
  match t.state with
  | .free => s.setTempo t
  | .acquiring => s.setTempo t
  | .locked => s.setTempo { t with ownBeats := t.ownBeats + 1 }
  | .holdover =>
    if t.reference.holdoverBeats + 1 < 16 then
      s.setTempo (t.setReference { t.reference with holdoverBeats := t.reference.holdoverBeats + 1 })
    else (s.setTempo { t with state := .acquiring, reference := t.reference.relisten }).reportLock

/-- The beat line goes high, longer at a bar boundary (R125). -/
def Tempo.pulseLine (t : Tempo) (now : StageTime) (bar : Bool) : Tempo :=
  { t with lineHighUntil := some (after now (if bar then Config.barPulse else Config.beatPulse)) }

/-- Stage 4 of a beat boundary: the click, the beat line and the POSITION notice (R113, R125, R146,
R148). -/
def State.handOff (s : State) : State :=
  let p := s.scene.position
  ((s.setClick (s.click.ask (s.click.pattern.beatClick p.bar p.beat))).setTempo
    (s.tempo.pulseLine s.time (p.beat = 0))).raisePosition

/-- The Scene Engine handles a beat boundary (R113). -/
def State.sceneBeat (s : State) : State :=
  let bar := s.scene.barBoundaryNext
  let before := s.scene.position.bar
  let s := s.setScene s.scene.countBeat
  let s := if before = -1 && s.scene.position.bar = 0 then s.songStart else s
  let s := match s.scene.takeable (fun q => q = .beat || (q = .bar && bar)) with
    | some c => s.take c
    | none => s
  s.handOff

/-- A beat boundary, whatever its cause (R123). -/
def State.beat (s : State) : State := s.tempoBeat.sceneBeat

/-- A subdivision above the click index is handed to the Click Generator, and the click index takes it
(R124, R147). This holds in the beat before the first beat boundary after RESTART too: R157 says that the
first click there is at that boundary, R124 and R147 make subdivision clicks before it when pattern 0 has a
division above 1, and the model makes them (DESIGN CHOICE, log entry 34). -/
def State.clickIfRisen (s : State) : State :=
  let k := subdivisionAt s.tempo.phase s.click.pattern.division
  if s.tempo.clickIndex < k then
    (s.setTempo { s.tempo with clickIndex := k }).setClick
      (s.click.ask (s.click.pattern.subdivisionClick s.scene.position.bar))
  else s

/-- Whether an advance by `inc` carries out of the phase: a beat boundary (R123). -/
def Tempo.carries (t : Tempo) (inc : Nat) : Bool := 2 ^ 32 ≤ t.phase.toNat + inc

/-- The phase advanced by `inc` (R123). -/
def Tempo.advanced (t : Tempo) (inc : Nat) : Tempo := { t with phase := t.phase + BitVec.ofNat 32 inc }

/-- The phase advance of one microsecond: with a carry it is a beat boundary, otherwise a click boundary
when the subdivision reached rises (R123, R124). -/
def State.advancePhase (s : State) (inc : Nat) : State :=
  if s.tempo.carries inc then (s.setTempo (s.tempo.advanced inc)).beat
  else (s.setTempo (s.tempo.advanced inc)).clickIfRisen

/-! ### Realignment (R115) -/

/-- A realignment to the beat just emitted or to the next beat (R115): `next` chooses. -/
def State.realign (s : State) (next : Bool) : State :=
  let e := s.scene
  if next then
    let slips := e.position.beat + 1 < e.meter
    let s := s.setScene { e with position := { e.position with newBarOwed := true } }
    (if slips then s.report .barSlips 0 else s).raisePosition
  else if e.position.beat = 0 then s.raisePosition
  else
    let s := (s.setScene { e with position :=
      { e.position with beat := 0, bar := nextBar e.position.bar, newBarOwed := false } }).report .barSlips 0
    (if e.position.bar = -1 then s.songStart else s).raisePosition

end Sys2Proof.Machine
end

