-- ==== Sys2Proof/Machine/References.lean ====
section
/-! DEFINITION. Reference pulses and beats, acquisition, following, holdover, taps and downbeat marks
(chapter 7): R130 to R142. -/
namespace Sys2Proof.Machine

/-- The reference fields of the part take the value `x`. -/
def State.setReference (s : State) (x : Reference) : State := s.setTempo (s.tempo.setReference x)

/-- A snap (R133): more than half a beat passed emits a beat boundary and starts the beat; less starts the
beat without one and keeps the click index. -/
def State.snap (s : State) : State :=
  if 2 ^ 31 ≤ s.tempo.phase.toNat then (s.setTempo { s.tempo with phase := 0 }).beat
  else s.setTempo { s.tempo with phase := 0 }

/-- The holdover deadline is set from the last reference beat and the base tempo in force (R137). -/
def State.setHoldover (s : State) : State :=
  s.setReference { s.tempo.reference with
    holdoverDeadline := s.tempo.reference.lastBeat.map fun t => s.tempo.holdoverAfter t }

/-- The engine locks on the measurement `m`, in the five steps of R132. -/
def State.lock (s : State) (m : Nat) : State :=
  let s := (s.setTempo { s.tempo with state := .locked, base := m }.recompute).snap
  let s := s.setTempo { s.tempo with
    ownBeats := 0, refBeats := 0
    reference := { s.tempo.reference with
      acquisitionRun := 0, outlierRun := 0, holdoverBeats := 0, previous := none } }
  s.setHoldover.reportLock

/-- A measurement `m` in ACQUIRING (R132). -/
def State.acquire (s : State) (m : Nat) : State :=
  let x := s.tempo.reference
  match x.previous with
  | none => s.setReference { x with previous := some m, acquisitionRun := 0 }
  | some mp =>
    if within 3 m mp then
      if x.acquisitionRun + 1 < 3 then
        s.setReference { x with previous := some m, acquisitionRun := x.acquisitionRun + 1 }
      else s.lock m
    else s.setReference { x with previous := some m, acquisitionRun := 0 }

/-- The phase correction of a follow; one that raises the phase across a subdivision hands over one click
boundary (R124, R135). -/
def State.correctPhase (s : State) : State :=
  (s.setTempo { s.tempo with phase := correctedPhase s.tempo.phase s.tempo.followShift }).clickIfRisen

/-- A followed reference beat: rate, then phase; the outlier run becomes 0 (R134). -/
def State.follow (s : State) (m : Nat) : State :=
  let t := s.tempo
  let s := (s.setTempo { t with base := followedBase t.base m t.followShift }.recompute).correctPhase
  s.setReference { s.tempo.reference with outlierRun := 0 }

/-- An outlier (R136): counted, and the third in a row returns the state to ACQUIRING. -/
def State.outlier (s : State) : State :=
  let s := s.report .referenceOutliers 0
  let x := s.tempo.reference
  if x.outlierRun + 1 < 3 then s.setReference { x with outlierRun := x.outlierRun + 1 }
  else (s.setTempo { s.tempo with state := .acquiring, reference := x.relisten }).reportLock

/-- The measurement of a reference beat that lies within 12 per cent of the base tempo (R134). -/
def Tempo.followable (t : Tempo) (i : Nat) : Option Nat :=
  match measure i with
  | some m => if within 12 m t.base then some m else none
  | none => none

/-- REF BEATS counts one (R140). -/
def State.countRef (s : State) : State := s.setTempo { s.tempo with refBeats := s.tempo.refBeats + 1 }

/-- A reference beat, with its interval when it has one, is handled by the rule of the source state (R131,
R132, R134, R136, R138). -/
def State.referenceBeat (s : State) (i : Option Nat) : State :=
  match s.tempo.state, i with
  | .free, _ => s
  | .acquiring, none => s
  | .acquiring, some i =>
    match measure i with
    | some m => s.acquire m
    | none =>
      (s.setReference { s.tempo.reference with acquisitionRun := 0, previous := none }).report
        .referenceOutliers 0
  | .locked, none => s.countRef.setHoldover
  | .locked, some i =>
    match s.tempo.followable i with
    | some m => (s.countRef.follow m).setHoldover
    | none =>
      let s := s.countRef.outlier
      if s.tempo.state = .locked then s.setHoldover else s
  | .holdover, none => s
  | .holdover, some i =>
    match s.tempo.followable i with
    | some m =>
      let s := (s.setTempo { s.tempo with state := .locked }).countRef.follow m
      (s.setReference { s.tempo.reference with holdoverBeats := 0 }).setHoldover.reportLock
    | none => s.outlier

/-- A reference pulse of the requested source at the present moment (R130). -/
def State.pulse (s : State) : State :=
  let x := s.tempo.reference
  let beatNow : Reference := { x with pulses := some 0, lastBeat := some s.time }
  match x.pulses with
  | none => (s.setReference beatNow).referenceBeat none
  | some k =>
    if k + 1 < s.tempo.source.pulsesPerBeat then s.setReference { x with pulses := some (k + 1) }
    else (s.setReference beatNow).referenceBeat (x.lastBeat.map fun t => interval t s.time)

/-- An alignment point of the requested clock input (R130). -/
def State.align (s : State) : State :=
  let x := { s.tempo.reference with pulses := none, lastBeat := none }
  s.setReference (if s.tempo.state = .acquiring then { x with acquisitionRun := 0, previous := none } else x)

/-- A tap in FREE at the present moment, by the three cases of R141. -/
def State.tapNow (s : State) : State :=
  let t := s.tempo
  let fresh := s.setTempo { t with taps := [], lastTap := some s.time }
  match t.lastTap with
  | none => fresh
  | some l =>
    let i := interval l s.time
    if 3000000 < i then fresh
    else if i < 200000 then s
    else
      let taps := joinTaps t.taps i
      (s.setTempo { t with taps := taps, lastTap := some s.time, base := tappedTempo taps }.recompute).snap

/-- A tap: taken in FREE, otherwise ignored (R57, R141). -/
def State.tap (s : State) : State := if s.tempo.state = .free then s.tapNow else s

/-- A beat mark with its downbeat flag (R142): a reference pulse, and then the realignment that the phase
chooses; ignored unless the requested source is MARK. -/
def State.beatMark (s : State) (downbeat : Bool) : State :=
  if s.tempo.source = .mark then
    let s := s.pulse
    if downbeat then s.realign (phaseError s.tempo.phase < 0) else s
  else s

/-- The holdover expiry (R137). -/
def State.expireHoldover (s : State) : State :=
  (s.setTempo { s.tempo with
    state := .holdover
    reference := { s.tempo.reference with holdoverDeadline := none, holdoverBeats := 0 } }).reportLock

/-- Whether the holdover deadline is reached while the state is LOCKED (R137). -/
def State.holdoverDue (s : State) : Bool :=
  match s.tempo.state, s.tempo.reference.holdoverDeadline with
  | .locked, some t => reached s.time t
  | _, _ => false

end Sys2Proof.Machine
end

