-- ==== Sys2Proof/Machine/Routing.lean ====
section
/-! DEFINITION. The Layer Router (chapter 3): matching, the legs of a note-on, velocities, the echo rule,
redirects, duplicate and fan-out rules, cue actions, and the routing of continuous events. -/
namespace Sys2Proof.Machine

/-- Whether a bank entry takes events of input `n` on channel `c` (R47, R58). -/
def Layer.hears (e : Layer) (n : Input) (c : Chan) : Bool :=
  e.inputs.getLsbD n.val && e.sourceChannel = c.val + 1

/-- Whether a bank entry matches a note-on (R47). -/
def Layer.isMatch (e : Layer) (n : Input) (c : Chan) (k v : Seven) : Bool :=
  e.hears n c && e.keyLow ≤ k.val && k.val ≤ e.keyHigh && e.velocityLow ≤ v.val && v.val ≤ e.velocityHigh

/-- The output velocity of a leg (R49). -/
def Layer.velocityOf (e : Layer) (v : Seven) : Seven :=
  Fin.ofNat 128 (clampInt 1 127 ((((v.val * e.scale + 32) / 64 : Nat) : Int) + e.offset)).toNat

/-- The output key of a leg, when it lies in 0 to 127 (R48 step 3). -/
def Layer.keyOf (e : Layer) (k : Seven) : Option Seven :=
  let x := (k.val : Int) + e.transpose
  if 0 ≤ x ∧ x ≤ 127 then some (Fin.ofNat 128 x.toNat) else none

/-- Whether the echo rule removes output `o` for a note of input `n` (R48 step 1). -/
def echoes (echo : BitVec 4) (n : Input) (o : Output) : Bool := o.val = n.val && !echo.getLsbD n.val

/-- The outputs of a mask, in order O0 to O5. -/
def outputsOf (mask : BitVec 6) : List Output := allOutputs.filter fun o => mask.getLsbD o.val

/-- Whether a matching ROUTE entry is a void route: its mask is On alone and pair n is not permitted
(R50). -/
def Layer.isVoid (e : Layer) (echo : BitVec 4) (n : Input) : Bool :=
  !(outputsOf e.outputs).isEmpty && (outputsOf e.outputs).all fun o => echoes echo n o

/-- The destination channel of a bank entry. -/
def Layer.dest (e : Layer) : Chan := Fin.ofNat 16 (e.destChannel - 1)

/-- The channel a leg or delivery of output `o` and channel `c` takes: the alternate of a redirect that
holds for the current generation, or `c` itself (R51). -/
def Rig.redirected (r : Rig) (m : Moment) (o : Output) (c : Chan) : Chan :=
  match (r.chan o c).redirect with
  | some (a, g) => if g = m.generation then a else c
  | none => c

/-- One output of a matching ROUTE entry: the rig with what is reported, and the candidate leg (R48). -/
def Rig.candidate (r : Rig) (m : Moment) (echo : BitVec 4) (n : Input) (k v : Seven) (e : Layer) (o : Output) :
    Rig × List LegPlan :=
  if echoes echo n o || !(r.out o).enabled then (r, [])
  else match e.keyOf k with
    | none => (r.report .outOfRangeKeys o.val, [])
    | some key => (r, [⟨o, r.redirected m o e.dest, key, e.velocityOf v⟩])

/-- A void route is counted for the input and captured (R50). -/
def Rig.reportVoid (r : Rig) (m : Moment) (n : Input) (c : Chan) (e : Layer) : Rig :=
  (r.report .voidRoutes n.val).record
    { emptyRecord m.now .voidRoute with
      output := some (Fin.castLE (by decide) n), channel := some c, cueTag := e.cueTag }

/-- The candidate legs of one matching entry (R48, R50). -/
def Rig.entryLegs (r : Rig) (m : Moment) (echo : BitVec 4) (n : Input) (c : Chan) (k v : Seven) (e : Layer) :
    Rig × List LegPlan :=
  if e.action = .route then
    let r := if e.isVoid echo n then r.reportVoid m n c e else r
    (outputsOf e.outputs).foldl (fun acc o =>
      let x := acc.1.candidate m echo n k v e o
      (x.1, acc.2 ++ x.2)) (r, [])
  else (r, [])

/-- Whether two planned legs have the same output, channel and key (R52). -/
def LegPlan.sameNote (a b : LegPlan) : Bool :=
  a.output = b.output && a.channel = b.channel && a.key = b.key

/-- The duplicate and fan-out rule on one candidate (R52). -/
def Rig.keepLeg (acc : Rig × List LegPlan) (l : LegPlan) : Rig × List LegPlan :=
  if acc.2.any (·.sameNote l) then acc
  else if acc.2.length < Config.maxLegs then (acc.1, acc.2 ++ [l])
  else (acc.1.report .fanOutClipped l.output.val, acc.2)

/-- The legs of a note-on, with what building them reports (R47 to R52). -/
def Rig.buildLegs (r : Rig) (m : Moment) (echo : BitVec 4) (bank : List Layer) (n : Input) (c : Chan)
    (k v : Seven) : Rig × List LegPlan :=
  let candidates := (bank.filter fun e => e.isMatch n c k v).foldl (fun acc e =>
    let x := acc.1.entryLegs m echo n c k v e
    (x.1, acc.2 ++ x.2)) (r, [])
  candidates.2.foldl Rig.keepLeg (candidates.1, [])

/-- A note-on with legs is counted as routed and handed to the Note Table (R53). -/
def Rig.routeLegs (r : Rig) (m : Moment) (n : Input) (c : Chan) (k : Seven) (plans : List LegPlan) : Rig :=
  match plans with
  | [] => r
  | _ :: _ => (r.report .routedNoteOns n.val).strike m n c k plans

/-- The scene cue among the matches of a note-on: the first NEXT or PREV in bank order (R55). -/
def sceneCue (hits : List Layer) : Option Layer :=
  hits.find? fun e => e.action = .next || e.action = .prev

/-- What a scene cue asks for (R56). -/
def Layer.cueAsk (e : Layer) : SceneAsk := if e.action = .next then .next else .prev

/-- A note-on in SHOW (R47 to R57): legs, Note Table, then the scene cue and the tap. R55 leaves these two
unordered; the model makes the scene cue first (DESIGN CHOICE, log entry 33). -/
def State.routeNoteOn (s : State) (n : Input) (c : Chan) (k v : Seven) : State :=
  let hits := s.router.active.filter fun e => e.isMatch n c k v
  let x := s.rig.buildLegs s.moment s.router.echo s.router.active n c k v
  let s := s.setRig (x.1.routeLegs s.moment n c k x.2)
  let s := match sceneCue hits with
    | some e => s.cueRequest e.cueAsk e.cueTag
    | none => s
  if hits.any (fun e => e.action = .tap) then s.tap else s

/-! ### Continuous events (R58) -/

/-- The kind of a continuous event, with the controller number of a CONTROL. -/
def continuousKind : ContinuousEvent → ContinuousKind
  | .control number _ => .control number
  | .pressure _ => .pressure
  | .bend _ => .bend

/-- The value of a continuous event. -/
def continuousValue : ContinuousEvent → Fourteen
  | .control _ v => Fin.castLE (by decide) v
  | .pressure v => Fin.castLE (by decide) v
  | .bend v => v

/-- Whether a bank entry delivers continuous events of input `n` on channel `c` (R58). -/
def Layer.passes (e : Layer) (n : Input) (c : Chan) : Bool :=
  e.action = .route && e.passContinuous && e.hears n c

/-- The outputs and channels of the deliveries of one entry, after the echo rule, the enables and the
redirects (R58 steps 1 to 3). Deliveries change no enable and no redirect. -/
def Rig.deliveriesOf (r : Rig) (m : Moment) (echo : BitVec 4) (n : Input) (e : Layer) : List (Output × Chan) :=
  ((outputsOf e.outputs).filter fun o => !echoes echo n o && (r.out o).enabled).map fun o =>
    (o, r.redirected m o e.dest)

/-- A list with only the first of equal items kept, in order (R58 step 4). -/
def firstOnly {α : Type} [DecidableEq α] (l : List α) : List α :=
  l.foldl (fun acc x => if acc.contains x then acc else acc ++ [x]) []

/-- The deliveries of a continuous event: outputs and channels in bank order and output order, each once
(R58). -/
def Rig.deliveries (r : Rig) (m : Moment) (echo : BitVec 4) (bank : List Layer) (n : Input) (c : Chan) :
    List (Output × Chan) :=
  firstOnly ((bank.filter fun e => e.passes n c).flatMap fun e => r.deliveriesOf m echo n e)

/-- A continuous event in SHOW is offered to the bulk queue of each of its deliveries (R58). -/
def State.routeContinuous (s : State) (n : Input) (c : Chan) (e : ContinuousEvent) : State :=
  s.setRig ((s.rig.deliveries s.moment s.router.echo s.router.active n c).foldl
    (fun r d => r.offerBulk s.moment d.1 (continuousKind e) d.2 (continuousValue e)) s.rig)

end Sys2Proof.Machine
end

