-- ==== Sys2Proof/Machine/NotePorts.lean ====
section
/-! DEFINITION. The note inputs (chapter 2): the deframer, the delivery of events, and the meanings of the
commands of the instrument lines. -/
namespace Sys2Proof.Machine

/-! ### Kind octets (R20, R191) -/

/-- The timing octets (R20). -/
inductive TimingOctet where
  | clock
  | align
  | stop
deriving DecidableEq, Repr

/-- What an arriving octet is. -/
inductive OctetClass where
  | data (v : Seven)
  | channel (kind : ChannelKind) (c : Chan)
  | timing (t : TimingOctet)
  | opening
deriving DecidableEq, Repr

/-- The channel kind of the high four bits of a kind octet; Fh codes none (R191). -/
def channelKindOf : Nat → Option ChannelKind
  | 0x8 => some .noteOff
  | 0x9 => some .noteOn
  | 0xA => some .keyPressure
  | 0xB => some .control
  | 0xC => some .program
  | 0xD => some .pressure
  | 0xE => some .bend
  | _ => none

/-- The class of an octet from F0h to FFh (R191). -/
def systemClass : Nat → OctetClass
  | 0xF8 => .timing .clock
  | 0xFA => .timing .align
  | 0xFB => .timing .align
  | 0xFC => .timing .stop
  | _ => .opening

/-- The class of an octet (R20, R191). -/
def octetClass (b : Byte) : OctetClass :=
  if b.toNat < 128 then .data (Fin.ofNat 128 b.toNat)
  else match channelKindOf (b.toNat / 16) with
    | some kind => .channel kind (Fin.ofNat 16 b.toNat)
    | none => systemClass b.toNat

/-- Whether a channel kind has one data octet; the others have two (R191). -/
def ChannelKind.single : ChannelKind → Bool
  | .program => true
  | .pressure => true
  | _ => false

/-! ### Events and their delivery (R21, R26, R27) -/

/-- A complete event of an instrument line. -/
inductive LineEvent where
  | noteOn (k v : Seven)
  | noteOff (k : Seven)
  | continuous (e : ContinuousEvent)
  | program (p : Seven)
  | unused
deriving DecidableEq, Repr

/-- The event that data octets complete; a NOTE-ON of velocity 0 is a NOTE-OFF, and `y` is not read for a
kind of one data octet (R20, R21). -/
def assemble (kind : ChannelKind) (x y : Seven) : LineEvent :=
  match kind with
  | .noteOff => .noteOff x
  | .noteOn => if y.val = 0 then .noteOff x else .noteOn x y
  | .keyPressure => .unused
  | .control => .continuous (.control x y)
  | .program => .program x
  | .pressure => .continuous (.pressure x)
  | .bend => .continuous (.bend (Fin.ofNat 16384 (x.val + 128 * y.val)))

/-- Whether a continuous event is the sustain pedal: a CONTROL of the header's sustain controller number
(R26). -/
def isPedal (h : Header) : ContinuousEvent → Bool
  | .control number _ => number.val = h.sustainController
  | _ => false

/-- The value of a controller event as seven bits. -/
def pedalValue : ContinuousEvent → Seven
  | .control _ v => v
  | .pressure v => v
  | .bend v => Fin.ofNat 128 v.val

/-- A song select (R27): beyond the setlist it is captured as refused, with the program as the song and no scene
(R177), otherwise it is a GO SONG of origin CUE, whose refusal by R97 is captured with its resolved target (DESIGN
CHOICE, log entry 43). -/
def State.songSelect (s : State) (program : Seven) : State :=
  if s.mem.header.setlistLength ≤ program.val then
    s.record { emptyRecord s.time .changeRefused with
      origin := some .cue, song := some program.val, generation := some s.scene.generation,
      detail := some (.refused (.refusal .range)) }
  else s.cueRequest (.song program.val 0) 0

/-- An event of input `n` and channel `c` in SHOW (R26). -/
def State.deliverShow (s : State) (n : Input) (c : Chan) : LineEvent → State
  | .noteOn k v => s.routeNoteOn n c k v
  | .noteOff k => s.setRig (s.rig.liftKey s.moment n c k)
  | .continuous e =>
    if isPedal s.mem.header e then s.setRig (s.rig.movePedal s.moment n c (pedalValue e))
    else s.routeContinuous n c e
  | .program p => if s.mem.header.songSelect = some (c.val + 1) then s.songSelect p else s
  | .unused => s

/-- An event is delivered in SHOW and discarded in SETUP (R26). -/
def State.deliver (s : State) (n : Input) (c : Chan) (e : LineEvent) : State :=
  match s.scene.mode with
  | .showMode => s.deliverShow n c e
  | .setupMode => s

/-- A timing event of input `n`: a pulse or an alignment point when the requested source is CLOCK on that
input, otherwise consumed; STOP is always consumed (R28). -/
def State.timing (s : State) (n : Input) (t : TimingOctet) : State :=
  if s.tempo.source = .clock n then
    match t with
    | .clock => s.pulse
    | .align => s.align
    | .stop => s
  else s

/-! ### The deframer (R20 to R24) -/

/-- The deframer of input `n`. -/
def State.deframer (s : State) (n : Input) : Deframer := s.inputs[n]

/-- The deframer of input `n` takes the value `d`. -/
def State.setDeframer (s : State) (n : Input) (d : Deframer) : State := s.setInputs (s.inputs.set n d)

/-- A framing error of input `n` is reported when `b` holds (R24). -/
def State.framingErrorIf (s : State) (b : Bool) (n : Input) : State :=
  if b then s.report .framingErrors n.val else s

/-- A data octet arrives (R21, R23, R24). -/
def State.dataOctet (s : State) (n : Input) (v : Seven) : State :=
  let d := s.deframer n
  match d.kind with
  | .none => s.report .framingErrors n.val
  | .skip => s
  | .channel kind c =>
    if kind.single then s.deliver n c (assemble kind v v)
    else match d.held with
      | none => s.setDeframer n { d with held := some v }
      | some x => (s.setDeframer n { d with held := none }).deliver n c (assemble kind x v)

/-- Octet `b` arrives at input `n` (R20 to R24). -/
def State.octetArrives (s : State) (n : Input) (b : Byte) : State :=
  let cut := (s.deframer n).held.isSome
  match octetClass b with
  | .data v => s.dataOctet n v
  | .channel kind c => (s.setDeframer n ⟨.channel kind c, none⟩).framingErrorIf cut n
  | .opening => (s.setDeframer n ⟨.skip, none⟩).framingErrorIf cut n
  | .timing t => s.timing n t

/-- Whether an event of a kind and channel with first data octet `x` cuts short what the deframer holds:
it does not when the data held is that very octet of that very kind and channel. -/
def Deframer.cutBy (d : Deframer) (kind : ChannelKind) (c : Chan) (x : Seven) : Bool :=
  match d.held with
  | none => false
  | some y => !(decide (d.kind = .channel kind c) && y = x && !kind.single)

/-- The octets of an event arrive, those that have not arrived before, and the event is delivered (R21,
R24, R26; DESIGN CHOICE, log entry 6). -/
def State.eventArrives (s : State) (n : Input) (kind : ChannelKind) (c : Chan) (x y : Seven) : State :=
  ((s.setDeframer n ⟨.channel kind c, none⟩).framingErrorIf ((s.deframer n).cutBy kind c x) n).deliver n c
    (assemble kind x y)

/-- A continuous event arrives: its octets by its kind (R20, R58). -/
def State.continuousArrives (s : State) (n : Input) (c : Chan) : ContinuousEvent → State
  | .control number v => s.eventArrives n .control c number v
  | .pressure v => s.eventArrives n .pressure c v v
  | .bend v => s.eventArrives n .bend c (Fin.ofNat 128 v.val) (Fin.ofNat 128 (v.val / 128))

/-! ### The commands of the instrument lines -/

/-- NOTE_ON: a note-on arrives and is routed (R21, R26, R47 to R57, R62 to R64). -/
def execNoteOn (n : Input) (c : Chan) (k v : Seven) (s : State) : Host.Outcome State Fault Refusal :=
  whenLive (fun s => s.eventArrives n .noteOn c k v) s

/-- NOTE_OFF: a note-off arrives, as a NOTE-OFF or as a NOTE-ON of velocity 0 (R21, R26, R66). The release
value is read and discarded (R20). -/
def execNoteOff (n : Input) (c : Chan) (k : Seven) (asNoteOn : Bool) (s : State) :
    Host.Outcome State Fault Refusal :=
  whenLive (fun s => s.eventArrives n (if asNoteOn then .noteOn else .noteOff) c k 0) s

/-- SUSTAIN_PEDAL: a CONTROL of the header's sustain controller number arrives (R26, R67). -/
def execSustainPedal (n : Input) (c : Chan) (v : Seven) (s : State) : Host.Outcome State Fault Refusal :=
  whenLive (fun s => s.eventArrives n .control c (Fin.ofNat 128 s.mem.header.sustainController) v) s

/-- CONTINUOUS_EVENT: a CONTROL, PRESSURE or BEND event arrives (R26, R58). -/
def execContinuousEvent (n : Input) (c : Chan) (e : ContinuousEvent) (s : State) :
    Host.Outcome State Fault Refusal :=
  whenLive (fun s => s.continuousArrives n c e) s

/-- SONG_SELECT: a PROGRAM event arrives; on the song-select channel, in SHOW, it selects a song (R26,
R27). -/
def execSongSelect (n : Input) (c : Chan) (program : Seven) (s : State) : Host.Outcome State Fault Refusal :=
  whenLive (fun s => s.eventArrives n .program c program program) s

/-- CLOCK: a clock octet arrives (R22, R28, R130). -/
def execClock (n : Input) (s : State) : Host.Outcome State Fault Refusal :=
  whenLive (fun s => s.timing n .clock) s

/-- ALIGNMENT_POINT: a START or a CONTINUE octet arrives; both make the alignment point (R22, R28,
R130). -/
def execAlignmentPoint (n : Input) (kind : AlignKind) (s : State) : Host.Outcome State Fault Refusal :=
  whenLive (fun s => match kind with
    | .startOctet => s.timing n .align
    | .continueOctet => s.timing n .align) s

/-- STOP: a stop octet arrives and is consumed (R22, R26, R28). -/
def execStop (n : Input) (s : State) : Host.Outcome State Fault Refusal :=
  whenLive (fun s => s.timing n .stop) s

/-- INPUT_OCTET: an octet arrives and is decoded (R20 to R24). -/
def execInputOctet (n : Input) (b : Byte) (s : State) : Host.Outcome State Fault Refusal :=
  whenLive (fun s => s.octetArrives n b) s

end Sys2Proof.Machine
end

