-- ==== Sys2Proof/Machine/SetRequests.lean ====
section
/-! DEFINITION. The requests of the set memory (chapter 1, R10 to R18, and the answers of R163): SET WRITE
in its forms, SET READ and SET DIGEST. Also the handling of a port's oldest request, which every request
row shares. -/
namespace Sys2Proof.Machine

/-- The oldest request of port `p` is handled by `h` when it is of the row `row`; otherwise nothing is
handled, since the row of a request is that of its frame (R163; log entry 5). -/
def State.serve (s : State) (p : Port) (row : RequestRow) (h : Request → State → State) : State :=
  match (s.port p).requests with
  | [] => s
  | r :: _ => if classify p r = row then h r s else s

/-- A stored write into digest kind `kind` marks a running digest that has selected the kind (R17). -/
def SetMemory.disturb (m : SetMemory) (kind : Nat) : SetMemory :=
  { m with digest := m.digest.map fun d =>
      { d with disturbed := d.disturbed || d.kinds.getLsbD kind } }

/-- The set memory after a SET WRITE of a header, song, scene, layer or pattern, or the status that refuses
it, by the checks of R10 and R11 in order. -/
def SetMemory.writeRecord (m : SetMemory) (mode : Mode) (kind i : Nat) (body : List Byte) :
    Except Status SetMemory :=
  match kind with
  | 0 =>
    if i = 0 then match decodeHeader body with
      | none => .error .range
      | some h => if mode = .showMode then .error .inUse else .ok { m with header := h }
    else .error .range
  | 1 =>
    if i < 64 then match decodeSong body with
      | none => .error .range
      | some r => .ok { m with songs := Store.write Song.empty m.songs i r }
    else .error .range
  | 2 =>
    if i < 256 then match decodeScene body with
      | none => .error .range
      | some r =>
        if m.sceneHeld i then .error .inUse
        else .ok { m with scenes := Store.write Scene.empty m.scenes i r }
    else .error .range
  | 3 =>
    if i < 1024 then match decodeLayer body with
      | none => .error .range
      | some r =>
        if m.layerHeld i then .error .inUse
        else .ok { m with layers := Store.write Layer.empty m.layers i r }
    else .error .range
  | 4 =>
    if i < 16 then match decodePattern body with
      | none => .error .range
      | some r => .ok { m with patterns := Store.write Pattern.empty m.patterns i r }
    else .error .range
  | _ => .error .range

/-- SET WRITE of a whole record (R10, R11, R17). -/
def State.setWriteRequest (p : Port) (r : Request) (s : State) : State :=
  match s.mem.writeRecord s.scene.mode r.recordKind r.recordIndex r.body with
  | .error st => s.answer p st []
  | .ok m => (s.answer p .done []).setMem (m.disturb r.recordKind)

/-- A part of click sound `i` has been stored: the digest is marked and the voices playing the sound stop
(R13, R17). -/
def State.storeSound (s : State) (m : SetMemory) (i : Fin 4) : State :=
  (s.setMem (m.disturb 5)).setClick (s.click.stopSound i)

/-- SET WRITE in the length form (R13). -/
def State.soundLengthRequest (p : Port) (r : Request) (s : State) : State :=
  match decodeIndex 4 r.recordIndex, decodeSoundLength r.body with
  | some i, some len =>
    (s.answer p .done []).storeSound { s.mem with soundLengths := s.mem.soundLengths.set i len } i
  | _, _ => s.answer p .range []

/-- Samples are stored in consecutive places from `place` on. -/
def writeSamples : Nat → List (BitVec 16) → Store (BitVec 16) → Store (BitVec 16)
  | _, [], m => m
  | place, v :: vs, m => writeSamples (place + 1) vs (Store.write 0 m place v)

/-- The offset of a samples body. -/
def Request.sampleOffset (r : Request) : Nat := fieldLE r.payload 3 2
/-- The count of a samples body. -/
def Request.sampleCount (r : Request) : Nat := fieldLE r.payload 5 1

/-- SET WRITE in the samples form (R13). -/
def State.soundSamplesRequest (p : Port) (r : Request) (s : State) : State :=
  match decodeIndex 4 r.recordIndex with
  | none => s.answer p .range []
  | some i =>
    if samplesFit r.sampleOffset r.sampleCount then
      let samples := writeSamples (Config.samplePlaces * i.val + r.sampleOffset)
        (decodeSamples r.sampleCount (r.payload.drop 6)) s.mem.samples
      (s.answer p .done []).storeSound { s.mem with samples := samples } i
    else s.answer p .range []

/-- The body that SET READ returns for a record, when kind and index lie within the table of R1 (R14,
R189). -/
def SetMemory.readBody (m : SetMemory) (r : Request) : Option (List Byte) :=
  let i := r.recordIndex
  match r.recordKind with
  | 0 => if i = 0 then some (wordOctets m.header.words) else none
  | 1 => if i < 64 then some (wordOctets (m.song i).words) else none
  | 2 => if i < 256 then some (m.scene i).packed else none
  | 3 => if i < 1024 then some (wordOctets (m.layer i).words) else none
  | 4 => if i < 16 then some (wordOctets (m.pattern i).words) else none
  | 5 => (decodeIndex 4 i).map fun k => wordOctets [lengthWord (m.soundLength k)]
  | 6 =>
    match decodeIndex 4 i with
    | none => none
    | some k =>
      if samplesFit r.sampleOffset r.sampleCount then some (m.samplesBody k r.sampleOffset r.sampleCount)
      else none
  | _ => none

/-- SET READ (R14, R188). -/
def State.setReadRequest (p : Port) (r : Request) (s : State) : State :=
  match s.mem.readBody r with
  | none => s.answer p .range []
  | some body => s.answer p .done (octet r.recordKind :: (octetsLE 2 r.recordIndex ++ body))

/-- A digest that has just been started (R16). -/
def Digest.begin (p : Port) (kinds : BitVec 6) : Digest := ⟨p, kinds, 0, 0, false, false⟩

/-- SET DIGEST (R16). -/
def State.setDigestRequest (p : Port) (r : Request) (s : State) : State :=
  match s.mem.digest with
  | some _ => s.answer p .busy []
  | none =>
    (s.answer p .done []).setMem
      { s.mem with digest := some (Digest.begin p (BitVec.ofNat 6 (r.octetAt 0))) }

/-- SET_WRITE: the oldest request of port `p`, a SET WRITE of a whole record, is answered (R10). -/
def execSetWrite (p : Port) (s : State) : Host.Outcome State Fault Refusal :=
  whenLive (fun s => s.serve p .setWrite (State.setWriteRequest p)) s

/-- SET_WRITE_SOUND_LENGTH (R13). -/
def execSetWriteSoundLength (p : Port) (s : State) : Host.Outcome State Fault Refusal :=
  whenLive (fun s => s.serve p .soundLength (State.soundLengthRequest p)) s

/-- SET_WRITE_SOUND_SAMPLES (R13). -/
def execSetWriteSoundSamples (p : Port) (s : State) : Host.Outcome State Fault Refusal :=
  whenLive (fun s => s.serve p .soundSamples (State.soundSamplesRequest p)) s

/-- SET_READ (R14). -/
def execSetRead (p : Port) (s : State) : Host.Outcome State Fault Refusal :=
  whenLive (fun s => s.serve p .setRead (State.setReadRequest p)) s

/-- SET_DIGEST (R16). -/
def execSetDigest (p : Port) (s : State) : Host.Outcome State Fault Refusal :=
  whenLive (fun s => s.serve p .setDigest (State.setDigestRequest p)) s

end Sys2Proof.Machine
end

