-- ==== Sys2Proof/Machine/SceneRequests.lean ====
section
/-! DEFINITION. The requests of the Scene Engine (chapter 6): GO SONG, GO SCENE, GO NEXT, GO PREV, CANCEL,
FREEZE, THAW and STEP. -/
namespace Sys2Proof.Machine

/-- A scene request of port `p` is answered by R97: an accepted one with DONE, and then it enters the slot;
a refused one with its status. An unassigned quantize code is refused RANGE (R188). -/
def State.portRequest (s : State) (p : Port) (ask : SceneAsk) (quantize : Nat) : State :=
  match decodeQuantize quantize with
  | none => s.answer p .range []
  | some q =>
    match s.judge (portOrigin p) ask with
    | .error e => s.answer p e.status []
    | .ok t => (s.answer p .done []).accept (portOrigin p) t q 0

/-- The scene octet of GO SONG: FFh is absent, which names scene 0 (R100, R188). -/
def sceneOrFirst (v : Nat) : Nat := if v = 255 then 0 else v

/-- GO SONG (R100). -/
def State.goSongRequest (p : Port) (r : Request) (s : State) : State :=
  s.portRequest p (.song (r.octetAt 0) (sceneOrFirst (r.octetAt 1))) (r.octetAt 2)

/-- GO SCENE (R100). -/
def State.goSceneRequest (p : Port) (r : Request) (s : State) : State :=
  s.portRequest p (.scene (r.octetAt 0)) (r.octetAt 1)

/-- GO NEXT (R101). -/
def State.goNextRequest (p : Port) (r : Request) (s : State) : State :=
  s.portRequest p .next (r.octetAt 0)

/-- GO PREV (R101). -/
def State.goPrevRequest (p : Port) (r : Request) (s : State) : State :=
  s.portRequest p .prev (r.octetAt 0)

/-- CANCEL (R102). -/
def State.cancelRequest (p : Port) (_ : Request) (s : State) : State :=
  if s.scene.mode ≠ .showMode then s.answer p .mode []
  else match s.scene.staged with
    | none => s.answer p .none []
    | some c =>
      if s.rank (portOrigin p) < c.rank then s.answer p .outranked []
      else ((s.answer p .done []).dropStaged).reportSuperseded c .cancelled

/-- The frozen mark takes the value `b`. -/
def State.setFrozen (s : State) (b : Bool) : State := s.setScene { s.scene with frozen := b }

/-- FREEZE (R103). -/
def State.freezeRequest (p : Port) (_ : Request) (s : State) : State :=
  if s.scene.mode ≠ .showMode then s.answer p .mode [] else (s.answer p .done []).setFrozen true

/-- The frozen mark clears, and a READY change of quantize IMMEDIATE is taken (R103, R108). -/
def State.thaw (s : State) : State :=
  let s := s.setFrozen false
  match s.scene.takeable (fun q => q = .immediate) with
  | some c => s.take c
  | none => s

/-- THAW (R103). -/
def State.thawRequest (p : Port) (_ : Request) (s : State) : State :=
  if s.scene.mode ≠ .showMode then s.answer p .mode []
  else if s.scene.frozen then (s.answer p .done []).thaw
  else s.answer p .done []

/-- STEP (R104): the take is complete before the request is answered. -/
def State.stepRequest (p : Port) (_ : Request) (s : State) : State :=
  if s.scene.mode ≠ .showMode then s.answer p .mode []
  else match s.scene.staged with
    | none => s.answer p .none []
    | some c => if c.preparation = .ready then (s.take c).answer p .done [] else s.answer p .none []

/-- GO_SONG (R100). -/
def execGoSong (p : Port) (s : State) : Host.Outcome State Fault Refusal :=
  whenLive (fun s => s.serve p .goSong (State.goSongRequest p)) s

/-- GO_SCENE (R100). -/
def execGoScene (p : Port) (s : State) : Host.Outcome State Fault Refusal :=
  whenLive (fun s => s.serve p .goScene (State.goSceneRequest p)) s

/-- GO_NEXT (R101). -/
def execGoNext (p : Port) (s : State) : Host.Outcome State Fault Refusal :=
  whenLive (fun s => s.serve p .goNext (State.goNextRequest p)) s

/-- GO_PREV (R101). -/
def execGoPrev (p : Port) (s : State) : Host.Outcome State Fault Refusal :=
  whenLive (fun s => s.serve p .goPrev (State.goPrevRequest p)) s

/-- CANCEL (R102). -/
def execCancel (p : Port) (s : State) : Host.Outcome State Fault Refusal :=
  whenLive (fun s => s.serve p .cancel (State.cancelRequest p)) s

/-- FREEZE (R103). -/
def execFreeze (p : Port) (s : State) : Host.Outcome State Fault Refusal :=
  whenLive (fun s => s.serve p .freeze (State.freezeRequest p)) s

/-- THAW (R103). -/
def execThaw (p : Port) (s : State) : Host.Outcome State Fault Refusal :=
  whenLive (fun s => s.serve p .thaw (State.thawRequest p)) s

/-- STEP (R104). -/
def execStep (p : Port) (s : State) : Host.Outcome State Fault Refusal :=
  whenLive (fun s => s.serve p .step (State.stepRequest p)) s

end Sys2Proof.Machine
end

