-- ==== Sys2Proof/Machine/ModeRequests.lean ====
section
/-! DEFINITION. ENTER SHOW, ENTER SETUP and RESTART (chapter 11). -/
namespace Sys2Proof.Machine

/-- The mode takes the value `m`. -/
def State.setMode (s : State) (m : Mode) : State := s.setScene { s.scene with mode := m }

/-- A change of mode is reported: a MODE notice to both ports and a MODE record (R118, R182). -/
def State.reportMode (s : State) : State :=
  (s.raise (.mode s.scene.mode)).record
    { emptyRecord s.time .mode with detail := some (.mode s.scene.mode) }

/-- ENTER SHOW (R117, R182). -/
def State.enterShowRequest (p : Port) (_ : Request) (s : State) : State :=
  if s.scene.mode = .showMode then s.answer p .mode []
  else if s.mem.header.setlistLength = 0 then s.answer p .empty []
  else (((s.setMode .showMode).answer p .done []).reportMode).modeRequest

/-- Stages 1 to 5 of ENTER SETUP: notes, staged slot, banks, scene and position, mode (R118). -/
def State.leaveShow (s : State) : State :=
  (((s.setRig (s.rig.leaveShow s.moment)).setMem { s.mem with underCopy := none }).setRouter
      Router.clear).setScene
    { s.scene with staged := none, current := none, frozen := false, position := Position.clear,
                   meter := 4, mode := .setupMode }

/-- ENTER SETUP (R118, R183). -/
def State.enterSetupRequest (p : Port) (_ : Request) (s : State) : State :=
  if s.scene.mode = .setupMode then s.answer p .mode []
  else (s.leaveShow.answer p .done []).reportMode

/-- The Scene Engine after RESTART: the generation is kept (R119). -/
def SceneEngine.restart (e : SceneEngine) : SceneEngine :=
  { SceneEngine.pinReset with generation := e.generation }

/-- Counters and capture list after RESTART; the ports are kept (R172, R181). -/
def Desk.restart (d : Desk) : Desk :=
  { d with counters := Vector.replicate 4 Counter.clear, capture := Capture.clear }

/-- Stages 1 and 2 of RESTART: Scene Engine, set memory and router (R184). -/
def State.restartScene (s : State) : State :=
  ((s.setScene s.scene.restart).setMem { s.mem with underCopy := none }).setRouter Router.clear

/-- Stages 3 to 5 of RESTART: Note Table, Channel Table and Note Port Unit (R184). -/
def State.restartNotes (s : State) : State :=
  (s.setInputs (Vector.replicate 4 Deframer.clear)).setRig (s.rig.restart s.moment)

/-- Stages 6 to 8 of RESTART: Tempo Engine, Click Generator, counters and capture list (R184). -/
def State.restartRest (s : State) : State :=
  ((s.setTempo (s.tempo.restart s.mem.header.followShift)).setClick (s.click.restart s.mem)).setDesk
    s.desk.restart

/-- RESTART (R184): its eight stages, the answer, and the MODE notice. -/
def State.restartRequest (p : Port) (_ : Request) (s : State) : State :=
  let s := s.restartScene.restartNotes.restartRest
  (s.answer p .done []).raise (.mode .setupMode)

/-- ENTER_SHOW (R182). -/
def execEnterShow (p : Port) (s : State) : Host.Outcome State Fault Refusal :=
  whenLive (fun s => s.serve p .enterShow (State.enterShowRequest p)) s

/-- ENTER_SETUP (R118). -/
def execEnterSetup (p : Port) (s : State) : Host.Outcome State Fault Refusal :=
  whenLive (fun s => s.serve p .enterSetup (State.enterSetupRequest p)) s

/-- RESTART (R184). -/
def execRestart (p : Port) (s : State) : Host.Outcome State Fault Refusal :=
  whenLive (fun s => s.serve p .restart (State.restartRequest p)) s

end Sys2Proof.Machine
end

