-- ==== Sys2Proof/Machine/TempoRequests.lean ====
section
/-! DEFINITION. The requests of the Tempo Engine (chapter 7): TEMPO SOURCE, TEMPO SET, TRIM, TAP and BEAT
MARK. -/
namespace Sys2Proof.Machine

/-- The source state that a selection enters (R129). -/
def Source.entered : Source → SourceState
  | .internal => .free
  | .clock _ => .acquiring
  | .sync _ => .acquiring
  | .mark => .acquiring

/-- The Tempo Engine after a selection (R129). -/
def Tempo.select (t : Tempo) (src : Source) (shift : Option Nat) : Tempo :=
  { t with followShift := shift.getD t.followShift, taps := [], lastTap := none, source := src,
           state := src.entered, reference := Reference.clear }.recompute

/-- The follow-shift octet of TEMPO SOURCE: FFh is absent; a value above 4 gives none outside (R129,
R188). -/
def decodeShift (v : Nat) : Option (Option Nat) :=
  if v = 255 then some none else if v ≤ 4 then some (some v) else none

/-- A selection made and reported: a LOCK notice always, a LOCK CHANGE record when the state changed
(R139). -/
def State.selectSource (s : State) (src : Source) (shift : Option Nat) : State :=
  let t := s.tempo.select src shift
  if s.tempo.state = t.state then (s.setTempo t).raise (.lock t.state t.source t.base)
  else (s.setTempo t).reportLock

/-- TEMPO SOURCE (R129). -/
def State.tempoSourceRequest (p : Port) (r : Request) (s : State) : State :=
  match decodeSource (r.octetAt 0) (r.octetAt 1), decodeShift (r.octetAt 2) with
  | some src, some shift => (s.answer p .done []).selectSource src shift
  | _, _ => s.answer p .range []

/-- TEMPO SET (R126). -/
def State.tempoSetRequest (p : Port) (r : Request) (s : State) : State :=
  let v := fieldLE r.payload 0 2
  if v < 2000 || 30000 < v then s.answer p .range []
  else if s.tempo.state ≠ .free then s.answer p .source []
  else (s.answer p .done []).setTempo { s.tempo with base := v }.recompute

/-- TRIM (R127). -/
def State.trimRequest (p : Port) (r : Request) (s : State) : State :=
  let v := signedField (fieldLE r.payload 0 2) 16
  if v < -200 || 200 < v then s.answer p .range []
  else (s.answer p .done []).setTempo { s.tempo with trim := v }.recompute

/-- The answer to a TAP taken now (R141). -/
def State.tapStatus (s : State) : Status := if s.tempo.state = .free then .done else .source

/-- The answer to a BEAT MARK taken now (R142). -/
def State.markStatus (s : State) : Status := if s.tempo.source = .mark then .done else .source

/-- TAP: answered with the status decided when its frame completed (R141, R163). -/
def State.tapRequest (p : Port) (r : Request) (s : State) : State :=
  s.answer p (r.decided.getD s.tapStatus) []

/-- BEAT MARK: answered with the status decided when its frame completed (R142, R163). -/
def State.beatMarkRequest (p : Port) (r : Request) (s : State) : State :=
  s.answer p (r.decided.getD s.markStatus) []

/-- TEMPO_SOURCE (R129). -/
def execTempoSource (p : Port) (s : State) : Host.Outcome State Fault Refusal :=
  whenLive (fun s => s.serve p .tempoSource (State.tempoSourceRequest p)) s

/-- TEMPO_SET (R126). -/
def execTempoSet (p : Port) (s : State) : Host.Outcome State Fault Refusal :=
  whenLive (fun s => s.serve p .tempoSet (State.tempoSetRequest p)) s

/-- TRIM (R127). -/
def execTrim (p : Port) (s : State) : Host.Outcome State Fault Refusal :=
  whenLive (fun s => s.serve p .trim (State.trimRequest p)) s

/-- TAP (R141, R163). -/
def execTap (p : Port) (s : State) : Host.Outcome State Fault Refusal :=
  whenLive (fun s => s.serve p .tap (State.tapRequest p)) s

/-- BEAT_MARK (R142, R163). -/
def execBeatMark (s : State) : Host.Outcome State Fault Refusal :=
  whenLive (fun s => s.serve .showPort .beatMark (State.beatMarkRequest .showPort)) s

end Sys2Proof.Machine
end

