-- ==== Sys2Proof/Machine/OutputRequests.lean ====
section
/-! DEFINITION. The requests of the note outputs and of the Click Generator: OUTPUT ENABLE, CRITICAL LEVEL,
PANIC, CLICK LEVEL and CLICK MUTE. -/
namespace Sys2Proof.Machine

/-- The outputs in the mask become enabled and the others disabled (R39). -/
def Rig.enableMask (r : Rig) (m : Moment) (mask : BitVec 6) : Rig :=
  allOutputs.foldl (fun r o => r.setEnable m o (mask.getLsbD o.val)) r

/-- OUTPUT ENABLE (R39). -/
def State.outputEnableRequest (p : Port) (r : Request) (s : State) : State :=
  let s := s.answer p .done []
  s.setRig (s.rig.enableMask s.moment (BitVec.ofNat 6 (r.octetAt 0)))

/-- A critical level is stored, and the critical flag clears when the urgent length is at or below it
(R37). -/
def Rig.setLevel (r : Rig) (o : Output) (level : Nat) : Rig :=
  let q := r.out o
  r.setOut o { q with level := level, critical := q.critical && level < q.urgent.length }

/-- CRITICAL LEVEL (R37). -/
def State.criticalLevelRequest (p : Port) (r : Request) (s : State) : State :=
  match decodeIndex 6 (r.octetAt 0) with
  | none => s.answer p .range []
  | some o =>
    if r.octetAt 1 < 1 || 48 < r.octetAt 1 then s.answer p .range []
    else
      let s := s.answer p .done []
      s.setRig (s.rig.setLevel o (r.octetAt 1))

/-- The cause of a panic that port `p` requests (R74). -/
def panicCauseOf : Port → PanicCause
  | .panelPort => .panelRequest
  | .showPort => .showRequest

/-- A panic (R74). -/
def State.panic (s : State) (cause : PanicCause) : State := s.setRig (s.rig.panic s.moment cause)

/-- PANIC (R73, R74, R164). -/
def State.panicRequest (p : Port) (_ : Request) (s : State) : State :=
  (s.answer p .done []).panic (panicCauseOf p)

/-- CLICK LEVEL (R153). -/
def State.clickLevelRequest (p : Port) (r : Request) (s : State) : State :=
  let v := fieldLE r.payload 0 2
  if 32767 < v then s.answer p .range []
  else (s.answer p .done []).setClick { s.click with master := v }

/-- CLICK MUTE: bit 0 is ON (R153, R188). -/
def State.clickMuteRequest (p : Port) (r : Request) (s : State) : State :=
  (s.answer p .done []).setClick { s.click with mute := r.octetAt 0 % 2 = 1 }

/-- OUTPUT_ENABLE (R39). -/
def execOutputEnable (p : Port) (s : State) : Host.Outcome State Fault Refusal :=
  whenLive (fun s => s.serve p .outputEnable (State.outputEnableRequest p)) s

/-- CRITICAL_LEVEL (R37). -/
def execCriticalLevel (p : Port) (s : State) : Host.Outcome State Fault Refusal :=
  whenLive (fun s => s.serve p .criticalLevel (State.criticalLevelRequest p)) s

/-- PANIC (R73, R74). -/
def execPanic (p : Port) (s : State) : Host.Outcome State Fault Refusal :=
  whenLive (fun s => s.serve p .panic (State.panicRequest p)) s

/-- CLICK_LEVEL (R153). -/
def execClickLevel (p : Port) (s : State) : Host.Outcome State Fault Refusal :=
  whenLive (fun s => s.serve p .clickLevel (State.clickLevelRequest p)) s

/-- CLICK_MUTE (R153). -/
def execClickMute (p : Port) (s : State) : Host.Outcome State Fault Refusal :=
  whenLive (fun s => s.serve p .clickMute (State.clickMuteRequest p)) s

end Sys2Proof.Machine
end

