-- ==== Sys2Proof/Machine/DeskRequests.lean ====
section
/-! DEFINITION. The requests of the counters, the capture list and the ports: COUNTER SET and READ, CAPTURE
ARM and READ, STATUS, SUBSCRIBE, and the frames answered LENGTH or UNKNOWN (chapters 9 and 10). -/
namespace Sys2Proof.Machine

/-! ### Counters (R174 to R176) -/

/-- The port mask a counter stores for a select and a mask octet; none when the mask names a port outside
the set of the select's kind (R176). R188 gives the mask one octet and no layout of its bits: the model reads bit
i as input Ni for an input event and as output Oi for an output event, and a bit above the last port of the set
is refused (DESIGN CHOICE, log entry 40). -/
def storedMask (select : Option CounterEvent) (mask : Nat) : Option (BitVec 8) :=
  match select with
  | none => some 0
  | some ev =>
    if ev.portCount = 0 then some 0
    else if mask < 2 ^ ev.portCount then some (BitVec.ofNat 8 mask) else none

/-- A counter as COUNTER SET leaves it; none when a field is refused (R176). -/
def counterOf (r : Request) : Option Counter :=
  match decodeSelect (r.octetAt 1) with
  | none => none
  | some select =>
    (storedMask select (r.octetAt 2)).map fun mask =>
      ⟨select, mask, BitVec.ofNat 32 (fieldLE r.payload 3 4), 0, false⟩

/-- Counter `i` takes the value `k`. -/
def Desk.setCounter (d : Desk) (i : Fin 4) (k : Counter) : Desk :=
  { d with counters := d.counters.set i k }

/-- COUNTER SET (R176). -/
def State.counterSetRequest (p : Port) (r : Request) (s : State) : State :=
  match decodeIndex 4 (r.octetAt 0), counterOf r with
  | some i, some k =>
    let s := s.answer p .done []
    s.setDesk (s.desk.setCounter i k)
  | _, _ => s.answer p .range []

/-- The code of an event select: 0 is NONE (R188). -/
def selectCode (select : Option CounterEvent) : Nat := (select.map CounterEvent.code).getD 0

/-- The octet of a mark in STATUS and COUNTER READ: 1 when set, 0 when clear. R188 names the marks and gives
no code (DEDUCED from its other two-valued octets, log entry 36). -/
def markOctet (mark : Bool) : Byte := if mark then 1 else 0

/-- The payload of COUNTER READ (R188; the reached mark as `markOctet` has it). -/
def Counter.report (k : Counter) (i : Fin 4) : List Byte :=
  [octet i.val, octet (selectCode k.select), k.ports] ++ octetsLE 4 k.threshold.toNat ++
    octetsLE 4 k.value.toNat ++ [markOctet k.reachedMark]

/-- COUNTER READ (R176). -/
def State.counterReadRequest (p : Port) (r : Request) (s : State) : State :=
  match decodeIndex 4 (r.octetAt 0) with
  | none => s.answer p .range []
  | some i => s.answer p .done ((s.desk.counters[i]).report i)

/-! ### Capture list (R177 to R180) -/

/-- The places from `start` to 31 are made empty (R179). -/
def clearFrom (places : Vector (Option CaptureRecord) 32) (start : Nat) : Vector (Option CaptureRecord) 32 :=
  ⟨⟨places.toList.take start ++ List.replicate (32 - start) none⟩, by simp; omega⟩

/-- The capture list after a CAPTURE ARM (R179). -/
def Capture.arm (l : Capture) (start : Nat) (kinds : BitVec 9) : Capture :=
  { places := clearFrom l.places start, index := start, kinds := kinds
    state := if kinds = 0 then .disarmed else .armed }

/-- CAPTURE ARM (R179). -/
def State.captureArmRequest (p : Port) (r : Request) (s : State) : State :=
  let start := r.octetAt 0
  let kinds := fieldLE r.payload 1 2
  if 31 < start || 512 ≤ kinds then s.answer p .range []
  else
    let s := s.answer p .done []
    s.setDesk { s.desk with capture := s.desk.capture.arm start (BitVec.ofNat 9 kinds) }

/-- Capture-state codes (R188). -/
def CaptureState.code : CaptureState → Byte
  | .disarmed => 0
  | .armed => 1
  | .full => 2

/-- The origin-or-output octet of a capture record: a record has at most one of the two (R177). -/
def CaptureRecord.sideOctet (x : CaptureRecord) : Byte :=
  match x.origin, x.output with
  | some g, _ => g.code
  | none, some o => octet o.val
  | none, none => 0xFF

/-- The octets of a place of the list from its stage time on (R188). -/
def placeOctets : Option CaptureRecord → List Byte
  | none => [0, 0, 0, 0, 0xFF, 0xFF, 0xFF, 0xFF, 0, 0, 0, 0xFF, 0]
  | some x =>
    octetsLE 4 x.time.toNat ++ [octet x.kind.bit, x.sideOctet, optOctet x.song, optOctet x.scene] ++
      octetsLE 2 ((x.generation.map BitVec.toNat).getD 0) ++
      [octet (optChan x.channel), optFF Detail.code x.detail, x.cueTag]

/-- The payload of CAPTURE READ of place `i` (R180, R188). -/
def Capture.report (l : Capture) (i : Fin 32) : List Byte :=
  [octet i.val, l.state.code, octet l.index] ++ octetsLE 2 l.kinds.toNat ++ placeOctets l.places[i]

/-- CAPTURE READ (R180). -/
def State.captureReadRequest (p : Port) (r : Request) (s : State) : State :=
  match decodeIndex 32 (r.octetAt 0) with
  | none => s.answer p .range []
  | some i => s.answer p .done (s.desk.capture.report i)

/-! ### STATUS and SUBSCRIBE (R167, R171) -/

/-- The current scene of a status report: song, scene and record. -/
def currentOctets : Option Target → List Byte
  | none => [0xFF, 0xFF, 0]
  | some t => [octet t.song, octet t.scene, octet t.record]

/-- The staged slot of a status report: slot state, target song and scene, origin, rank and quantize. -/
def slotOctets : Option Change → List Byte
  | none => [0, 0xFF, 0xFF, 0xFF, 0, 0]
  | some c =>
    [(match c.preparation with
      | .preparing => 1
      | .ready => 2), octet c.target.song, octet c.target.scene, c.origin.code, octet c.rank, c.quantize.code]

/-- Bits as an octet: bit 0 tempo clamped, bit 1 audio clock missing, bit 2 lost notices. -/
def flagsOctet (clamped missing lost : Bool) : Byte :=
  octet ((if clamped then 1 else 0) + (if missing then 2 else 0) + (if lost then 4 else 0))

/-- Whether the AUDIO CLOCK MISSING flag is set (R155). -/
def ClickGen.missing (g : ClickGen) : Bool := g.audio = .missing

/-- The Scene Engine's part of a status report, the frozen mark as `markOctet` has it. -/
def SceneEngine.report (e : SceneEngine) : List Byte :=
  [e.mode.code] ++ currentOctets e.current ++ octetsLE 2 e.generation.toNat ++ slotOctets e.staged ++
    [markOctet e.frozen, optOctet e.position.song] ++ octetsLE 2 (unsignedCode e.position.bar 16) ++
    [octet e.position.beat]

/-- The Tempo Engine's part of a status report. -/
def Tempo.report (t : Tempo) : List Byte :=
  octetsLE 2 t.base ++ octetsLE 2 t.effective ++ octetsLE 2 (unsignedCode t.trim 16) ++
    [octet t.source.kindCode, octet t.source.parameter, octet t.state.code] ++ octetsLE 4 t.ownBeats.toNat ++
    octetsLE 4 t.refBeats.toNat

/-- The payload of STATUS at port `p` (R171, R188). -/
def State.statusReport (s : State) (p : Port) : List Byte :=
  s.scene.report ++ s.tempo.report ++
    [flagsOctet s.tempo.clamped s.click.missing (s.port p).lostNotice] ++
    octetsLE 2 (s.port p).shortFrames.toNat

/-- STATUS: the report, and then the port's lost-notice flag clears (R171). -/
def State.statusRequest (p : Port) (_ : Request) (s : State) : State :=
  let s := s.answer p .done (s.statusReport p)
  s.setPort p { s.port p with lostNotice := false }

/-- SUBSCRIBE: bits 0 to 8 become the port's marks (R167, R188). -/
def State.subscribeRequest (p : Port) (r : Request) (s : State) : State :=
  let s := s.answer p .done []
  s.setPort p { s.port p with marks := BitVec.ofNat 9 (fieldLE r.payload 0 2) }

/-! ### Frames turned away (R163) -/

/-- The oldest request of port `p` is answered LENGTH or UNKNOWN when the checks of R163 turn it away, and
has no effect. -/
def State.turnAway (s : State) (p : Port) : State :=
  match (s.port p).requests with
  | [] => s
  | r :: _ =>
    match classify p r with
    | .turnedAway st => s.answer p st []
    | _ => s

/-- COUNTER_SET (R176). -/
def execCounterSet (p : Port) (s : State) : Host.Outcome State Fault Refusal :=
  whenLive (fun s => s.serve p .counterSet (State.counterSetRequest p)) s

/-- COUNTER_READ (R176). -/
def execCounterRead (p : Port) (s : State) : Host.Outcome State Fault Refusal :=
  whenLive (fun s => s.serve p .counterRead (State.counterReadRequest p)) s

/-- CAPTURE_ARM (R179). -/
def execCaptureArm (p : Port) (s : State) : Host.Outcome State Fault Refusal :=
  whenLive (fun s => s.serve p .captureArm (State.captureArmRequest p)) s

/-- CAPTURE_READ (R180). -/
def execCaptureRead (p : Port) (s : State) : Host.Outcome State Fault Refusal :=
  whenLive (fun s => s.serve p .captureRead (State.captureReadRequest p)) s

/-- STATUS (R171). -/
def execStatus (p : Port) (s : State) : Host.Outcome State Fault Refusal :=
  whenLive (fun s => s.serve p .status (State.statusRequest p)) s

/-- SUBSCRIBE (R167). -/
def execSubscribe (p : Port) (s : State) : Host.Outcome State Fault Refusal :=
  whenLive (fun s => s.serve p .subscribe (State.subscribeRequest p)) s

/-- UNKNOWN_REQUEST (R163). -/
def execUnknownRequest (p : Port) (s : State) : Host.Outcome State Fault Refusal :=
  whenLive (fun s => s.turnAway p) s

end Sys2Proof.Machine
end

