-- ==== Sys2Proof/Machine/Transfers.lean ====
section
/-! DEFINITION. The transfers of the control ports (R159 to R163, R166): chip-select falls and rises. -/
namespace Sys2Proof.Machine

/-- Chip-select falls: an idle port begins a transfer of the head of its outbound queue, or of idle fill
(R159). DESIGN CHOICE (log entry 39): the spec gives a fall at an IDLE port only; a port still IN TRANSFER, whose
rise was lost while the crystal was absent (R186), goes on with the transfer it is in. -/
def PortState.beginTransfer (x : PortState) : PortState :=
  match x.transfer with
  | .idle => { x with transfer := .inTransfer [] (if x.outbound.isEmpty then .idleFill else .queuedFrame) }
  | .inTransfer _ _ => x

/-- Whether the inbound side carries a frame: its first octet is not 0 (R159). -/
def carriesFrame : List Byte → Bool
  | [] => false
  | b :: _ => b ≠ 0

/-- The octets that a transfer of `clocked` octets shifts out: those of the head of the outbound queue, or of
idle fill, a length octet of 0, and octets of 0 for as long as the master goes on clocking (R159). -/
def PortState.shiftedOut (x : PortState) (side : OutboundSide) (clocked : Nat) : List Byte :=
  let frame : List Byte := match side, x.outbound with
    | .queuedFrame, f :: _ => f.octets
    | .queuedFrame, [] => [0]
    | .idleFill, _ => [0]
  (frame ++ List.replicate (clocked - frame.length) 0).take clocked

/-- Whether the outbound side of a transfer of `clocked` octets was shifted out whole (R160). -/
def PortState.outboundWhole (x : PortState) (side : OutboundSide) (clocked : Nat) : Bool :=
  match side, x.outbound with
  | .idleFill, _ => true
  | .queuedFrame, [] => true
  | .queuedFrame, f :: _ => f.octets.length ≤ clocked

/-- The port after a whole transfer, before the inbound frame is taken (R160). -/
def PortState.endWhole (x : PortState) (side : OutboundSide) : PortState :=
  { x with transfer := .idle
           outbound := match side with
             | .idleFill => x.outbound
             | .queuedFrame => x.outbound.drop 1 }

/-- After a short transfer the POSITION that was on the line takes the values of the newer one, which is
removed (R166). -/
def mergePosition : List Frame → List Frame
  | [] => []
  | f :: fs =>
    if f.isPosition then
      match fs.find? Frame.isPosition with
      | some g => g :: fs.filter fun h => !h.isPosition
      | none => f :: fs
    else f :: fs

/-- The port after a short transfer (R160, R166). -/
def PortState.endShort (x : PortState) (side : OutboundSide) (carried : Bool) : PortState :=
  { x with transfer := .idle
           outbound := (match side with
             | .idleFill => x.outbound
             | .queuedFrame => mergePosition x.outbound)
           shortFrames := if carried then x.shortFrames + 1 else x.shortFrames }

/-- A request is appended to the request queue; one that finds it empty begins to be handled (R162,
R163). -/
def PortState.appendRequest (x : PortState) (now : StageTime) (r : Request) : PortState :=
  { x with requests := x.requests ++ [r]
           handledSince := if x.requests.isEmpty then now else x.handledSince }

/-- A request reaches the request queue of port `p`: answered FULL when it holds 4, otherwise appended; a
TAP or a BEAT MARK is then taken, with its answer decided (R162, R163). -/
def State.placeRequest (s : State) (p : Port) (r : Request) : State :=
  let x := s.port p
  if x.requests.length < Config.requestSize then
    match classify p r with
    | .tap => (s.setPort p (x.appendRequest s.time { r with decided := some s.tapStatus })).tap
    | .beatMark =>
      (s.setPort p (x.appendRequest s.time { r with decided := some s.markStatus })).beatMark
        (r.octetAt 0 % 2 = 1)
    | _ => s.setPort p (x.appendRequest s.time r)
  else s.setPort p (x.respond r .full [])

/-- Chip-select rises at port `p` after the octets `all` have been clocked in (R160 to R162). -/
def State.endTransfer (s : State) (p : Port) (side : OutboundSide) (all : List Byte) : State :=
  let x := s.port p
  if x.outboundWhole side all.length then
    if carriesFrame all then
      match inboundRequest all with
      | some r => (s.setPort p (x.endWhole side)).placeRequest p r
      | none => s.setPort p (x.endShort side true)
    else s.setPort p (x.endWhole side)
  else s.setPort p (x.endShort side (carriesFrame all))

/-- TRANSFER_BEGIN (R159). -/
def execTransferBegin (p : Port) (s : State) : Host.Outcome State Fault Refusal :=
  whenLive (fun s => s.setPort p (s.port p).beginTransfer) s

/-- TRANSFER_END: `octets`, those the part has received since chip-select fell, join those held, and the transfer
ends (R160). Octets clocked while the crystal was absent are not among them, and none was shifted out for them, so
one count serves both sides (DESIGN CHOICE, log entries 24 and 41). -/
def execTransferEnd (p : Port) (octets : List Byte) (s : State) : Host.Outcome State Fault Refusal :=
  whenLive (fun s => match (s.port p).transfer with
    | .idle => s
    | .inTransfer received side => s.endTransfer p side (received ++ octets)) s

end Sys2Proof.Machine
end

