-- ==== Sys2Proof/Machine/Pins.lean ====
section
/-! DEFINITION. The pins: sync and panic inputs, reset, crystal, audio clock and the audio sample period
(R73, R130, R152, R154, R155, R185, R186). -/
namespace Sys2Proof.Machine

/-! ### Sync and panic inputs -/

/-- An accepted rise of the sync input: a pulse when the requested source is SYNC (R130). A line that is
already high has no rise (DESIGN CHOICE, log entry 7). -/
def State.syncRise (s : State) : State :=
  if s.pins.syncHigh then s
  else
    let s := s.setPins { s.pins with syncHigh := true }
    match s.tempo.source with
    | .sync _ => s.pulse
    | .internal => s
    | .clock _ => s
    | .mark => s

/-- An accepted fall of the panic input: one panic of cause LINE (R73). A line already low has no fall (DESIGN
CHOICE, log entry 7). -/
def State.panicFall (s : State) : State :=
  if s.pins.panicLow then s else (s.setPins { s.pins with panicLow := true }).panic .line

/-- SYNC_EDGE (R130). -/
def execSyncEdge (s : State) : Host.Outcome State Fault Refusal := whenLive (fun s => s.syncRise) s

/-- SYNC_LINE_FALL: the sync input has fallen, so its next rise makes an edge (R130). -/
def execSyncLineFall (s : State) : Host.Outcome State Fault Refusal :=
  whenLive (fun s => s.setPins { s.pins with syncHigh := false }) s

/-- PANIC_LINE_EDGE (R73, R74). -/
def execPanicLineEdge (s : State) : Host.Outcome State Fault Refusal := whenLive (fun s => s.panicFall) s

/-- PANIC_LINE_RISE: the panic input has risen, so its next fall makes a panic (R73). -/
def execPanicLineRise (s : State) : Host.Outcome State Fault Refusal :=
  whenLive (fun s => s.setPins { s.pins with panicLow := false }) s

/-! ### Reset -/

/-- An output line cut short: nothing is being sent (R41). -/
def OutPort.cutShort (q : OutPort) : OutPort := { q with transmit := .idle }

/-- A transfer in progress is abandoned (R172). -/
def PortState.abandon (x : PortState) : PortState := { x with transfer := .idle }

/-- Both ports abandon a transfer in progress. -/
def Desk.abandon (d : Desk) : Desk :=
  { d with panelPort := d.panelPort.abandon, showPort := d.showPort.abandon }

/-- The audio serial lines are held low (R185). -/
def ClickGen.silenceLines (g : ClickGen) : ClickGen :=
  { g with formed := 0, left := 0, right := 0, lastRight := 0 }

/-- The audio serial output of the part: its lines are held low while the reset pin is (R185), and while the
audio clock is MISSING (R155). -/
def State.audioLines (s : State) : AudioLines := if s.pins.resetHeld then .low else s.click.lines

/-- The reset pin is low: events being sent are cut short, transfers are abandoned, the beat line and the
audio lines are low (R185). -/
def State.holdReset (s : State) : State :=
  ((((s.setRig (s.rig.mapOutputs OutPort.cutShort)).setDesk s.desk.abandon).setTempo
    { s.tempo with lineHighUntil := none }).setClick s.click.silenceLines).setPins
    { s.pins with resetHeld := true }

/-- The part at the release of the reset pin: every block at its pin-reset values, stage time 0, the panic
and sync inputs at rest at the levels they hold (R185). The queue of commands and the crystal are outside
the part. -/
def State.releaseReset (s : State) (panicLow syncHigh : Bool) : State :=
  { State.reset with pins := ⟨false, s.pins.crystalPresent, panicLow, syncHigh⟩, pending := s.pending }

/-- RESET_PIN_LOW (R185). -/
def execResetPinLow (s : State) : Host.Outcome State Fault Refusal := .next s.holdReset

/-- RESET_PIN_RELEASE (R185): a pin that is not held is not released. -/
def execResetPinRelease (panicLow syncHigh : Bool) (s : State) : Host.Outcome State Fault Refusal :=
  .next (if s.pins.resetHeld then s.releaseReset panicLow syncHigh else s)

/-! ### Clocks -/

/-- CRYSTAL_STOP: from here no event is taken and stage time stands (R186). -/
def execCrystalStop (s : State) : Host.Outcome State Fault Refusal :=
  .next (s.setPins { s.pins with crystalPresent := false })

/-- CRYSTAL_RETURN: every block resumes from the state it held (R186). -/
def execCrystalReturn (s : State) : Host.Outcome State Fault Refusal :=
  .next (s.setPins { s.pins with crystalPresent := true })

/-- A sample period begins; while the audio clock is MISSING there is none (R152, R155). -/
def State.samplePeriod (s : State) : State :=
  match s.click.audio with
  | .present => s.setClick (s.click.samplePeriod s.mem)
  | .missing => s

/-- The audio clock has been absent for 10 microseconds: PRESENT becomes MISSING (R155). -/
def State.audioLoss (s : State) : State :=
  match s.click.audio with
  | .present => s.setClick s.click.loseClock
  | .missing => s

/-- A presence run that has lasted 1,000 microseconds makes the audio clock PRESENT (R155). -/
def State.audioReturn (s : State) : State :=
  if s.click.returnDue s.time then s.setClick s.click.regainClock else s

/-- The first audio clock cycle after a gap opens a presence run (R155). -/
def State.openRun (s : State) : State :=
  match s.click.audio, s.click.presenceRun with
  | .missing, none => s.setClick { s.click with presenceRun := some s.time }
  | _, _ => s

/-- A gap of 10 microseconds ends a presence run (R155). -/
def State.endRun (s : State) : State :=
  match s.click.audio with
  | .missing => s.setClick { s.click with presenceRun := none }
  | .present => s

/-- SAMPLE_PERIOD (R149 to R152, R154). -/
def execSamplePeriod (s : State) : Host.Outcome State Fault Refusal := whenLive (fun s => s.samplePeriod) s

/-- AUDIO_CLOCK_LOSS (R155). -/
def execAudioClockLoss (s : State) : Host.Outcome State Fault Refusal := whenLive (fun s => s.audioLoss) s

/-- AUDIO_CLOCK_RETURN (R155). -/
def execAudioClockReturn (s : State) : Host.Outcome State Fault Refusal := whenLive (fun s => s.audioReturn) s

/-- PRESENCE_RUN_OPEN (R155). -/
def execPresenceRunOpen (s : State) : Host.Outcome State Fault Refusal := whenLive (fun s => s.openRun) s

/-- PRESENCE_RUN_GAP (R155). -/
def execPresenceRunGap (s : State) : Host.Outcome State Fault Refusal := whenLive (fun s => s.endRun) s

end Sys2Proof.Machine
end

