-- ==== Sys2Proof/Machine/Clock.lean ====
section
/-! DEFINITION. Stage time: the tick of a microsecond, and the events that stage time makes due (R31, R85,
R105 to R107, R123 to R125, R137, R155, R163, R17, R18). -/
namespace Sys2Proof.Machine

/-! ### Due events, each when it is due -/

/-- The transmission on the line of output `o` completes if its last octet has gone out (R31). -/
def State.lineDue (s : State) (o : Output) : State :=
  if s.rig.lineDue s.time o then s.setRig (s.rig.completeLine s.moment o) else s

/-- The beat line goes low if its high time has passed (R125). -/
def State.beatLineDue (s : State) : State :=
  match s.tempo.lineHighUntil with
  | some t => if reached s.time t then s.setTempo { s.tempo with lineHighUntil := none } else s
  | none => s

/-- The spill of record (o, c) expires if its deadline is reached (R85). -/
def State.spillDue (s : State) (o : Output) (c : Chan) : State :=
  match (s.rig.chan o c).pending with
  | some p => if reached s.time p.deadline then s.setRig (s.rig.expireSpill s.moment o c) else s
  | none => s

/-- The holdover expires if its deadline is reached in LOCKED (R137). -/
def State.holdoverStep (s : State) : State := if s.holdoverDue then s.expireHoldover else s

/-- A digest that has read its last word completes: the DIGEST notice goes to the requesting port (R18). -/
def State.digestDue (s : State) : State :=
  match s.mem.digest with
  | some d =>
    if d.allRead then
      (s.setMem { s.mem with digest := none }).setDesk
        (s.desk.raiseAt d.requester (.digest (foldDigest d.sum) d.kinds d.disturbed))
    else s
  | none => s

/-- A preparation that has used up its time ends (R105). -/
def State.preparationDue (s : State) : State := if s.preparationOverdue then s.endPreparation else s

/-- The advance of the phase that a boundary of the present microsecond is still owed is made (R123). -/
def State.phaseDue (s : State) : State :=
  match s.tempo.phaseOwed with
  | some inc => (s.setTempo { s.tempo with phaseOwed := none }).advancePhase inc
  | none => s

/-! ### Requests whose time is up -/

/-- A request is handled by the block that owns its row (R163). -/
def handle (p : Port) (r : Request) (s : State) : State :=
  match classify p r with
  | .setWrite => s.setWriteRequest p r
  | .soundLength => s.soundLengthRequest p r
  | .soundSamples => s.soundSamplesRequest p r
  | .setRead => s.setReadRequest p r
  | .setDigest => s.setDigestRequest p r
  | .enterShow => s.enterShowRequest p r
  | .enterSetup => s.enterSetupRequest p r
  | .restart => s.restartRequest p r
  | .goSong => s.goSongRequest p r
  | .goScene => s.goSceneRequest p r
  | .goNext => s.goNextRequest p r
  | .goPrev => s.goPrevRequest p r
  | .cancel => s.cancelRequest p r
  | .freeze => s.freezeRequest p r
  | .thaw => s.thawRequest p r
  | .step => s.stepRequest p r
  | .tempoSource => s.tempoSourceRequest p r
  | .tempoSet => s.tempoSetRequest p r
  | .trim => s.trimRequest p r
  | .tap => s.tapRequest p r
  | .beatMark => s.beatMarkRequest p r
  | .outputEnable => s.outputEnableRequest p r
  | .criticalLevel => s.criticalLevelRequest p r
  | .panic => s.panicRequest p r
  | .clickLevel => s.clickLevelRequest p r
  | .clickMute => s.clickMuteRequest p r
  | .counterSet => s.counterSetRequest p r
  | .counterRead => s.counterReadRequest p r
  | .captureArm => s.captureArmRequest p r
  | .captureRead => s.captureReadRequest p r
  | .status => s.statusRequest p r
  | .subscribe => s.subscribeRequest p r
  | .turnedAway st => s.answer p st []

/-- The oldest request of port `p` is answered if its 200 microseconds are up (R163). -/
def State.requestDue (s : State) (p : Port) : State :=
  match (s.port p).requests with
  | [] => s
  | r :: _ =>
    if reached s.time (after (s.port p).handledSince Config.answerMicros) then handle p r s else s

/-! ### The tick (R123) -/

/-- Every event that is due at the present stage time and has not been commanded takes place, in one fixed
order (DESIGN CHOICE, log entry 9). -/
def State.settleDue (s : State) : State :=
  let s := (allOutputs.foldl (fun s o => s.lineDue o) s).beatLineDue
  let s := allOutputs.foldl (fun s o => allChans.foldl (fun s c => s.spillDue o c) s) s
  ((s.holdoverStep.audioReturn.digestDue.preparationDue.requestDue .panelPort).requestDue .showPort).phaseDue

/-- A digest reads one word in a microsecond; with nothing left to read it is due to complete (R17). -/
def SetMemory.readDigest (m : SetMemory) : SetMemory :=
  match m.digest with
  | none => m
  | some d =>
    if d.allRead then m
    else match m.digestWord d.kinds d.point with
      | none => { m with digest := some { d with allRead := true } }
      | some w =>
        { m with digest := some { d with
            sum := d.sum + w.toNat, point := d.point + 1
            allRead := d.point + 1 = selectedWords d.kinds 0 kindWords } }

/-- Whether an advance by `inc` raises the subdivision reached above the click index (R124). -/
def State.clickRises (s : State) (inc : Nat) : Bool :=
  s.tempo.clickIndex < subdivisionAt (s.tempo.advanced inc).phase s.click.pattern.division

/-- The phase advance of a microsecond: at once when it makes no boundary, otherwise owed to the boundary's
own command (R123, R124; DESIGN CHOICE, log entry 9). -/
def State.tickPhase (s : State) : State :=
  let inc := s.tempo.increment
  if s.tempo.carries inc || s.clickRises inc then s.setTempo { s.tempo with phaseOwed := some inc }
  else s.setTempo (s.tempo.advanced inc)

/-- One microsecond passes (R17, R123). -/
def State.tick (s : State) : State :=
  let s := s.settleDue
  ((s.setTime (s.time + 1)).setMem s.mem.readDigest).tickPhase

/-- The boundary owed by the present microsecond is made when it is a beat boundary (`beat`) or a click
boundary (not `beat`) (R123, R124). -/
def State.boundary (s : State) (beat : Bool) : State :=
  match s.tempo.phaseOwed with
  | none => s
  | some inc => if s.tempo.carries inc = beat then s.phaseDue else s

/-! ### The commands of stage time -/

/-- STAGE_TICK (R123). -/
def execStageTick (s : State) : Host.Outcome State Fault Refusal := whenLive (fun s => s.tick) s

/-- BEAT_BOUNDARY (R113, R123). -/
def execBeatBoundary (s : State) : Host.Outcome State Fault Refusal := whenLive (fun s => s.boundary true) s

/-- CLICK_BOUNDARY (R124, R147). -/
def execClickBoundary (s : State) : Host.Outcome State Fault Refusal := whenLive (fun s => s.boundary false) s

/-- BEAT_LINE_END (R125). -/
def execBeatLineEnd (s : State) : Host.Outcome State Fault Refusal := whenLive (fun s => s.beatLineDue) s

/-- SPILL_EXPIRY (R70, R85). -/
def execSpillExpiry (o : Output) (c : Chan) (s : State) : Host.Outcome State Fault Refusal :=
  whenLive (fun s => s.spillDue o c) s

/-- HOLDOVER_EXPIRY (R137). -/
def execHoldoverExpiry (s : State) : Host.Outcome State Fault Refusal := whenLive (fun s => s.holdoverStep) s

/-- DIGEST_COMPLETE (R18). -/
def execDigestComplete (s : State) : Host.Outcome State Fault Refusal := whenLive (fun s => s.digestDue) s

/-- The preparation in flight, when its run passes the checks of R106 (`passes`) or not. -/
def State.preparationEnds (s : State) (passes : Bool) : State :=
  match s.scene.staged with
  | none => s
  | some c => if (s.mem.checkRun c.copy).isNone = passes then s.endPreparation else s

/-- PREPARATION_COMPLETE (R107). -/
def execPreparationComplete (s : State) : Host.Outcome State Fault Refusal :=
  whenLive (fun s => s.preparationEnds true) s

/-- PREPARATION_CHECK_FAIL (R106). -/
def execPreparationCheckFail (s : State) : Host.Outcome State Fault Refusal :=
  whenLive (fun s => s.preparationEnds false) s

/-- TRANSMISSION_COMPLETE (R31). -/
def execTransmissionComplete (o : Output) (s : State) : Host.Outcome State Fault Refusal :=
  whenLive (fun s => s.lineDue o) s

end Sys2Proof.Machine
end

