-- ==== Sys2Proof/Machine/Dispatch.lean ====
section
/-! DEFINITION. The dispatch of a command to its meaning: one arm per constructor of Instr. -/
namespace Sys2Proof.Machine

def exec (i : Instr) (s : State) : Host.Outcome State Fault Refusal :=
  match i with
  | .setWrite p => Sys2Proof.Machine.execSetWrite p s
  | .setWriteSoundLength p => Sys2Proof.Machine.execSetWriteSoundLength p s
  | .setWriteSoundSamples p => Sys2Proof.Machine.execSetWriteSoundSamples p s
  | .setRead p => Sys2Proof.Machine.execSetRead p s
  | .setDigest p => Sys2Proof.Machine.execSetDigest p s
  | .enterShow p => Sys2Proof.Machine.execEnterShow p s
  | .enterSetup p => Sys2Proof.Machine.execEnterSetup p s
  | .restart p => Sys2Proof.Machine.execRestart p s
  | .goSong p => Sys2Proof.Machine.execGoSong p s
  | .goScene p => Sys2Proof.Machine.execGoScene p s
  | .goNext p => Sys2Proof.Machine.execGoNext p s
  | .goPrev p => Sys2Proof.Machine.execGoPrev p s
  | .cancel p => Sys2Proof.Machine.execCancel p s
  | .freeze p => Sys2Proof.Machine.execFreeze p s
  | .thaw p => Sys2Proof.Machine.execThaw p s
  | .step p => Sys2Proof.Machine.execStep p s
  | .tempoSource p => Sys2Proof.Machine.execTempoSource p s
  | .tempoSet p => Sys2Proof.Machine.execTempoSet p s
  | .trim p => Sys2Proof.Machine.execTrim p s
  | .tap p => Sys2Proof.Machine.execTap p s
  | .beatMark => Sys2Proof.Machine.execBeatMark s
  | .outputEnable p => Sys2Proof.Machine.execOutputEnable p s
  | .criticalLevel p => Sys2Proof.Machine.execCriticalLevel p s
  | .panic p => Sys2Proof.Machine.execPanic p s
  | .clickLevel p => Sys2Proof.Machine.execClickLevel p s
  | .clickMute p => Sys2Proof.Machine.execClickMute p s
  | .counterSet p => Sys2Proof.Machine.execCounterSet p s
  | .counterRead p => Sys2Proof.Machine.execCounterRead p s
  | .captureArm p => Sys2Proof.Machine.execCaptureArm p s
  | .captureRead p => Sys2Proof.Machine.execCaptureRead p s
  | .status p => Sys2Proof.Machine.execStatus p s
  | .subscribe p => Sys2Proof.Machine.execSubscribe p s
  | .unknownRequest p => Sys2Proof.Machine.execUnknownRequest p s
  | .transferBegin p => Sys2Proof.Machine.execTransferBegin p s
  | .transferEnd p octets => Sys2Proof.Machine.execTransferEnd p octets s
  | .noteOn n c k v => Sys2Proof.Machine.execNoteOn n c k v s
  | .noteOff n c k asNoteOn => Sys2Proof.Machine.execNoteOff n c k asNoteOn s
  | .sustainPedal n c v => Sys2Proof.Machine.execSustainPedal n c v s
  | .continuousEvent n c e => Sys2Proof.Machine.execContinuousEvent n c e s
  | .songSelect n c program => Sys2Proof.Machine.execSongSelect n c program s
  | .clock n => Sys2Proof.Machine.execClock n s
  | .alignmentPoint n kind => Sys2Proof.Machine.execAlignmentPoint n kind s
  | .stop n => Sys2Proof.Machine.execStop n s
  | .inputOctet n b => Sys2Proof.Machine.execInputOctet n b s
  | .syncEdge => Sys2Proof.Machine.execSyncEdge s
  | .panicLineEdge => Sys2Proof.Machine.execPanicLineEdge s
  | .resetPinLow => Sys2Proof.Machine.execResetPinLow s
  | .resetPinRelease panicLow syncHigh => Sys2Proof.Machine.execResetPinRelease panicLow syncHigh s
  | .crystalStop => Sys2Proof.Machine.execCrystalStop s
  | .crystalReturn => Sys2Proof.Machine.execCrystalReturn s
  | .stageTick => Sys2Proof.Machine.execStageTick s
  | .beatBoundary => Sys2Proof.Machine.execBeatBoundary s
  | .clickBoundary => Sys2Proof.Machine.execClickBoundary s
  | .beatLineEnd => Sys2Proof.Machine.execBeatLineEnd s
  | .samplePeriod => Sys2Proof.Machine.execSamplePeriod s
  | .audioClockLoss => Sys2Proof.Machine.execAudioClockLoss s
  | .audioClockReturn => Sys2Proof.Machine.execAudioClockReturn s
  | .spillExpiry o c => Sys2Proof.Machine.execSpillExpiry o c s
  | .holdoverExpiry => Sys2Proof.Machine.execHoldoverExpiry s
  | .digestComplete => Sys2Proof.Machine.execDigestComplete s
  | .preparationComplete => Sys2Proof.Machine.execPreparationComplete s
  | .preparationCheckFail => Sys2Proof.Machine.execPreparationCheckFail s
  | .transmissionComplete o => Sys2Proof.Machine.execTransmissionComplete o s
  | .panicLineRise => Sys2Proof.Machine.execPanicLineRise s
  | .syncLineFall => Sys2Proof.Machine.execSyncLineFall s
  | .presenceRunOpen => Sys2Proof.Machine.execPresenceRunOpen s
  | .presenceRunGap => Sys2Proof.Machine.execPresenceRunGap s

end Sys2Proof.Machine
end

