-- ==== Sys2Proof/Machine/Step.lean ====
section
/-! DEFINITION. One step of the block: the command at the front of the queue is taken and executed. -/
namespace Sys2Proof.Machine

/-- The queue of waiting commands takes the value `x`. -/
def State.setPending (s : State) (x : List Instr) : State := { s with pending := x }

/-- One step: the command at the front of the queue is executed on the state with the queue's rest; with
no command waiting the block idles (DESIGN CHOICE, log entry 1). -/
def step (s : State) : Host.Outcome State Fault Refusal :=
  match s.pending with
  | [] => .next s
  | i :: rest => exec i (s.setPending rest)

/-- The command that a word spells is put at the front of the queue; the opcode table gives no row any
bits, so no word spells one (log entry 1). -/
def State.withFetchWord (s : State) (nbits w : Nat) : State :=
  match Sys2Proof.decodeTableWord nbits w with
  | none => s
  | some i => s.setPending (i :: s.pending)

end Sys2Proof.Machine
end

