-- ==== Sys2Proof/Safety.lean ====
section
/-! DEFINITION. The terms the statements use: the blocks of the state and what a command leaves unchanged,
the answer to a request, and the bounds and agreements that every step keeps. -/
namespace Sys2Proof.Machine

/-! ### Frames -/

/-- The parts of the state that a statement names when it says what a command may change. -/
inductive Block where
  /-- The set memory: records, under-copy set, digest. -/
  | mem
  /-- Both control ports, the stage counters and the capture list. -/
  | desk
  /-- The six outputs: queues, transmit states, enables, flags, levels. -/
  | outputs
  /-- The 96 destination-channel records. -/
  | records
  /-- The active-note table. -/
  | table
  /-- The 64 pedal states. -/
  | pedals
  /-- The model's number for the next leg. -/
  | legs
  /-- The four deframers. -/
  | inputs
  /-- The Layer Router. -/
  | router
  /-- The Scene Engine. -/
  | scene
  /-- The Tempo Engine. -/
  | tempo
  /-- The Click Generator. -/
  | click
  /-- Stage time. -/
  | time
  /-- The sampled lines. -/
  | pins
  /-- The queue of waiting commands. -/
  | pending
deriving DecidableEq, Repr

/-- A block is the same in two states. -/
def Block.same (s t : State) : Block → Prop
  | .mem => t.mem = s.mem
  | .desk => t.rig.desk = s.rig.desk
  | .outputs => t.rig.outputs = s.rig.outputs
  | .records => t.rig.records = s.rig.records
  | .table => t.rig.table = s.rig.table
  | .pedals => t.rig.pedals = s.rig.pedals
  | .legs => t.rig.nextLeg = s.rig.nextLeg
  | .inputs => t.inputs = s.inputs
  | .router => t.router = s.router
  | .scene => t.scene = s.scene
  | .tempo => t.tempo = s.tempo
  | .click => t.click = s.click
  | .time => t.time = s.time
  | .pins => t.pins = s.pins
  | .pending => t.pending = s.pending

/-- `t` differs from `s` in no block outside `l`. -/
def SameBut (l : List Block) (s t : State) : Prop := ∀ b : Block, b ∉ l → b.same s t

/-! ### Requests and their answers -/

/-- The part is live and the oldest request of port `p` is `r`, of row `row`, with `rest` behind it. -/
def Heads (s : State) (p : Port) (row : RequestRow) (r : Request) (rest : List Request) : Prop :=
  s.live = true ∧ (s.port p).requests = r :: rest ∧ classify p r = row

/-- The response to a request (R163, R188). -/
def replyTo (r : Request) (st : Status) (payload : List Byte) : Frame :=
  .response (responseKind r.kind) r.tag st payload

/-- The desk once the oldest request `r` of port `p` has been answered: the response stands at the end of
that port's outbound queue, the request has left, and nothing else of the desk has changed (R163, R164). -/
def answeredDesk (s : State) (p : Port) (r : Request) (rest : List Request) (st : Status)
    (payload : List Byte) : Desk :=
  s.desk.setPort p { s.port p with
    requests := rest, outbound := (s.port p).outbound ++ [replyTo r st payload], handledSince := s.time }

/-- A command answers the oldest request of port `p` with `st` and `payload`, and does nothing else. -/
def OnlyAnswers (s : State) (o : Host.Outcome State Fault Refusal) (p : Port) (r : Request)
    (rest : List Request) (st : Status) (payload : List Byte) : Prop :=
  ∃ t, o = .next t ∧ t.desk = answeredDesk s p r rest st payload ∧ SameBut [.desk] s t

/-! ### What a scene request names (R100, R101) -/

/-- The command, the row, the ask and the quantize octet of each of the four scene requests (R100, R101,
R188): GO_SONG with and without a scene, GO_SCENE, GO_NEXT and GO_PREV. -/
inductive GoForm (p : Port) (r : Request) : Instr → RequestRow → SceneAsk → Nat → Prop
  | song : r.octetAt 1 ≠ 255 →
      GoForm p r (.goSong p) .goSong (.song (r.octetAt 0) (r.octetAt 1)) (r.octetAt 2)
  | songOnly : r.octetAt 1 = 255 →
      GoForm p r (.goSong p) .goSong (.song (r.octetAt 0) 0) (r.octetAt 2)
  | scene : GoForm p r (.goScene p) .goScene (.scene (r.octetAt 0)) (r.octetAt 1)
  | next : GoForm p r (.goNext p) .goNext .next (r.octetAt 0)
  | prev : GoForm p r (.goPrev p) .goPrev .prev (r.octetAt 0)

/-- The target that step 2 of R97 gives a request of rank `rank` (R100, R101). -/
inductive Resolves (s : State) (rank : Nat) : SceneAsk → Nat → Nat → Prop
  | song (song scene : Nat) : Resolves s rank (.song song scene) song scene
  | scene (c : Target) (scene : Nat) : s.scene.current = some c → Resolves s rank (.scene scene) c.song scene
  | nextFirst : s.baseScene rank = none → Resolves s rank .next 0 0
  | nextWithin (song scene : Nat) : s.baseScene rank = some (song, scene) →
      scene + 1 < (s.mem.song song).sceneCount → Resolves s rank .next song (scene + 1)
  | nextSong (song scene : Nat) : s.baseScene rank = some (song, scene) →
      (s.mem.song song).sceneCount ≤ scene + 1 → song + 1 < s.mem.header.setlistLength →
      Resolves s rank .next (song + 1) 0
  | prevWithin (song scene : Nat) : s.baseScene rank = some (song, scene + 1) →
      Resolves s rank .prev song scene
  | prevSong (song scene : Nat) : s.baseScene rank = some (song + 1, 0) →
      (s.mem.song song).sceneCount = scene + 1 → Resolves s rank .prev song scene

/-- The status with which step 2 of R97 refuses a request of rank `rank` (R100, R101). -/
inductive Unresolved (s : State) (rank : Nat) : SceneAsk → Status → Prop
  | scene (scene : Nat) : s.scene.current = none → Unresolved s rank (.scene scene) .none
  | next (song scene : Nat) : s.baseScene rank = some (song, scene) →
      (s.mem.song song).sceneCount ≤ scene + 1 → s.mem.header.setlistLength ≤ song + 1 →
      Unresolved s rank .next .atEnd
  | prevNone : s.baseScene rank = none → Unresolved s rank .prev .atEnd
  | prevFirst : s.baseScene rank = some (0, 0) → Unresolved s rank .prev .atEnd
  | prevEmpty (song : Nat) : s.baseScene rank = some (song + 1, 0) →
      (s.mem.song song).sceneCount = 0 → Unresolved s rank .prev .range

/-- The change that an accepted request stages (R95). -/
def changeOf (s : State) (origin : Origin) (song scene : Nat) (q : Option Quantize) (tag : Byte) : Change :=
  { target := ⟨song, scene, ((s.mem.song song).firstScene + scene) % 256⟩, origin := origin,
    rank := s.rank origin, requestQuantize := q,
    quantize := q.getD (s.mem.scene (((s.mem.song song).firstScene + scene) % 256)).copied.quantize,
    cueTag := tag, preparation := .preparing,
    copy := (s.mem.scene (((s.mem.song song).firstScene + scene) % 256)).copied, startedAt := s.time }

/-- The desk once a change has been displaced or cancelled: CHANGE SUPERSEDED to the ports of its origin and
a SUPERSEDED record (R98, R102). -/
def supersededDesk (s : State) (d : Desk) (c : Change) (cause : SupersedeCause) : Desk :=
  (d.raiseFor c.origin (.changeSuperseded c.target.song c.target.scene c.origin cause)).record
    { time := s.time, kind := .superseded, origin := some c.origin, output := none,
      song := some c.target.song, scene := some c.target.scene, generation := some s.scene.generation,
      channel := none, detail := some (.superseded cause), cueTag := c.cueTag }

/-! ### Preparation (R106) -/

/-- Entry `k` of a run passes the checks of R106. -/
def entryPasses (m : SetMemory) (first k : Nat) : Prop :=
  (k ≠ 0 → (m.layer (first + k - 1)).sourceChannel < (m.layer (first + k)).sourceChannel ∨
    (m.layer (first + k - 1)).sourceChannel = (m.layer (first + k)).sourceChannel ∧
      (m.layer (first + k - 1)).keyLow ≤ (m.layer (first + k)).keyLow) ∧
  (m.layer (first + k)).inputs ≠ 0 ∧
  ((m.layer (first + k)).action = .route → (m.layer (first + k)).outputs ≠ 0)

/-! ### Bounds and agreements that every step keeps -/

/-- A control port within the bounds of R158 and R165: at most 4 requests and 13 frames held, at most 12
while idle fill is being shifted out, and a frame in the queue while one is being shifted out. -/
def PortState.bounded (x : PortState) : Bool :=
  x.requests.length ≤ 4 && x.framesHeld ≤ 13 &&
    (match x.transfer with
      | .idle => true
      | .inTransfer _ .idleFill => x.framesHeld ≤ 12
      | .inTransfer _ .queuedFrame => !x.outbound.isEmpty)

/-- Both ports are within their bounds. -/
def portsBounded (s : State) : Bool := s.desk.panelPort.bounded && s.desk.showPort.bounded

/-- At most one POSITION waits at the port (R166). -/
def PortState.onePosition (x : PortState) : Bool := (x.waiting.filter Frame.isPosition).length ≤ 1

/-- At most one POSITION waits at each port, while the reset pin is not held. -/
def positionsCoalesced (s : State) : Bool :=
  s.pins.resetHeld || (s.desk.panelPort.onePosition && s.desk.showPort.onePosition)

/-- The queues of an output within the bounds of R29. -/
def OutPort.bounded (q : OutPort) : Bool :=
  q.urgent.length ≤ 48 && q.noteOns ≤ 32 && q.bulk.length ≤ 32 && 1 ≤ q.level && q.level ≤ 48

/-- The queues of every output are within their bounds. -/
def queuesBounded (s : State) : Bool := allOutputs.all fun o => (s.rig.out o).bounded

/-- No two places of a bulk queue have the same identity (R38). -/
def bulkDistinct (s : State) : Prop :=
  ∀ o, ((s.rig.out o).bulk.map fun b => (b.kind, b.channel)).Nodup

/-- The active-note table within the bounds of R60: at most 128 entries, each with 1 to 8 legs, and no two
of one source. -/
def tableBounded (s : State) : Prop :=
  s.rig.table.length ≤ 128 ∧ (∀ e ∈ s.rig.table, 1 ≤ e.legs.length ∧ e.legs.length ≤ 8) ∧
    (s.rig.table.map fun e => (e.input, e.channel, e.key)).Nodup

/-- The legs of the table, in table order and leg order. -/
def allLegs (r : Rig) : List Leg := r.table.flatMap fun e => e.legs

/-- The number of sent legs that name output `o` and channel `c` (R61). -/
def sentLegs (r : Rig) (o : Output) (c : Chan) : Nat :=
  ((allLegs r).filter fun l => l.sent && l.output = o && l.channel = c).length

/-- The number of sent legs of entries that are old for record (o, c) (R61). -/
def sentOldLegs (s : State) (o : Output) (c : Chan) : Nat :=
  ((s.rig.table.filter fun e => (s.rig.chan o c).isOld s.scene.generation e.generation).flatMap fun e =>
    e.legs.filter fun l => l.sent && l.output = o && l.channel = c).length

/-- Every sounding count equals the number of sent legs of its record (R61), and every leg has a number of
its own below the next one to be given. -/
def countsInStep (s : State) : Prop :=
  (∀ o c, (s.rig.chan o c).sounding = sentLegs s.rig o c) ∧
    ((allLegs s.rig).map fun l => l.id).Nodup ∧ ∀ l ∈ allLegs s.rig, l.id < s.rig.nextLeg

/-- Old-leg count and pending program of every record agree (R61, R79): without a pending program the count
is 0; with one it is above 0 and equals the number of sent legs that are old for the record. -/
def oldInStep (s : State) : Prop :=
  ∀ o c, ((s.rig.chan o c).pending = none → (s.rig.chan o c).old = 0) ∧
    ((s.rig.chan o c).pending ≠ none →
      0 < (s.rig.chan o c).old ∧ (s.rig.chan o c).old = sentOldLegs s o c)

/-- Effective tempo, tempo-clamped flag and increment are those of the formulas of R121 and R122 for the
base tempo, ratio in force and trim. -/
def tempoInStep (s : State) : Prop :=
  s.tempo.effective = (clampInt 2000 30000 s.tempo.unclamped).toNat ∧
    (s.tempo.clamped = true ↔ s.tempo.unclamped < 2000 ∨ 30000 < s.tempo.unclamped) ∧
    s.tempo.increment = (s.tempo.effective * 2 ^ 32 + 3000000000) / 6000000000

/-- The capture index is at most 32, and is 32 exactly when the list is FULL (R178). -/
def captureBounded (s : State) : Prop :=
  s.desk.capture.index ≤ 32 ∧ (s.desk.capture.state = .full ↔ s.desk.capture.index = 32)

/-- Staged slot, under-copy set and standby bank agree (R11, R44, R95): all empty; or a change PREPARING
with its records under copy and the bank FILLING; or a change READY with nothing under copy and the bank
FILLED. -/
def slotInStep (s : State) : Prop :=
  match s.scene.staged with
  | none => s.mem.underCopy = none ∧ s.router.fill = .empty ∧ s.router.standby = []
  | some c =>
    match c.preparation with
    | .preparing =>
      s.mem.underCopy = some ⟨c.target.record, c.copy.layerFirst, c.copy.layerCount⟩ ∧
        s.router.fill = .filling
    | .ready => s.mem.underCopy = none ∧ s.router.fill = .filled

/-- In SETUP there is no scene, no staged change, no layer, no note and no pedal down, and bars are counted
from 0 or above under meter 4 without a song (R46, R76, R116, R118). -/
def setupIdle (s : State) : Prop :=
  s.scene.mode = .setupMode →
    s.scene.current = none ∧ s.scene.staged = none ∧ s.scene.frozen = false ∧ s.scene.meter = 4 ∧
      s.scene.position.song = none ∧ 0 ≤ s.scene.position.bar ∧ s.router.active = [] ∧
      s.router.standby = [] ∧ s.rig.table = [] ∧ s.rig.pedals = Vector.replicate 64 false

/-- A voice, if it plays, is at a position below its length (R151). -/
def Voice.inSound : Voice → Bool
  | .free => true
  | .playing _ _ len position => position < len

/-- Every playing voice is at a position below its length (R151). -/
def voicesPlaying (s : State) : Prop := ∀ i : Fin 4, (s.click.voices[i]).inSound = true

/-- Every record of the set memory is empty or holds fields within their ranges (R2 to R8, R10). -/
def recordsInRange (s : State) : Bool :=
  s.mem.header.inRange && s.mem.songs.all (fun x => x.2.inRange) && s.mem.scenes.all (fun x => x.2.inRange) &&
    s.mem.layers.all (fun x => x.2.inRange) && s.mem.patterns.all (fun x => x.2.inRange) &&
    s.mem.soundLengths.toList.all (fun len => len ≤ 4096)

end Sys2Proof.Machine
end

