-- ==== Sys2Proof/Certificates/Slice0/Obligations.lean ====
section
/-! DEFINITION. The statements for the provers. A statement's docstring names the rules it follows; one that
rests on a choice of the model says so and names the log entry. -/
open Sys2Proof Sys2Proof.Machine

/-! ### The machine -/

/-- One step takes the command at the front of the queue and executes it on the state with the queue's
rest. The first-in first-out queue of commands is the model's choice (log entry 1): no rule of the spec
states it. -/
def Obligations.StepRunsFront : Prop :=
  ∀ (c : Instr) (s : State) (rest : List Instr), s.pending = c :: rest →
    step s = exec c { s with pending := rest }

/-- The values after pin reset that the chapters give (R8, R41, R46, R77, R92, R119, R143, R157, R172, R181,
R185). -/
def Obligations.ResetValues : Prop :=
  State.reset.time = 0 ∧
  State.reset.mem.header = ⟨0, .panelSide, 0, 64, none, 0⟩ ∧
  (∀ i, State.reset.mem.song i = ⟨0, 0, 0, 0⟩ ∧
    State.reset.mem.scene i = ⟨0, 0, [], none, 0, 0, 0, .immediate, 0, 0⟩ ∧
    State.reset.mem.layer i = ⟨0, 0, 0, 0, 0, 0, .route, 0, 0, 0, 0, 0, false, 0⟩ ∧
    State.reset.mem.pattern i = ⟨0, [], ⟨0, 0⟩, ⟨0, 0⟩, ⟨0, 0⟩, ⟨0, 0⟩⟩) ∧
  (∀ i k, State.reset.mem.soundLength i = 0 ∧ State.reset.mem.sample i k = 0) ∧
  State.reset.mem.underCopy = none ∧ State.reset.mem.digest = none ∧
  State.reset.scene = ⟨.setupMode, none, 0, none, false, ⟨none, 0, 0, false⟩, 4⟩ ∧
  State.reset.router = ⟨[], [], .empty, 0, 0⟩ ∧
  State.reset.rig.table = [] ∧ (∀ n c, State.reset.rig.pedal n c = false) ∧
  (∀ o c, State.reset.rig.chan o c = ⟨none, none, none, 0, 0, none, false, none⟩) ∧
  (∀ o, State.reset.rig.out o = ⟨[], [], .idle, true, false, false, 40⟩) ∧
  (∀ n, State.reset.deframer n = ⟨.none, none⟩) ∧
  State.reset.tempo.base = 12000 ∧ State.reset.tempo.ratio = 256 ∧ State.reset.tempo.trim = 0 ∧
  State.reset.tempo.effective = 12000 ∧ State.reset.tempo.increment = 8590 ∧
  State.reset.tempo.phase = 0 ∧ State.reset.tempo.clickIndex = 0 ∧
  State.reset.tempo.source = .internal ∧ State.reset.tempo.state = .free ∧
  State.reset.tempo.followShift = 0 ∧ State.reset.tempo.taps = [] ∧ State.reset.tempo.lastTap = none ∧
  State.reset.tempo.clamped = false ∧ State.reset.tempo.lineHighUntil = none ∧
  State.reset.tempo.reference = ⟨none, none, none, 0, 0, none, 0⟩ ∧
  State.reset.tempo.ownBeats = 0 ∧ State.reset.tempo.refBeats = 0 ∧
  State.reset.click.pattern = ⟨1, [.silent], ⟨0, 0⟩, ⟨0, 0⟩, ⟨0, 0⟩, ⟨0, 0⟩⟩ ∧
  (∀ i : Fin 4, State.reset.click.voices[i] = .free) ∧ State.reset.click.master = 16384 ∧
  State.reset.click.mute = false ∧ State.reset.click.audio = .missing ∧
  State.reset.click.presenceRun = none ∧ State.reset.audioLines = .low ∧
  (∀ p, (State.reset.port p).transfer = .idle ∧ (State.reset.port p).requests = [] ∧
    (State.reset.port p).outbound = [] ∧ (State.reset.port p).lostNotice = false ∧
    (State.reset.port p).shortFrames = 0 ∧ State.reset.attention p = false ∧
    ∀ k : Fin 9, (State.reset.port p).marks.getLsbD k.val = decide (k.val ≠ 2)) ∧
  (∀ i : Fin 4, State.reset.desk.counters[i] = ⟨none, 0, 0, 0, false⟩) ∧
  State.reset.desk.capture.state = .disarmed ∧ State.reset.desk.capture.kinds = 0 ∧
  State.reset.desk.capture.index = 0 ∧ (∀ i : Fin 32, State.reset.desk.capture.places[i] = none)

/-- The state after pin reset meets every bound and agreement that the statements below say each step
keeps. -/
def Obligations.ResetMeetsInvariants : Prop :=
  State.reset.mem.wf = true ∧ recordsInRange State.reset = true ∧ portsBounded State.reset = true ∧
    positionsCoalesced State.reset = true ∧ queuesBounded State.reset = true ∧ bulkDistinct State.reset ∧
    tableBounded State.reset ∧ countsInStep State.reset ∧ oldInStep State.reset ∧ tempoInStep State.reset ∧
    captureBounded State.reset ∧ slotInStep State.reset ∧ setupIdle State.reset ∧
    voicesPlaying State.reset

/-- Every step keeps the stores of the set memory in their canonical form and every record within the
ranges of chapter 1 (R2 to R8, R10). The canonical form is the model's way of holding the records. -/
def Obligations.SetMemoryStaysSound : Prop :=
  ∀ s t : State, s.mem.wf = true ∧ recordsInRange s = true → step s = .next t →
    t.mem.wf = true ∧ recordsInRange t = true

/-- Every step keeps both ports within their bounds, at most 4 requests, at most 13 frames in the outbound
queue and at most one POSITION waiting, and keeps the capture index at 32 or below, and at 32 exactly while
the capture list is FULL (R158, R165, R166, R178). -/
def Obligations.DeskStaysBounded : Prop :=
  ∀ s t : State, portsBounded s = true ∧ positionsCoalesced s = true ∧ captureBounded s →
    step s = .next t →
    (portsBounded t = true ∧ positionsCoalesced t = true ∧ captureBounded t) ∧
      ∀ p, (t.port p).outbound.length ≤ 13

/-- Every step keeps every output's queues within their bounds, at most 48 urgent events of which at most 32
are note-ons, at most 32 bulk places, no two of one identity (R29, R38). -/
def Obligations.QueuesStayBounded : Prop :=
  ∀ s t : State, queuesBounded s = true ∧ bulkDistinct s → step s = .next t →
    queuesBounded t = true ∧ bulkDistinct t

/-- Every step keeps the active-note table at 128 entries or fewer, of 1 to 8 legs, no two of one source
(R52, R60, R62, R63). -/
def Obligations.TableStaysBounded : Prop :=
  ∀ s t : State, tableBounded s → step s = .next t → tableBounded t

/-- Every step keeps each sounding count equal to the number of sent legs that name its output and channel,
and keeps the old-leg count in agreement with the pending program: without one it is 0; with one it is above
0, no greater than the sounding count, and the number of sent old legs that name the record (R61, R68, R79,
R84, R86). That every leg has a number of its own is the model's device (log entry 14). -/
def Obligations.CountsStayInStep : Prop :=
  (∀ s t : State, countsInStep s → step s = .next t → countsInStep t) ∧
  ∀ s t : State, countsInStep s → oldInStep s → tableBounded s → step s = .next t →
    oldInStep t ∧ ∀ o c, (t.rig.chan o c).old ≤ (t.rig.chan o c).sounding

/-- Every step keeps the effective tempo, the tempo-clamped flag and the phase increment at the values of
the formulas, so the effective tempo lies between 2000 and 30000 (R121, R122). -/
def Obligations.TempoStaysInStep : Prop :=
  ∀ s t : State, tempoInStep s → step s = .next t →
    tempoInStep t ∧ 2000 ≤ t.tempo.effective ∧ t.tempo.effective ≤ 30000

/-- Every step keeps the staged slot, the under-copy set and the standby bank in agreement (R11, R44, R95,
R105 to R107). -/
def Obligations.SlotStaysInStep : Prop :=
  ∀ s t : State, slotInStep s → step s = .next t → slotInStep t

/-- Every step keeps SETUP without a scene, a staged change, a layer, a note or a pedal down, counting bars
from 0 or above under meter 4 (R26, R46, R76, R97, R116, R118). -/
def Obligations.SetupStaysIdle : Prop :=
  ∀ s t : State, setupIdle s ∧ tableBounded s → step s = .next t → setupIdle t ∧ tableBounded t

/-- The stage counters and the capture list own no state of the blocks that report to them, and affect
neither routing nor timing nor the scene (chapter 10), over one command: two states that differ only in them are taken by any
command to states that differ at most in the desk. -/
def Obligations.CountersAreSilent : Prop :=
  ∀ (i : Instr) (s t u : State) (counters : Vector Counter 4) (capture : Capture),
    exec i s = .next t →
    exec i (s.setDesk { s.desk with counters := counters, capture := capture }) = .next u →
    SameBut [.desk] t u

/-- Every command answers a next state and leaves the queue of waiting commands as it was; only STAGE_TICK
and RESET_PIN_RELEASE change stage time (R123, R185). That no command stops is an inference from the spec, which
gives no rule that stops the part (log entry 2), and the queue is the model's choice (log entry 1). -/
def Obligations.EveryCommandKeepsTheQueue : Prop :=
  ∀ (i : Instr) (s : State), ∃ t, exec i s = .next t ∧ t.pending = s.pending ∧
    (i ≠ .stageTick → (∀ a b, i ≠ .resetPinRelease a b) → t.time = s.time)

/-! ### The set memory (chapter 1, R189, R190) -/

/-- Reading a SET WRITE body gives back the record whose body it is, for every record whose fields are in
range, in the forms of R189. -/
def Obligations.RecordBodiesRoundTrip : Prop :=
  (∀ h : Header, h.inRange = true → decodeHeader (wordOctets h.words) = some h) ∧
  (∀ r : Song, r.inRange = true → decodeSong (wordOctets r.words) = some r) ∧
  (∀ r : Scene, r.inRange = true → decodeScene r.packed = some r) ∧
  (∀ r : Layer, r.inRange = true → decodeLayer (wordOctets r.words) = some r) ∧
  (∀ r : Pattern, r.inRange = true → decodePattern (wordOctets r.words) = some r) ∧
  (∀ len : Nat, len ≤ 4096 → decodeSoundLength (wordOctets [lengthWord len]) = some len)

/-- What every stored SET WRITE of a whole record leaves: the request is answered DONE, the sounds, the
under-copy set and every other block are as they were, and a digest that has selected the kind is marked
DISTURBED (R10, R17). -/
def StoredWrite (s t : State) (p : Port) (r : Request) (rest : List Request) : Prop :=
  t.desk = answeredDesk s p r rest .done [] ∧ SameBut [.mem, .desk] s t ∧
    t.mem.soundLengths = s.mem.soundLengths ∧ t.mem.samples = s.mem.samples ∧
    t.mem.underCopy = s.mem.underCopy ∧
    t.mem.digest = s.mem.digest.map fun d =>
      { d with disturbed := d.disturbed || d.kinds.getLsbD r.recordKind }

/-- SET WRITE of a record that is in range and not held replaces that record and no other (R10, R11). -/
def Obligations.SetWriteStores : Prop :=
  ∀ (s : State) (p : Port) (r : Request) (rest : List Request), Heads s p .setWrite r rest →
    s.mem.wf = true →
    (∀ v, r.recordKind = 0 → r.recordIndex = 0 → decodeHeader r.body = some v →
      s.scene.mode = .setupMode →
      ∃ t, exec (.setWrite p) s = .next t ∧ StoredWrite s t p r rest ∧ t.mem.header = v ∧
        t.mem.songs = s.mem.songs ∧ t.mem.scenes = s.mem.scenes ∧ t.mem.layers = s.mem.layers ∧
        t.mem.patterns = s.mem.patterns) ∧
    (∀ v, r.recordKind = 1 → r.recordIndex < 64 → decodeSong r.body = some v →
      ∃ t, exec (.setWrite p) s = .next t ∧ StoredWrite s t p r rest ∧
        (∀ j, t.mem.song j = if j = r.recordIndex then v else s.mem.song j) ∧
        t.mem.header = s.mem.header ∧ t.mem.scenes = s.mem.scenes ∧ t.mem.layers = s.mem.layers ∧
        t.mem.patterns = s.mem.patterns) ∧
    (∀ v, r.recordKind = 2 → r.recordIndex < 256 → decodeScene r.body = some v →
      s.mem.sceneHeld r.recordIndex = false →
      ∃ t, exec (.setWrite p) s = .next t ∧ StoredWrite s t p r rest ∧
        (∀ j, t.mem.scene j = if j = r.recordIndex then v else s.mem.scene j) ∧
        t.mem.header = s.mem.header ∧ t.mem.songs = s.mem.songs ∧ t.mem.layers = s.mem.layers ∧
        t.mem.patterns = s.mem.patterns) ∧
    (∀ v, r.recordKind = 3 → r.recordIndex < 1024 → decodeLayer r.body = some v →
      s.mem.layerHeld r.recordIndex = false →
      ∃ t, exec (.setWrite p) s = .next t ∧ StoredWrite s t p r rest ∧
        (∀ j, t.mem.layer j = if j = r.recordIndex then v else s.mem.layer j) ∧
        t.mem.header = s.mem.header ∧ t.mem.songs = s.mem.songs ∧ t.mem.scenes = s.mem.scenes ∧
        t.mem.patterns = s.mem.patterns) ∧
    (∀ v, r.recordKind = 4 → r.recordIndex < 16 → decodePattern r.body = some v →
      ∃ t, exec (.setWrite p) s = .next t ∧ StoredWrite s t p r rest ∧
        (∀ j, t.mem.pattern j = if j = r.recordIndex then v else s.mem.pattern j) ∧
        t.mem.header = s.mem.header ∧ t.mem.songs = s.mem.songs ∧ t.mem.scenes = s.mem.scenes ∧
        t.mem.layers = s.mem.layers)

/-- SET WRITE is refused RANGE for a kind or index outside the table or a field outside its range, and only
then IN USE for the header in SHOW and for a record under copy; a refused write changes nothing (R10,
R11). -/
def Obligations.SetWriteRefused : Prop :=
  ∀ (s : State) (p : Port) (r : Request) (rest : List Request), Heads s p .setWrite r rest →
    (6 < r.recordKind ∨ (r.recordKind = 0 ∧ r.recordIndex ≠ 0) ∨
        (r.recordKind = 1 ∧ 64 ≤ r.recordIndex) ∨ (r.recordKind = 2 ∧ 256 ≤ r.recordIndex) ∨
        (r.recordKind = 3 ∧ 1024 ≤ r.recordIndex) ∨ (r.recordKind = 4 ∧ 16 ≤ r.recordIndex) ∨
        (r.recordKind = 0 ∧ decodeHeader r.body = none) ∨ (r.recordKind = 1 ∧ decodeSong r.body = none) ∨
        (r.recordKind = 2 ∧ decodeScene r.body = none) ∨ (r.recordKind = 3 ∧ decodeLayer r.body = none) ∨
        (r.recordKind = 4 ∧ decodePattern r.body = none) →
      OnlyAnswers s (exec (.setWrite p) s) p r rest .range []) ∧
    ((r.recordKind = 0 ∧ r.recordIndex = 0 ∧ (decodeHeader r.body).isSome = true ∧
          s.scene.mode = .showMode) ∨
        (r.recordKind = 2 ∧ r.recordIndex < 256 ∧ (decodeScene r.body).isSome = true ∧
          s.mem.sceneHeld r.recordIndex = true) ∨
        (r.recordKind = 3 ∧ r.recordIndex < 1024 ∧ (decodeLayer r.body).isSome = true ∧
          s.mem.layerHeld r.recordIndex = true) →
      OnlyAnswers s (exec (.setWrite p) s) p r rest .inUse [])

/-- What a stored part of click sound `i` leaves: DONE, the records and the under-copy set as they were, a
digest over click sounds marked, and every voice playing the sound FREE, the other voices playing on
(R13, R17). -/
def StoredSound (s t : State) (p : Port) (r : Request) (rest : List Request) (i : Fin 4) : Prop :=
  t.desk = answeredDesk s p r rest .done [] ∧ SameBut [.mem, .desk, .click] s t ∧
    t.mem.header = s.mem.header ∧ t.mem.songs = s.mem.songs ∧ t.mem.scenes = s.mem.scenes ∧
    t.mem.layers = s.mem.layers ∧ t.mem.patterns = s.mem.patterns ∧ t.mem.underCopy = s.mem.underCopy ∧
    (t.mem.digest = s.mem.digest.map fun d => { d with disturbed := d.disturbed || d.kinds.getLsbD 5 }) ∧
    (∀ k : Fin 4, (∀ gain length position, s.click.voices[k] ≠ .playing i gain length position) →
      t.click.voices[k] = s.click.voices[k]) ∧
    (∀ (k : Fin 4) (gain length position : Nat), s.click.voices[k] = .playing i gain length position →
      t.click.voices[k] = .free) ∧
    t.click = { s.click with voices := t.click.voices }

/-- SET WRITE of a click sound stores the length, or the samples at their offset, and nothing else of the
sounds; an index, a length or a block outside its range is refused RANGE (R13). -/
def Obligations.SoundWriteStores : Prop :=
  ∀ (s : State) (p : Port) (r : Request) (rest : List Request), s.mem.wf = true →
    (Heads s p .soundLength r rest →
      (∀ (i : Fin 4) (len : Nat), r.recordIndex = i.val → decodeSoundLength r.body = some len →
        ∃ t, exec (.setWriteSoundLength p) s = .next t ∧ StoredSound s t p r rest i ∧
          t.mem.samples = s.mem.samples ∧
          ∀ j, t.mem.soundLength j = if j = i then len else s.mem.soundLength j) ∧
      (4 ≤ r.recordIndex ∨ decodeSoundLength r.body = none →
        OnlyAnswers s (exec (.setWriteSoundLength p) s) p r rest .range [])) ∧
    (Heads s p .soundSamples r rest →
      (∀ i : Fin 4, r.recordIndex = i.val → 1 ≤ r.sampleCount → r.sampleCount ≤ 24 →
        r.sampleOffset + r.sampleCount ≤ 4096 →
        ∃ t, exec (.setWriteSoundSamples p) s = .next t ∧ StoredSound s t p r rest i ∧
          t.mem.soundLengths = s.mem.soundLengths ∧
          ∀ (j : Fin 4) (k : Nat), k < 4096 → t.mem.sample j k =
            if j = i ∧ r.sampleOffset ≤ k ∧ k < r.sampleOffset + r.sampleCount
            then BitVec.ofNat 16 (fieldLE r.payload (6 + 2 * (k - r.sampleOffset)) 2)
            else s.mem.sample j k) ∧
      (4 ≤ r.recordIndex ∨ r.sampleCount = 0 ∨ 24 < r.sampleCount ∨ 4096 < r.sampleOffset + r.sampleCount →
        OnlyAnswers s (exec (.setWriteSoundSamples p) s) p r rest .range []))

/-- SET READ answers DONE with the record kind, the index and the body of the record as it is stored, and
RANGE outside the table of records and sample places; it changes nothing else (R14, R188, R189). That a
record kind above 6 is RANGE at any length of 6 or more is the model's inference from what R188 says of SET
WRITE (log entry 22). -/
def Obligations.SetReadReturns : Prop :=
  ∀ (s : State) (p : Port) (r : Request) (rest : List Request), Heads s p .setRead r rest →
    (∀ body, (r.recordKind = 0 ∧ r.recordIndex = 0 ∧ body = wordOctets s.mem.header.words) ∨
        (r.recordKind = 1 ∧ r.recordIndex < 64 ∧ body = wordOctets (s.mem.song r.recordIndex).words) ∨
        (r.recordKind = 2 ∧ r.recordIndex < 256 ∧ body = (s.mem.scene r.recordIndex).packed) ∨
        (r.recordKind = 3 ∧ r.recordIndex < 1024 ∧ body = wordOctets (s.mem.layer r.recordIndex).words) ∨
        (r.recordKind = 4 ∧ r.recordIndex < 16 ∧ body = wordOctets (s.mem.pattern r.recordIndex).words) ∨
        (r.recordKind = 5 ∧ ∃ i : Fin 4, r.recordIndex = i.val ∧
          body = wordOctets [lengthWord (s.mem.soundLength i)]) ∨
        (r.recordKind = 6 ∧ 1 ≤ r.sampleCount ∧ r.sampleCount ≤ 24 ∧
          r.sampleOffset + r.sampleCount ≤ 4096 ∧ ∃ i : Fin 4, r.recordIndex = i.val ∧
          body = octetsLE 2 r.sampleOffset ++ [octet r.sampleCount] ++
            (List.range r.sampleCount).flatMap fun k =>
              octetsLE 2 (s.mem.sample i (r.sampleOffset + k)).toNat) →
      OnlyAnswers s (exec (.setRead p) s) p r rest .done
        ([octet r.recordKind] ++ octetsLE 2 r.recordIndex ++ body)) ∧
    (6 < r.recordKind ∨ (r.recordKind = 0 ∧ r.recordIndex ≠ 0) ∨
        (r.recordKind = 1 ∧ 64 ≤ r.recordIndex) ∨ (r.recordKind = 2 ∧ 256 ≤ r.recordIndex) ∨
        (r.recordKind = 3 ∧ 1024 ≤ r.recordIndex) ∨ (r.recordKind = 4 ∧ 16 ≤ r.recordIndex) ∨
        (r.recordKind = 5 ∧ 4 ≤ r.recordIndex) ∨ (r.recordKind = 6 ∧ (4 ≤ r.recordIndex ∨
          r.sampleCount = 0 ∨ 24 < r.sampleCount ∨ 4096 < r.sampleOffset + r.sampleCount)) →
      OnlyAnswers s (exec (.setRead p) s) p r rest .range [])

/-- SET DIGEST is refused BUSY while a digest runs, which is not changed; otherwise it is answered DONE and
a digest starts for the requesting port over the kinds of bits 0 to 5 (R16, R188). A digest over no kind
reads no word and is due with a sum of 0 in the next microsecond (R16, R17). -/
def Obligations.SetDigestRule : Prop :=
  (∀ (s : State) (p : Port) (r : Request) (rest : List Request), Heads s p .setDigest r rest →
    (s.mem.digest.isSome = true → OnlyAnswers s (exec (.setDigest p) s) p r rest .busy []) ∧
    (s.mem.digest = none → ∃ t, exec (.setDigest p) s = .next t ∧
      t.desk = answeredDesk s p r rest .done [] ∧ SameBut [.mem, .desk] s t ∧
      t.mem = { s.mem with
        digest := some ⟨p, BitVec.ofNat 6 (r.octetAt 0), 0, 0, false, false⟩ })) ∧
  ∀ (m : SetMemory) (p : Port), m.digest = some ⟨p, 0, 0, 0, false, false⟩ →
    m.readDigest.digest = some ⟨p, 0, 0, 0, false, true⟩

/-- A digest that has read its last word completes: it no longer runs, and the folded sum goes to the
requesting port with the kind mask and the disturbed mark, whatever the port's subscription; the notice is
dropped, and the lost-notice flag set, when the port holds 12 frames or more (R18, R165, R168). That the
command changes nothing while the digest is still reading is the model's choice (log entry 7). -/
def Obligations.DigestCompletes : Prop :=
  ∀ (s : State) (d : Digest), s.live = true → s.mem.digest = some d →
    (d.allRead = false → exec .digestComplete s = .next s) ∧
    (d.allRead = true →
      ∃ t, exec .digestComplete s = .next t ∧ t.mem = { s.mem with digest := none } ∧
        SameBut [.mem, .desk] s t ∧
        t.desk = s.desk.setPort d.requester (t.port d.requester) ∧
        ((s.port d.requester).framesHeld < 12 → t.port d.requester =
          { s.port d.requester with
            outbound := (s.port d.requester).outbound ++
              [.notice (.digest
                (BitVec.ofNat 32 (2 ^ 32 - 1 - (d.sum % 2 ^ 32 + d.sum / 2 ^ 32) % 2 ^ 32))
                d.kinds d.disturbed)] }) ∧
        (12 ≤ (s.port d.requester).framesHeld → t.port d.requester =
          { s.port d.requester with lostNotice := true }))

/-! ### The Scene Engine (chapter 6) and the modes (chapter 11) -/

/-- An accepted GO SONG, GO SCENE, GO NEXT or GO PREV is answered DONE, and the change it names enters the
slot PREPARING, with its records under copy and the standby bank emptied, FILLING and holding the echo permit
mask of the target scene; a change that was in the slot is displaced and reported (R44, R95, R97, R98, R100,
R101, R105). -/
def Obligations.GoAccepted : Prop :=
  ∀ (s : State) (p : Port) (r : Request) (rest : List Request) (i : Instr) (row : RequestRow)
    (ask : SceneAsk) (octet : Nat) (q : Option Quantize) (song scene : Nat),
    GoForm p r i row ask octet → Heads s p row r rest → decodeQuantize octet = some q →
    s.scene.mode = .showMode → Resolves s (s.rank (portOrigin p)) ask song scene →
    song < s.mem.header.setlistLength → scene < (s.mem.song song).sceneCount →
    (∀ c, s.scene.current = some c → ¬(c.song = song ∧ c.scene = scene)) →
    (∀ c, s.scene.staged = some c → c.rank ≤ s.rank (portOrigin p)) →
    ∃ t, exec i s = .next t ∧ SameBut [.mem, .desk, .router, .scene] s t ∧
      t.scene = { s.scene with staged := some (changeOf s (portOrigin p) song scene q 0) } ∧
      t.mem = { s.mem with
        underCopy := some ⟨(changeOf s (portOrigin p) song scene q 0).target.record,
          (changeOf s (portOrigin p) song scene q 0).copy.layerFirst,
          (changeOf s (portOrigin p) song scene q 0).copy.layerCount⟩ } ∧
      t.router.active = s.router.active ∧ t.router.echo = s.router.echo ∧ t.router.standby = [] ∧
      t.router.fill = .filling ∧
      t.router.standbyEcho = (s.mem.scene (((s.mem.song song).firstScene + scene) % 256)).echo ∧
      (s.scene.staged = none → t.desk = answeredDesk s p r rest .done []) ∧
      (∀ c, s.scene.staged = some c →
        t.desk = supersededDesk s (answeredDesk s p r rest .done []) c .replaced)

/-- A refused GO SONG, GO SCENE, GO NEXT or GO PREV is answered with the status of the first check of R97
that fails, and changes nothing else (R97, R100, R101). That an unassigned quantize code is refused RANGE
before the mode is looked at is the model's reading of R188 (log entry 15). -/
def Obligations.GoRefused : Prop :=
  ∀ (s : State) (p : Port) (r : Request) (rest : List Request) (i : Instr) (row : RequestRow)
    (ask : SceneAsk) (octet : Nat), GoForm p r i row ask octet → Heads s p row r rest →
    (decodeQuantize octet = none → OnlyAnswers s (exec i s) p r rest .range []) ∧
    ((decodeQuantize octet).isSome = true →
      (s.scene.mode = .setupMode → OnlyAnswers s (exec i s) p r rest .mode []) ∧
      (s.scene.mode = .showMode →
        (∀ st, Unresolved s (s.rank (portOrigin p)) ask st → OnlyAnswers s (exec i s) p r rest st []) ∧
        (∀ song scene, Resolves s (s.rank (portOrigin p)) ask song scene →
          (s.mem.header.setlistLength ≤ song ∨ (s.mem.song song).sceneCount ≤ scene →
            OnlyAnswers s (exec i s) p r rest .range []) ∧
          (song < s.mem.header.setlistLength → scene < (s.mem.song song).sceneCount →
            (∀ c, s.scene.current = some c → c.song = song → c.scene = scene →
              OnlyAnswers s (exec i s) p r rest .already []) ∧
            ((∀ c, s.scene.current = some c → ¬(c.song = song ∧ c.scene = scene)) →
              ∀ c, s.scene.staged = some c → s.rank (portOrigin p) < c.rank →
              OnlyAnswers s (exec i s) p r rest .outranked [])))))

/-- CANCEL: MODE outside SHOW, NONE on an empty slot, OUTRANKED below the staged change's rank, otherwise
DONE; then the slot, the standby bank and the under-copy set are empty, CHANGE SUPERSEDED with cause
CANCELLED goes to the ports of the change's origin and a SUPERSEDED record is captured, and neither the
frozen mark nor the current scene changes (R102). -/
def Obligations.CancelRule : Prop :=
  ∀ (s : State) (p : Port) (r : Request) (rest : List Request), Heads s p .cancel r rest →
    (s.scene.mode = .setupMode → OnlyAnswers s (exec (.cancel p) s) p r rest .mode []) ∧
    (s.scene.mode = .showMode →
      (s.scene.staged = none → OnlyAnswers s (exec (.cancel p) s) p r rest .none []) ∧
      ∀ c, s.scene.staged = some c →
        (s.rank (portOrigin p) < c.rank → OnlyAnswers s (exec (.cancel p) s) p r rest .outranked []) ∧
        (c.rank ≤ s.rank (portOrigin p) →
          ∃ t, exec (.cancel p) s = .next t ∧ SameBut [.mem, .desk, .router, .scene] s t ∧
            t.scene = { s.scene with staged := none } ∧ t.mem = { s.mem with underCopy := none } ∧
            t.router.active = s.router.active ∧ t.router.echo = s.router.echo ∧ t.router.standby = [] ∧
            t.router.fill = .empty ∧
            t.desk = supersededDesk s (answeredDesk s p r rest .done []) c .cancelled))

/-- FREEZE and THAW: MODE in SETUP, DONE in SHOW. FREEZE sets the frozen mark; THAW clears it, and when a
READY change of quantize IMMEDIATE is held it is taken at the THAW; no other state changes (R103, R108). -/
def Obligations.FreezeAndThaw : Prop :=
  ∀ (s : State) (p : Port) (r : Request) (rest : List Request),
    (Heads s p .freeze r rest →
      (s.scene.mode = .setupMode → OnlyAnswers s (exec (.freeze p) s) p r rest .mode []) ∧
      (s.scene.mode = .showMode → ∃ t, exec (.freeze p) s = .next t ∧ SameBut [.desk, .scene] s t ∧
        t.desk = answeredDesk s p r rest .done [] ∧ t.scene = { s.scene with frozen := true })) ∧
    (Heads s p .thaw r rest →
      (s.scene.mode = .setupMode → OnlyAnswers s (exec (.thaw p) s) p r rest .mode []) ∧
      (s.scene.mode = .showMode → s.scene.frozen = false →
        OnlyAnswers s (exec (.thaw p) s) p r rest .done []) ∧
      (s.scene.mode = .showMode → s.scene.frozen = true →
        (∀ c, s.scene.staged = some c → c.preparation = .preparing ∨ c.quantize ≠ .immediate) →
        ∃ t, exec (.thaw p) s = .next t ∧ SameBut [.desk, .scene] s t ∧
          t.desk = answeredDesk s p r rest .done [] ∧ t.scene = { s.scene with frozen := false }) ∧
      (∀ c, s.scene.mode = .showMode → s.scene.frozen = true → s.scene.staged = some c →
        c.preparation = .ready → c.quantize = .immediate →
        ∃ u t, SameBut [.desk, .scene] s u ∧ u.desk = answeredDesk s p r rest .done [] ∧
          u.scene = { s.scene with frozen := false } ∧ exec (.thaw p) s = .next t ∧ t = u.take c))

/-- STEP: MODE in SETUP; NONE on an empty slot or a change still PREPARING; otherwise the change is taken,
frozen or not, and the request is answered DONE when the take is complete, so its response stands behind
whatever the take admitted; the frozen mark is kept (R104). -/
def Obligations.StepRule : Prop :=
  ∀ (s : State) (p : Port) (r : Request) (rest : List Request), Heads s p .step r rest →
    (s.scene.mode = .setupMode → OnlyAnswers s (exec (.step p) s) p r rest .mode []) ∧
    (s.scene.mode = .showMode → (∀ c, s.scene.staged = some c → c.preparation = .preparing) →
      OnlyAnswers s (exec (.step p) s) p r rest .none []) ∧
    (∀ c, s.scene.mode = .showMode → s.scene.staged = some c → c.preparation = .ready →
      ∃ t, exec (.step p) s = .next t ∧ SameBut [.desk] (s.take c) t ∧
        t.desk = answeredDesk (s.take c) p r rest .done [] ∧ t.scene.frozen = s.scene.frozen)

/-- The next event of an output whose line is free: the head of the urgent queue, or else of the bulk queue,
for 320 microseconds an octet (R31). -/
def nextTransmit (now : StageTime) (urgent : List Urgent) (bulk : List BulkPlace) : Transmit :=
  match urgent, bulk with
  | e :: _, _ => .sending .urgent (now + BitVec.ofNat 32 (320 * e.octets.length))
  | [], b :: _ => .sending .bulk (now + BitVec.ofNat 32 (320 * b.octets.length))
  | [], [] => .idle

/-- The output once the events `es` have been appended to its urgent queue, each with room: an idle line has begun
the head of the queue, and the critical flag is raised if the length has passed the level (R31, R37). -/
def appendedOut (now : StageTime) (q : OutPort) (es : List Urgent) : OutPort :=
  if es = [] then q
  else { q with
    urgent := q.urgent ++ es
    critical := q.critical || decide (q.level < q.urgent.length + es.length)
    transmit := if q.transmit = .idle then nextTransmit now (q.urgent ++ es) q.bulk else q.transmit }

/-- The desk once the event `e` has been appended to the urgent queue of output `o`, found as `q`: a QUEUE notice of
cause CRITICAL where the length passes the level and the flag was clear, and LEGS SENT where an idle line begins a
note-on (R31, R37). -/
def appendedDesk (d : Desk) (o : Output) (q : OutPort) (e : Urgent) : Desk :=
  let d := if q.critical = false ∧ q.level < q.urgent.length + 1
    then d.raise (.queueCritical o (q.urgent.length + 1) q.level) else d
  if q.transmit = .idle ∧ (q.urgent ++ [e]).head?.map Urgent.isNoteOn = some true
  then d.report .legsSent o.val else d

/-- The instrument side once the event `e` has been appended to the urgent queue of output `o`: its output and
desk, and for a PROGRAM no held program is left for its channel (R30, R31, R37). -/
def appendedRig (now : StageTime) (r : Rig) (o : Output) (e : Urgent) : Rig :=
  { r with
    outputs := r.outputs.set o (appendedOut now (r.out o) [e])
    desk := appendedDesk r.desk o (r.out o) e
    records := match e with
      | .program c _ _ => (r.setChan o c { r.chan o c with held := none }).records
      | _ => r.records }

/-- The record with the current program of `p`, and its current bank when `p` names one (R80). -/
def madeCurrent (p : Program) (x : ChanRec) : ChanRec :=
  { x with
    program := some p.number
    bank := match p.bank with
      | none => x.bank
      | some b => some b }

/-- The four cases of a program setting of a take, decided against its record, on an output that is disabled or
has room (R80 to R84). Unchanged: nothing. Immediate, when nothing sounds on the record: the PROGRAM is
appended, where an idle line begins it at once, or held on a disabled output, and made current. Flip, when the
alternate is silent: the PROGRAM goes to the alternate in the same way and is its current one, the record redirects
to it for the generation, and a program still pending on the record is dropped. Otherwise pending: the program
waits with the deadline of the spill limit, over every leg now sounding; with a limit of 0 the old legs end and the
program is released at once (R31, R39 for the line and the disabled output). -/
def SettingCases : Prop :=
  ∀ (r : Rig) (m : Moment) (limit : Nat) (x : Setting),
    let here := r.chan x.output x.channel
    let unchanged := here.program = some x.program.number ∧
      (∀ b, x.program.bank = some b → here.bank = some b) ∧ here.pending = none
    let sends := fun (c : Chan) (t : Rig) => t.table = r.table ∧
      (∀ o, t.out o = if o = x.output
        then appendedOut m.now (r.out o) [.program c x.program false] else r.out o) ∧
      t.desk = appendedDesk r.desk x.output (r.out x.output) (.program c x.program false)
    let holds := fun t : Rig => t.table = r.table ∧ (∀ o, t.out o = r.out o) ∧ t.desk = r.desk
    let silentAlternate := fun a : Chan => x.alternate = some a ∧ (r.chan x.output a).sounding = 0
    let flipped := fun (a : Chan) (held : Option Program) (t : Rig) => ∀ o c, t.chan o c =
      if o = x.output ∧ c = a then { madeCurrent x.program (r.chan o a) with held := held }
      else if o = x.output ∧ c = x.channel then { here with
        redirect := some (a, m.generation), pending := none
        old := if here.pending.isSome then 0 else here.old }
      else r.chan o c
    (unchanged → r.applySetting m limit x = r) ∧
    (¬unchanged → here.sounding = 0 →
      ((r.out x.output).enabled = true → (r.out x.output).urgent.length < 48 →
        sends x.channel (r.applySetting m limit x) ∧
        ∀ o c, (r.applySetting m limit x).chan o c =
          if o = x.output ∧ c = x.channel then { madeCurrent x.program here with held := none }
          else r.chan o c) ∧
      ((r.out x.output).enabled = false →
        holds (r.applySetting m limit x) ∧
        ∀ o c, (r.applySetting m limit x).chan o c =
          if o = x.output ∧ c = x.channel then { madeCurrent x.program here with held := some x.program }
          else r.chan o c)) ∧
    (∀ a, ¬unchanged → here.sounding ≠ 0 → silentAlternate a →
      ((r.out x.output).enabled = true → (r.out x.output).urgent.length < 48 →
        sends a (r.applySetting m limit x) ∧ flipped a none (r.applySetting m limit x)) ∧
      ((r.out x.output).enabled = false →
        holds (r.applySetting m limit x) ∧ flipped a (some x.program) (r.applySetting m limit x))) ∧
    (¬unchanged → here.sounding ≠ 0 → (∀ a, ¬silentAlternate a) →
      (limit ≠ 0 → r.applySetting m limit x = r.setChan x.output x.channel { here with
        pending := some ⟨x.program, m.generation, m.now + BitVec.ofNat 32 (limit * 1000)⟩
        old := here.sounding }) ∧
      (limit = 0 → here.sounding = sentLegs r x.output x.channel →
        (allLegs r |>.map fun l => l.id).Nodup → (∀ e ∈ r.table, e.generation ≠ m.generation) →
        ((r.applySetting m limit x).chan x.output x.channel).pending = none ∧
        ((r.applySetting m limit x).chan x.output x.channel).program = some x.program.number ∧
        sentLegs (r.applySetting m limit x) x.output x.channel = 0))

/-- The instrument side that a take to `c` leaves before its report: the entries of the new generation have
ended, with ages measured by the generation before the rise (log entry 16), the redirects of other generations
are gone, and the program settings have been applied in list order (R72, R81, R109). -/
def takenRig (s : State) (c : Change) : Rig :=
  let ended := s.rig.endLegs ⟨s.time, s.scene.generation⟩
    (legIds (s.rig.table.filter fun e => e.generation = s.scene.generation + 1))
  c.copy.settings.foldl
    (fun r x => r.applySetting ⟨s.time, s.scene.generation + 1⟩ s.mem.header.spillLimit x)
    (ended.mapRecords fun y => match y.redirect with
      | some (_, g) => if g = s.scene.generation + 1 then y else { y with redirect := none }
      | none => y)

/-- The position that a take to `c` leaves: a song change, or a first scene, begins the count-in of the song, and
any other take keeps it (R111). -/
def takenPosition (s : State) (c : Change) : Position :=
  if s.scene.position.song = some c.target.song ∧ s.scene.current.isSome = true then s.scene.position
  else ⟨some c.target.song, -((s.mem.song c.target.song).countInBars : Int), 0, false⟩

/-- The pattern that a take to `c` hands over (R145). -/
def takenPattern (s : State) (c : Change) : Pattern := (s.mem.pattern c.copy.pattern.val).copied

/-- The Tempo Engine that a take to `c` leaves, with the effective tempo, the clamped flag and the increment of
`x`: the ratio is stored, the scene's tempo is taken in FREE only, and a new division sets the click index to the
subdivision reached (R110, R124, R128). -/
def takenTempo (s : State) (c : Change) (x : Tempo) : Tempo :=
  { s.tempo with
    ratio := c.copy.ratio
    base := if s.tempo.state = .free then c.copy.tempo.getD s.tempo.base else s.tempo.base
    clickIndex := if (takenPattern s c).division = s.click.pattern.division then s.tempo.clickIndex
      else s.tempo.phase.toNat * (takenPattern s c).division / 2 ^ 32
    effective := x.effective
    increment := x.increment
    clamped := x.clamped }

/-- A take: the banks exchange and the standby bank empties, the generation rises by one and the current
scene becomes the target, no entry of the new generation stays in the table, no redirect of another
generation stays, the program settings are applied in list order, each by the first of its four cases that
holds, the ratio is stored, the scene's tempo is taken in FREE only, the meter and the pattern are the scene's,
the position follows R111, the slot empties, a new division sets the click index to the subdivision reached, and
the beat phase, the frozen mark and everything else are kept. It is reported by
SCENE TAKEN to both ports, by SONG START behind it when a song change set the bar to 0, by a SCENE TAKEN record,
as SCENE TAKES and by POSITION (R45, R72, R81 to R84, R109 to R112; that the ages of the entries of the new
generation are measured by the generation before the rise is log entry 16, the order of SONG START and the
record is log entry 17, and the record's song tag log entry 30). -/
def Obligations.TakeEffects : Prop :=
  SettingCases ∧ ∀ (s : State) (c : Change), tableBounded s →
    SameBut [.desk, .outputs, .records, .table, .router, .scene, .tempo, .click] s (s.take c) ∧
    (s.take c).scene = { s.scene with
      generation := s.scene.generation + 1
      current := some c.target
      staged := none
      meter := c.copy.meter
      position := takenPosition s c } ∧
    (s.take c).router = ⟨s.router.standby, [], .empty, 0, s.router.standbyEcho⟩ ∧
    (∀ e ∈ (s.take c).rig.table, e.generation ≠ s.scene.generation + 1) ∧
    (∀ o d a g, ((s.take c).rig.chan o d).redirect = some (a, g) → g = s.scene.generation + 1) ∧
    (s.take c).tempo = takenTempo s c (s.take c).tempo ∧ tempoInStep (s.take c) ∧
    (s.take c).click = { s.click with pattern := takenPattern s c } ∧
    (s.take c).rig.outputs = (takenRig s c).outputs ∧ (s.take c).rig.records = (takenRig s c).records ∧
    (s.take c).rig.table = (takenRig s c).table ∧
    (s.take c).desk =
      (((if (s.scene.position.song ≠ some c.target.song ∨ s.scene.current = none) ∧
          (s.mem.song c.target.song).countInBars = 0 ∧ s.scene.mode = .showMode then
        ((takenRig s c).desk.raise (.sceneTaken c.target.song c.target.scene
          (s.mem.song c.target.song).tag (s.scene.generation + 1) c.origin)).raise
          (.songStart c.target.song (s.mem.song c.target.song).tag (s.scene.generation + 1))
      else (takenRig s c).desk.raise (.sceneTaken c.target.song c.target.scene
          (s.mem.song c.target.song).tag (s.scene.generation + 1) c.origin)).record
        { time := s.time, kind := .sceneTaken, origin := some c.origin, output := none,
          song := some c.target.song, scene := some c.target.scene,
          generation := some (s.scene.generation + 1), channel := none, detail := none,
          cueTag := c.copy.cueTag, songTag := some (s.mem.song c.target.song).tag }).report
        .sceneTakes 0).raise (.position (s.take c).scene.position.song (s.take c).scene.position.bar
          (s.take c).scene.position.beat (s.scene.generation + 1))

/-- A preparation whose whole run passes the checks completes: the standby bank is FILLED with the run as it
is stored, the under-copy set empties, the change is READY and CHANGE READY goes to the ports of its origin;
a change of quantize IMMEDIATE is then taken unless the frozen mark is set (R107, R108). -/
def Obligations.PreparationCompletes : Prop :=
  ∀ (s : State) (c : Change), s.live = true → s.scene.staged = some c → c.preparation = .preparing →
    s.mem.checkRun c.copy = none →
    ∃ u t, exec .preparationComplete s = .next t ∧ SameBut [.mem, .desk, .router, .scene] s u ∧
      u.scene = { s.scene with staged := some { c with preparation := .ready } } ∧
      u.mem = { s.mem with underCopy := none } ∧
      u.router = { s.router with
        fill := .filled
        standby := (List.range c.copy.layerCount).map fun k => s.mem.layer (c.copy.layerFirst + k) } ∧
      u.desk = s.desk.raiseFor c.origin
        (.changeReady c.target.song c.target.scene c.origin c.quantize) ∧
      t = if c.quantize = .immediate ∧ s.scene.frozen = false
        then u.take { c with preparation := .ready } else u

/-- Entry `k` of a run lies below the entry before it in the order of R43 (R106). -/
def entryDisordered (m : SetMemory) (first k : Nat) : Prop :=
  k ≠ 0 ∧ ((m.layer (first + k)).sourceChannel < (m.layer (first + k - 1)).sourceChannel ∨
    (m.layer (first + k)).sourceChannel = (m.layer (first + k - 1)).sourceChannel ∧
      (m.layer (first + k)).keyLow < (m.layer (first + k - 1)).keyLow)

/-- The reason of the first check that an entry fails, in the order of the table of R106. -/
inductive FailsFor (m : SetMemory) (first k : Nat) : Reason → Prop
  | order : entryDisordered m first k → FailsFor m first k .order
  | noInputs : ¬entryDisordered m first k → (m.layer (first + k)).inputs = 0 → FailsFor m first k .noInputs
  | noOutputs : ¬entryDisordered m first k → (m.layer (first + k)).inputs ≠ 0 →
      (m.layer (first + k)).action = .route → (m.layer (first + k)).outputs = 0 →
      FailsFor m first k .noOutputs

/-- A preparation fails the first check of R106 that fails: BOUNDS before any entry; for an entry ORDER when it
is disordered, else NO INPUTS when its input mask is empty, else NO OUTPUTS when it is a ROUTE entry with an
empty output mask, at the first entry that fails one, whose offset is reported; then the slot,
the standby bank and the under-copy set empty, and the refusal goes to the ports of the change's origin and
is captured (R44, R99, R106). -/
def Obligations.PreparationFails : Prop :=
  (∀ (m : SetMemory) (c : Scene),
    (1024 < c.layerFirst + c.layerCount → m.checkRun c = some (.bounds, 1024 - c.layerFirst)) ∧
    (c.layerFirst + c.layerCount ≤ 1024 →
      (m.checkRun c = none ↔ ∀ k, k < c.layerCount → entryPasses m c.layerFirst k) ∧
      ∀ reason k, m.checkRun c = some (reason, k) →
        k < c.layerCount ∧ ¬entryPasses m c.layerFirst k ∧
          (∀ j, j < k → entryPasses m c.layerFirst j) ∧ FailsFor m c.layerFirst k reason)) ∧
  (∀ (m : SetMemory) (c : Scene) (reason : Reason) (k : Nat), c.layerFirst + c.layerCount ≤ 1024 →
    k < c.layerCount → (∀ j, j < k → entryPasses m c.layerFirst j) → FailsFor m c.layerFirst k reason →
    m.checkRun c = some (reason, k)) ∧
  ∀ (s : State) (c : Change) (reason : Reason) (offset : Nat), s.live = true →
    s.scene.staged = some c → c.preparation = .preparing →
    s.mem.checkRun c.copy = some (reason, offset) →
    ∃ t, exec .preparationCheckFail s = .next t ∧ SameBut [.mem, .desk, .router, .scene] s t ∧
      t.scene = { s.scene with staged := none } ∧ t.mem = { s.mem with underCopy := none } ∧
      t.router.active = s.router.active ∧ t.router.standby = [] ∧ t.router.fill = .empty ∧
      t.desk = (s.desk.raiseFor c.origin (.changeRefused (some c.target.song) (some c.target.scene)
          c.origin reason (some offset))).record
        { time := s.time, kind := .changeRefused, origin := some c.origin, output := none,
          song := some c.target.song, scene := some c.target.scene,
          generation := some s.scene.generation, channel := none, detail := some (.refused reason),
          cueTag := c.cueTag }

/-- The desk once a change of mode has been answered and reported: DONE, then a MODE notice to both ports
and a MODE record (R118, R182). -/
def modeDesk (s : State) (p : Port) (r : Request) (rest : List Request) (m : Mode) : Desk :=
  ((answeredDesk s p r rest .done []).raise (.mode m)).record
    { time := s.time, kind := .mode, origin := none, output := none, song := none, scene := none,
      generation := none, channel := none, detail := some (.mode m), cueTag := 0 }

/-- ENTER SHOW: MODE in SHOW, EMPTY with a setlist length of 0, otherwise DONE: the mode is SHOW, the change
is reported, and song 0 scene 0 is staged at rank 3 with quantize IMMEDIATE; with a scene count of 0 it is
refused RANGE, and the refusal is sent to both ports and captured (R117, R182). -/
def Obligations.EnterShowRule : Prop :=
  ∀ (s : State) (p : Port) (r : Request) (rest : List Request), Heads s p .enterShow r rest →
    (s.scene.mode = .showMode → OnlyAnswers s (exec (.enterShow p) s) p r rest .mode []) ∧
    (s.scene.mode = .setupMode → s.mem.header.setlistLength = 0 →
      OnlyAnswers s (exec (.enterShow p) s) p r rest .empty []) ∧
    (s.scene.mode = .setupMode → 0 < s.mem.header.setlistLength → setupIdle s →
      (0 < (s.mem.song 0).sceneCount →
        ∃ t, exec (.enterShow p) s = .next t ∧ SameBut [.mem, .desk, .router, .scene] s t ∧
          t.desk = modeDesk s p r rest .showMode ∧
          t.scene = { s.scene with
            mode := .showMode
            staged := some (changeOf s .modeChange 0 0 (some .immediate) 0) } ∧
          s.rank .modeChange = 3 ∧
          t.mem = { s.mem with
            underCopy := some ⟨(changeOf s .modeChange 0 0 (some .immediate) 0).target.record,
              (changeOf s .modeChange 0 0 (some .immediate) 0).copy.layerFirst,
              (changeOf s .modeChange 0 0 (some .immediate) 0).copy.layerCount⟩ } ∧
          t.router.active = [] ∧ t.router.standby = [] ∧ t.router.fill = .filling ∧
          t.router.standbyEcho = (changeOf s .modeChange 0 0 (some .immediate) 0).copy.echo) ∧
      ((s.mem.song 0).sceneCount = 0 →
        ∃ t, exec (.enterShow p) s = .next t ∧ SameBut [.desk, .scene] s t ∧
          t.scene = { s.scene with mode := .showMode } ∧
          t.desk = ((modeDesk s p r rest .showMode).raise (.changeRefused (some 0) (some 0) .modeChange
              (.refusal .range) none)).record
            { time := s.time, kind := .changeRefused, origin := some .modeChange, output := none,
              song := some 0, scene := some 0, generation := some s.scene.generation, channel := none,
              detail := some (.refused (.refusal .range)), cueTag := 0 }))

/-- ENTER SETUP: MODE in SETUP; in SHOW the table empties with its note-offs, the pedals are UP, no redirect
stays, slot, banks and under-copy set empty, the scene and position clear, the meter is 4 and the mode is
SETUP; then DONE is admitted, followed by the MODE notice and record. Generation, tempo, click, records of
the set and enables are kept (R76, R91, R118, R183). -/
def Obligations.EnterSetupRule : Prop :=
  ∀ (s : State) (p : Port) (r : Request) (rest : List Request), Heads s p .enterSetup r rest →
    (s.scene.mode = .setupMode → OnlyAnswers s (exec (.enterSetup p) s) p r rest .mode []) ∧
    (s.scene.mode = .showMode → tableBounded s →
      ∃ u t, u = s.setRig (s.rig.endLegs s.moment (legIds s.rig.table)) ∧
        exec (.enterSetup p) s = .next t ∧
        SameBut [.mem, .desk, .outputs, .records, .table, .pedals, .router, .scene] s t ∧
        t.rig.table = [] ∧ (∀ n c, t.rig.pedal n c = false) ∧
        (∀ o c, t.rig.chan o c = { u.rig.chan o c with redirect := none }) ∧
        t.rig.outputs = u.rig.outputs ∧ (∀ o, (t.rig.out o).enabled = (s.rig.out o).enabled) ∧
        t.mem = { s.mem with underCopy := none } ∧ t.router = ⟨[], [], .empty, 0, 0⟩ ∧
        t.scene = ⟨.setupMode, none, s.scene.generation, none, false, ⟨none, 0, 0, false⟩, 4⟩ ∧
        t.desk = modeDesk u p r rest .setupMode)

/-- RESTART: the Scene Engine, router, Note Table, Channel Table, deframers, queues, Tempo Engine, click
voices, counters and capture list take their RESTART values; the event on each line goes on to its end, and an
idle line begins the first ALL-NOTES-OFF; the records of the set, a running digest, the
generation, the enables, the trim, the master gain and mute, the audio clock
and the ports' queues, subscriptions and flags are kept; DONE is admitted, and then a MODE notice carrying
SETUP goes to both ports (R41, R46, R77, R92, R119, R143, R157, R172, R181, R184). That a boundary of the present
microsecond still owed is dropped is the model's choice (log entry 42). -/
def Obligations.RestartRule : Prop :=
  ∀ (s : State) (p : Port) (r : Request) (rest : List Request), Heads s p .restart r rest →
    ∃ t, exec (.restart p) s = .next t ∧
      t.mem = { s.mem with underCopy := none } ∧
      t.scene = ⟨.setupMode, none, s.scene.generation, none, false, ⟨none, 0, 0, false⟩, 4⟩ ∧
      t.router = ⟨[], [], .empty, 0, 0⟩ ∧ t.rig.table = [] ∧ (∀ n c, t.rig.pedal n c = false) ∧
      (∀ o c, t.rig.chan o c = ⟨none, none, none, 0, 0, none, false, none⟩) ∧
      (∀ n, t.deframer n = ⟨.none, none⟩) ∧
      (∀ o, (t.rig.out o).enabled = (s.rig.out o).enabled ∧ (t.rig.out o).level = 40 ∧
        (t.rig.out o).overflow = false ∧ (t.rig.out o).critical = false ∧
        (t.rig.out o).urgent = (if (s.rig.out o).urgentOnLine then (s.rig.out o).urgent.take 1 else []) ++
          (if (s.rig.out o).enabled then allChans.map Urgent.allNotesOff else []) ∧
        (t.rig.out o).bulk = ((if (s.rig.out o).bulkOnLine then (s.rig.out o).bulk.take 1 else []).map
          fun b => { b with followUp := none }) ∧
        (∀ q last, (s.rig.out o).transmit = .sending q last → (t.rig.out o).transmit = .sending q last) ∧
        ((s.rig.out o).transmit = .idle → (t.rig.out o).transmit =
          if (s.rig.out o).enabled then .sending .urgent (s.time + 960) else .idle)) ∧
      t.tempo.reference = ⟨none, none, none, 0, 0, none, 0⟩ ∧ t.tempo.base = 12000 ∧
      t.tempo.ratio = 256 ∧ t.tempo.trim = s.tempo.trim ∧ t.tempo.phase = 0 ∧
      t.tempo.clickIndex = 0 ∧ t.tempo.source = .internal ∧ t.tempo.state = .free ∧
      t.tempo.followShift = s.mem.header.followShift ∧ t.tempo.taps = [] ∧ t.tempo.lastTap = none ∧
      t.tempo.phaseOwed = none ∧ t.tempo.ownBeats = 0 ∧ t.tempo.refBeats = 0 ∧ t.tempo.lineHighUntil = none ∧ tempoInStep t ∧
      (∀ i : Fin 4, t.click.voices[i] = .free) ∧ t.click.pattern = (s.mem.pattern 0).copied ∧
      t.click.master = s.click.master ∧ t.click.mute = s.click.mute ∧ t.click.audio = s.click.audio ∧
      t.desk = ({ answeredDesk s p r rest .done [] with
        counters := Vector.replicate 4 ⟨none, 0, 0, 0, false⟩
        capture := ⟨Vector.replicate 32 none, .disarmed, 0, 0⟩ }).raise (.mode .setupMode) ∧
      SameBut [.mem, .desk, .outputs, .records, .table, .pedals, .inputs, .router, .scene, .tempo,
        .click] s t

/-- The click of a beat boundary at bar `bar` and beat `beat`: in count-in the pattern's count-in click, and
otherwise that of the level of item `beat` of the accent list taken round, none for SILENT (R146, R148). -/
def beatClicks (p : Pattern) (bar : Int) (beat : Nat) : List Click :=
  if bar < 0 then [p.countIn]
  else match p.levels[beat % p.levels.length]? with
    | some .accent => [p.accent]
    | some .normal => [p.normal]
    | _ => []

/-- The desk after a report of a change of source state: LOCK to both ports and a LOCK CHANGE record (R139). -/
def lockDesk (d : Desk) (now : StageTime) (state : SourceState) (source : Source) (base : Nat) : Desk :=
  (d.raise (.lock state source base)).record
    { time := now, kind := .lockChange, origin := none, output := none, song := none, scene := none,
      generation := none, channel := none, detail := some (.lock state source), cueTag := 0 }

/-- The position after a beat boundary under the meter in force (R113 stage 1). -/
def countedPosition (e : SceneEngine) : Position :=
  if e.position.newBarOwed = true ∨ e.meter ≤ e.position.beat + 1 then
    { e.position with
      beat := 0
      newBarOwed := false
      bar := if e.position.bar = 32767 then 32767 else e.position.bar + 1 }
  else { e.position with beat := e.position.beat + 1 }

/-- The desk `starts` follows `desk` by SONG START when the beat from `s` to `t` raises the bar from -1 to 0 in
SHOW with a song, and otherwise is `desk` (R113). -/
def SongStarts (s t : State) (desk starts : Desk) : Prop :=
  (∀ song, s.scene.mode = .showMode → s.scene.position.song = some song →
    s.scene.position.bar = -1 → t.scene.position.bar = 0 →
    starts = desk.raise (.songStart song (s.mem.song song).tag s.scene.generation)) ∧
  (s.scene.mode = .setupMode ∨ s.scene.position.song = none ∨ s.scene.position.bar ≠ -1 ∨
    t.scene.position.bar ≠ 0 → starts = desk)

/-- The holdover is at its sixteenth beat (R138). -/
def lastHoldoverBeat (s : State) : Prop := s.tempo.state = .holdover ∧ 16 ≤ s.tempo.reference.holdoverBeats + 1

/-- The READY change `c` has its take point at the next beat boundary of `s` (R108, R113). -/
def TakesAt (s : State) (c : Change) : Prop :=
  s.scene.staged = some c ∧ c.preparation = .ready ∧ s.scene.frozen = false ∧
    (c.quantize = .beat ∨ (c.quantize = .bar ∧
      (s.scene.position.newBarOwed = true ∨ s.scene.meter ≤ s.scene.position.beat + 1)))

/-- A beat boundary before its take, from `s`, whose phase has already moved, to `u`: the click index is 0, OWN
BEATS counts in LOCKED, the holdover beat count in HOLDOVER, whose sixteenth beat returns the state to ACQUIRING
with a LOCK notice and record; the position is counted under the meter in force, with SONG START when the bar
reaches 0 in SHOW (R113 stages 1 and 2, R123, R138, R139). -/
def CountsBeat (s u : State) : Prop :=
  SameBut [.desk, .scene, .tempo] s u ∧
    u.scene = { s.scene with position := countedPosition s.scene } ∧
    u.tempo = { s.tempo with
      clickIndex := 0
      ownBeats := if s.tempo.state = .locked then s.tempo.ownBeats + 1 else s.tempo.ownBeats
      state := u.tempo.state
      reference := u.tempo.reference } ∧
    (¬lastHoldoverBeat s → u.tempo.state = s.tempo.state) ∧
    (s.tempo.state ≠ .holdover → u.tempo.reference = s.tempo.reference) ∧
    (s.tempo.state = .holdover → ¬lastHoldoverBeat s → u.tempo.reference =
      { s.tempo.reference with holdoverBeats := s.tempo.reference.holdoverBeats + 1 }) ∧
    (lastHoldoverBeat s → u.tempo.state = .acquiring ∧ u.tempo.reference = { s.tempo.reference with
      previous := none, acquisitionRun := 0, outlierRun := 0, holdoverDeadline := none,
      holdoverBeats := 0 }) ∧
    ∃ locks, (lastHoldoverBeat s → locks = lockDesk s.desk s.time .acquiring s.tempo.source s.tempo.base) ∧
      (¬lastHoldoverBeat s → locks = s.desk) ∧ SongStarts s u locks u.desk

/-- The hand-off of a beat boundary, from `u` to `t`: the click of the position, looked up in the pattern in force,
waits for the next sample period while the audio clock is PRESENT, the beat line goes high for 48,000
microseconds at beat index 0 and 16,000 at another, and POSITION is raised (R113 stage 4, R125, R146, R148,
R149). -/
def HandsOff (u t : State) : Prop :=
  SameBut [.desk, .tempo, .click] u t ∧
    t.click = { u.click with
      waiting := u.click.waiting ++ if u.click.audio = .present
        then beatClicks u.click.pattern u.scene.position.bar u.scene.position.beat else [] } ∧
    t.tempo = { u.tempo with
      lineHighUntil :=
        some (u.time + BitVec.ofNat 32 (if u.scene.position.beat = 0 then 48000 else 16000)) } ∧
    t.desk = u.desk.raise (.position u.scene.position.song u.scene.position.bar u.scene.position.beat
      u.scene.generation)

/-- A beat boundary from `s`, whose phase has already moved, to `t`: the beat is counted, a change whose take point
it is is taken, and the position that is left is handed off (R113). -/
def BeatMade (s t : State) : Prop :=
  ∃ u, CountsBeat s u ∧ ((∀ c, ¬TakesAt s c) → HandsOff u t) ∧ ∀ c, TakesAt s c → HandsOff (u.take c) t

/-- A beat boundary that the phase advance of the present microsecond makes: the phase wraps, and the beat is made
(`BeatMade`): the click index is 0, the position is counted under the meter in force, OWN BEATS counts in LOCKED,
the holdover beat count in HOLDOVER, whose sixteenth beat returns the state to ACQUIRING with a LOCK notice and
record, SONG START is sent when the bar reaches 0 in SHOW, the beat's click waits for the next sample period while
the audio clock is PRESENT, the beat line goes high for 48,000 microseconds at beat index 0 and 16,000 at another,
and POSITION is raised. A READY change whose take point it is is taken between the counting and the hand-off: the
click is then that of the new pattern at the position the take left, and so are beat line and POSITION; the
click index is 0, or with a new division the subdivision reached. Nothing else of the Tempo Engine changes (R113,
R123 to R125, R138, R139, R145, R146, R148, R149). That the advance is owed to this command is the model's choice
(log entry 9), and so is the order of LOCK and SONG START (log entry 17). -/
def Obligations.BeatBoundaryRule : Prop :=
  ∀ (s v : State) (inc : Nat), s.live = true → s.tempo.phaseOwed = some inc → inc < 2 ^ 32 →
    2 ^ 32 ≤ s.tempo.phase.toNat + inc →
    v = s.setTempo { s.tempo with phaseOwed := none, phase := s.tempo.phase + BitVec.ofNat 32 inc } →
    v.tempo.phase.toNat = s.tempo.phase.toNat + inc - 2 ^ 32 ∧
    ∃ t, exec .beatBoundary s = .next t ∧ BeatMade v t ∧
      ((∀ c, ¬TakesAt s c) → SameBut [.desk, .scene, .tempo, .click] s t ∧
        t.scene = { s.scene with position := countedPosition s.scene } ∧ t.tempo.clickIndex = 0) ∧
      ∀ c, TakesAt s c →
        SameBut [.desk, .outputs, .records, .table, .router, .scene, .tempo, .click] s t ∧
        t.scene = { s.scene with
          generation := s.scene.generation + 1
          current := some c.target
          staged := none
          meter := c.copy.meter
          position := takenPosition
            (s.setScene { s.scene with position := countedPosition s.scene }) c } ∧
        t.router = ⟨s.router.standby, [], .empty, 0, s.router.standbyEcho⟩ ∧
        t.click = { s.click with
          pattern := takenPattern s c
          waiting := s.click.waiting ++ if s.click.audio = .present
            then beatClicks (takenPattern s c) t.scene.position.bar t.scene.position.beat else [] } ∧
        tempoInStep t ∧ ∃ u, CountsBeat v u ∧ t.tempo = { takenTempo u c t.tempo with
          lineHighUntil :=
            some (s.time + BitVec.ofNat 32 (if t.scene.position.beat = 0 then 48000 else 16000)) }

/-- A click boundary that the phase advance of the present microsecond makes without a beat boundary: the
click index becomes the subdivision reached, and in bar 0 or above the subdivision click waits for the next
sample period while the audio clock is PRESENT; the position is not changed (R124, R147, R149, R155). That the
advance is owed to this command is the model's choice (log entry 9), and so is that the subdivision sounds in the
beat between a RESTART and the first beat boundary too, where R157 puts the first click at that boundary (log
entry 34). -/
def Obligations.ClickBoundaryRule : Prop :=
  ∀ (s : State) (inc : Nat), s.live = true → s.tempo.phaseOwed = some inc →
    s.tempo.phase.toNat + inc < 2 ^ 32 →
    s.tempo.clickIndex < (s.tempo.phase.toNat + inc) * s.click.pattern.division / 2 ^ 32 →
    ∃ t, exec .clickBoundary s = .next t ∧ SameBut [.tempo, .click] s t ∧
      t.tempo = { s.tempo with
        phaseOwed := none
        phase := s.tempo.phase + BitVec.ofNat 32 inc
        clickIndex := (s.tempo.phase.toNat + inc) * s.click.pattern.division / 2 ^ 32 } ∧
      t.click = { s.click with
        waiting := s.click.waiting ++
          if s.click.audio = .present ∧ 0 ≤ s.scene.position.bar then [s.click.pattern.subdivision]
          else [] }

/-! ### The Tempo Engine (chapter 7) and stage time -/

/-- TEMPO SOURCE with an input, pulse count or follow shift outside its values is refused RANGE; otherwise
it is answered DONE, the source is the one named, the state FREE for INTERNAL and ACQUIRING for the others,
the reference fields and the tap series clear, the follow shift takes the value carried, the base tempo, the
stored ratio, the trim, the phase and the drift counters are kept, effective tempo and increment follow, and
a LOCK notice goes to both ports, with a LOCK CHANGE record when the state changed (R129, R139). A parameter
octet other than 0 for INTERNAL or MARK is left open by the spec and excluded here (log entry 3). -/
def Obligations.TempoSourceRule : Prop :=
  ∀ (s : State) (p : Port) (r : Request) (rest : List Request), Heads s p .tempoSource r rest →
    (3 < r.octetAt 0 ∨ (r.octetAt 0 = 1 ∧ 3 < r.octetAt 1) ∨
        (r.octetAt 0 = 2 ∧ r.octetAt 1 ≠ 1 ∧ r.octetAt 1 ≠ 2 ∧ r.octetAt 1 ≠ 4 ∧ r.octetAt 1 ≠ 24) ∨
        (4 < r.octetAt 2 ∧ r.octetAt 2 < 255) →
      OnlyAnswers s (exec (.tempoSource p) s) p r rest .range []) ∧
    ∀ (src : Source) (shift : Option Nat),
      (r.octetAt 0 = 0 ∧ r.octetAt 1 = 0 ∧ src = .internal) ∨
        (r.octetAt 0 = 1 ∧ ∃ n : Input, r.octetAt 1 = n.val ∧ src = .clock n) ∨
        (r.octetAt 0 = 2 ∧ ∃ rate : PulseRate, r.octetAt 1 = rate.perBeat ∧ src = .sync rate) ∨
        (r.octetAt 0 = 3 ∧ r.octetAt 1 = 0 ∧ src = .mark) →
      (r.octetAt 2 = 255 ∧ shift = none) ∨ (r.octetAt 2 ≤ 4 ∧ shift = some (r.octetAt 2)) →
      ∃ t, exec (.tempoSource p) s = .next t ∧ SameBut [.desk, .tempo] s t ∧ tempoInStep t ∧
        t.tempo = { s.tempo with
          source := src
          state := if src = .internal then .free else .acquiring
          followShift := shift.getD s.tempo.followShift
          taps := []
          lastTap := none
          reference := ⟨none, none, none, 0, 0, none, 0⟩
          effective := t.tempo.effective
          increment := t.tempo.increment
          clamped := t.tempo.clamped } ∧
        t.desk = if t.tempo.state = s.tempo.state
          then (answeredDesk s p r rest .done []).raise (.lock t.tempo.state src s.tempo.base)
          else ((answeredDesk s p r rest .done []).raise (.lock t.tempo.state src s.tempo.base)).record
            { time := s.time, kind := .lockChange, origin := none, output := none, song := none,
              scene := none, generation := none, channel := none,
              detail := some (.lock t.tempo.state src), cueTag := 0 }

/-- TEMPO SET is refused RANGE outside 2000 to 30000, then SOURCE outside FREE, and is otherwise answered
DONE and sets the base tempo; TRIM is refused RANGE outside -200 to 200 and is otherwise answered DONE and
sets the trim, in every source state. Effective tempo and increment are computed again, and nothing else of
the Tempo Engine changes (R126, R127). -/
def Obligations.TempoSetAndTrim : Prop :=
  ∀ (s : State) (p : Port) (r : Request) (rest : List Request),
    (Heads s p .tempoSet r rest →
      (fieldLE r.payload 0 2 < 2000 ∨ 30000 < fieldLE r.payload 0 2 →
        OnlyAnswers s (exec (.tempoSet p) s) p r rest .range []) ∧
      (2000 ≤ fieldLE r.payload 0 2 → fieldLE r.payload 0 2 ≤ 30000 →
        (s.tempo.state ≠ .free → OnlyAnswers s (exec (.tempoSet p) s) p r rest .source []) ∧
        (s.tempo.state = .free →
          ∃ t, exec (.tempoSet p) s = .next t ∧ SameBut [.desk, .tempo] s t ∧ tempoInStep t ∧
            t.desk = answeredDesk s p r rest .done [] ∧
            t.tempo = { s.tempo with
              base := fieldLE r.payload 0 2, effective := t.tempo.effective,
              increment := t.tempo.increment, clamped := t.tempo.clamped }))) ∧
    (Heads s p .trim r rest →
      (signedField (fieldLE r.payload 0 2) 16 < -200 ∨ 200 < signedField (fieldLE r.payload 0 2) 16 →
        OnlyAnswers s (exec (.trim p) s) p r rest .range []) ∧
      (-200 ≤ signedField (fieldLE r.payload 0 2) 16 → signedField (fieldLE r.payload 0 2) 16 ≤ 200 →
        ∃ t, exec (.trim p) s = .next t ∧ SameBut [.desk, .tempo] s t ∧ tempoInStep t ∧
          t.desk = answeredDesk s p r rest .done [] ∧
          t.tempo = { s.tempo with
            trim := signedField (fieldLE r.payload 0 2) 16, effective := t.tempo.effective,
            increment := t.tempo.increment, clamped := t.tempo.clamped }))

/-- A beat mark taken by the Tempo Engine: ignored unless the requested source is MARK; otherwise a reference
pulse and, with the downbeat flag, the realignment of R115 that the phase afterwards chooses (R142). -/
def DownbeatRealigns : Prop :=
  ∀ s : State, (s.tempo.source ≠ .mark → ∀ b, s.beatMark b = s) ∧
    (s.tempo.source = .mark → s.beatMark false = s.pulse ∧
      ∀ u, u = s.pulse → SameBut [.desk, .scene] u (s.beatMark true) ∧
        (u.tempo.phase.toInt < 0 →
          (s.beatMark true).scene = { u.scene with
            position := { u.scene.position with newBarOwed := true } } ∧
          (s.beatMark true).desk =
            (if u.scene.position.beat + 1 < u.scene.meter then u.desk.report .barSlips 0 else u.desk).raise
              (.position u.scene.position.song u.scene.position.bar u.scene.position.beat
                u.scene.generation)) ∧
        (0 ≤ u.tempo.phase.toInt → u.scene.position.beat = 0 →
          (s.beatMark true).scene = u.scene ∧ (s.beatMark true).desk = u.desk.raise
            (.position u.scene.position.song u.scene.position.bar 0 u.scene.generation)) ∧
        (0 ≤ u.tempo.phase.toInt → u.scene.position.beat ≠ 0 →
          (s.beatMark true).scene = { u.scene with position := { u.scene.position with
            beat := 0
            newBarOwed := false
            bar := if u.scene.position.bar = 32767 then 32767 else u.scene.position.bar + 1 } } ∧
          (s.beatMark true).desk =
            (match u.scene.mode, u.scene.position.song with
              | .showMode, some song => if u.scene.position.bar = -1
                then (u.desk.report .barSlips 0).raise
                  (.songStart song (u.mem.song song).tag u.scene.generation)
                else u.desk.report .barSlips 0
              | _, _ => u.desk.report .barSlips 0).raise
              (.position u.scene.position.song (s.beatMark true).scene.position.bar 0
                u.scene.generation)))

/-- A TAP, and a BEAT MARK at the show port, is taken at the end of the transfer that carries it when fewer
than 4 requests wait: it is appended with its answer decided, DONE in FREE and SOURCE otherwise for a tap,
DONE with the source MARK and SOURCE otherwise for a mark, and then the Tempo Engine takes it. It is answered
in its turn with the status held with it, and the answer changes nothing else (R141, R142, R163). Appending
with the answer of the state before and then taking is the model's reading (log entry 25), and TRANSFER_END
carrying the octets that the part received its choice (log entry 24, log entry 41). The transfer is a whole one,
and a queued frame that it read has left the outbound queue (R160). A BEAT MARK taken with its downbeat flag is a reference pulse and then a
realignment: with a phase error of 0 or more afterwards the beat just emitted becomes beat 0 of the next bar,
counted as a BAR SLIP unless it is beat 0 already, with SONG START when the bar rises from -1 to 0 in SHOW; with
a negative error the next beat boundary owes a bar, a BAR SLIP unless it would be one anyway; POSITION follows
(R115, R142; that POSITION is raised when nothing changes is log entry 18). -/
def Obligations.TimedRequestsAnswered : Prop :=
  DownbeatRealigns ∧ (∀ (s : State) (p : Port) (r : Request) (rest : List Request) (st : Status),
    Heads s p .tap r rest → r.decided = some st → OnlyAnswers s (exec (.tap p) s) p r rest st []) ∧
  (∀ (s : State) (r : Request) (rest : List Request) (st : Status),
    Heads s .showPort .beatMark r rest → r.decided = some st →
      OnlyAnswers s (exec .beatMark s) .showPort r rest st []) ∧
  ∀ (s : State) (p : Port) (octets received more : List Byte) (tag flag : Byte) (side : OutboundSide)
    (left : List Frame), s.live = true →
    (s.port p).transfer = .inTransfer received side → (s.port p).requests.length < 4 →
    ((side = .idleFill ∧ left = (s.port p).outbound) ∨
      (side = .queuedFrame ∧ ∃ f, (s.port p).outbound = f :: left ∧
        f.octets.length ≤ (received ++ octets).length)) →
    (received ++ octets = 3 :: 0x12 :: tag :: more →
      ∃ u, exec (.transferEnd p octets) s = .next u.tap ∧ SameBut [.desk] s u ∧
        u.desk = s.desk.setPort p { s.port p with
          transfer := .idle
          outbound := left
          requests := (s.port p).requests ++
            [⟨3, 0x12, tag, [], some (if s.tempo.state = .free then .done else .source)⟩]
          handledSince := if (s.port p).requests = [] then s.time else (s.port p).handledSince }) ∧
    (p = .showPort → received ++ octets = 4 :: 0x13 :: tag :: flag :: more →
      ∃ u, exec (.transferEnd p octets) s = .next (u.beatMark (flag.getLsbD 0)) ∧ SameBut [.desk] s u ∧
        u.desk = s.desk.setPort p { s.port p with
          transfer := .idle
          outbound := left
          requests := (s.port p).requests ++
            [⟨4, 0x13, tag, [flag], some (if s.tempo.source = .mark then .done else .source)⟩]
          handledSince := if (s.port p).requests = [] then s.time else (s.port p).handledSince })

/-- A tap outside FREE changes nothing. In FREE the first tap, and one more than 3,000,000 microseconds after
the last, begins a series and keeps tempo and phase; one within 200,000 is ignored; any other joins the
series of at most four intervals and sets the base tempo to their average, and the phase is snapped to 0: with
less than half a beat passed no beat is made and the click index is kept, and with half a beat or more passed
the tap is a beat boundary, which counts the position, sounds its click, pulses the beat line, raises POSITION and
takes a change whose take point it is (R113, R133, R141). That the phase is 0 before that boundary is made is log
entry 17. -/
def Obligations.TapCases : Prop :=
  ∀ s : State,
    (s.tempo.state ≠ .free → s.tap = s) ∧
    (s.tempo.state = .free →
      (s.tempo.lastTap = none ∨ (∃ l, s.tempo.lastTap = some l ∧ 3000000 < interval l s.time) →
        s.tap = s.setTempo { s.tempo with taps := [], lastTap := some s.time }) ∧
      (∀ l, s.tempo.lastTap = some l → interval l s.time < 200000 → s.tap = s) ∧
      (∀ l taps, s.tempo.lastTap = some l → 200000 ≤ interval l s.time → interval l s.time ≤ 3000000 →
        taps = (if s.tempo.taps.length = 4 then s.tempo.taps.drop 1 else s.tempo.taps) ++
          [interval l s.time] → s.tempo.taps.length ≤ 4 →
        s.tap.tempo.taps = taps ∧ s.tap.tempo.lastTap = some s.time ∧ s.tap.tempo.phase = 0 ∧
          s.tap.tempo.state = .free ∧ tempoInStep s.tap ∧
          ∃ v, SameBut [.tempo] s v ∧ tempoInStep v ∧
            v.tempo = { s.tempo with
              taps := taps
              lastTap := some s.time
              base := (2 * (6000000000 * taps.length) + taps.sum) / (2 * taps.sum)
              phase := 0
              effective := v.tempo.effective
              increment := v.tempo.increment
              clamped := v.tempo.clamped } ∧
            (s.tempo.phase.toNat < 2 ^ 31 → s.tap = v) ∧
            (2 ^ 31 ≤ s.tempo.phase.toNat → BeatMade v s.tap)))

/-- Reference pulses: a rise of the sync input, or a CLOCK octet of the requested input, that does not
complete the pulses of a beat raises the pulse count by one; the first pulse while AWAITING in ACQUIRING is a
reference beat without an interval; an alignment point sets AWAITING and drops the last reference-beat time, clears
the acquisition run and the previous measurement in ACQUIRING, and has no further effect in any other state.
Pulses of a source that is not requested, and STOP, are consumed (R28, R130, R132). That a rise of a line that is
high already changes nothing is the model's choice of what the command then means (log entry 7). -/
def Obligations.PulsesCounted : Prop :=
  ∀ s : State, s.live = true →
    (∀ (rate : PulseRate) (k : Nat), s.pins.syncHigh = false → s.tempo.source = .sync rate →
      s.tempo.reference.pulses = some k → k + 1 < rate.perBeat →
      ∃ t, exec .syncEdge s = .next t ∧ SameBut [.tempo, .pins] s t ∧
        t.pins = { s.pins with syncHigh := true } ∧
        t.tempo = { s.tempo with reference := { s.tempo.reference with pulses := some (k + 1) } }) ∧
    (∀ (n : Input) (k : Nat), s.tempo.source = .clock n → s.tempo.reference.pulses = some k → k + 1 < 24 →
      ∃ t, exec (.clock n) s = .next t ∧ SameBut [.tempo] s t ∧
        t.tempo = { s.tempo with reference := { s.tempo.reference with pulses := some (k + 1) } }) ∧
    (∀ n : Input, s.tempo.source = .clock n → s.tempo.reference.pulses = none →
      s.tempo.state = .acquiring →
      ∃ t, exec (.clock n) s = .next t ∧ SameBut [.tempo] s t ∧
        t.tempo = { s.tempo with
          reference := { s.tempo.reference with pulses := some 0, lastBeat := some s.time } }) ∧
    (∀ (n : Input) (kind : AlignKind), s.tempo.source = .clock n →
      ∃ t, exec (.alignmentPoint n kind) s = .next t ∧ SameBut [.tempo] s t ∧
        t.tempo.reference.pulses = none ∧ t.tempo.reference.lastBeat = none ∧
        (s.tempo.state = .acquiring → t.tempo.reference.acquisitionRun = 0 ∧
          t.tempo.reference.previous = none) ∧
        (s.tempo.state ≠ .acquiring →
          t.tempo.reference = { s.tempo.reference with pulses := none, lastBeat := none }) ∧
        t.tempo = { s.tempo with reference := t.tempo.reference } ∧
        t.tempo.reference.outlierRun = s.tempo.reference.outlierRun ∧
        t.tempo.reference.holdoverDeadline = s.tempo.reference.holdoverDeadline ∧
        t.tempo.reference.holdoverBeats = s.tempo.reference.holdoverBeats) ∧
    (∀ (n : Input) (kind : AlignKind), s.tempo.source ≠ .clock n →
      exec (.clock n) s = .next s ∧ exec (.alignmentPoint n kind) s = .next s) ∧
    (s.pins.syncHigh = true → exec .syncEdge s = .next s) ∧
    ((∀ rate, s.tempo.source ≠ .sync rate) →
      ∃ t, exec .syncEdge s = .next t ∧ SameBut [.pins] s t ∧ t.pins = { s.pins with syncHigh := true }) ∧
    ∀ n : Input, exec (.stop n) s = .next s

/-- The pulses of one beat for a requested source (R130). -/
def pulsesPerBeat : Source → Option Nat
  | .internal => none
  | .clock _ => some 24
  | .sync rate => some rate.perBeat
  | .mark => some 1

/-- The command `c` delivers a pulse of the requested source, which is taken in the state `u`: an accepted rise
of the sync input, or a CLOCK of the requested input (R130). -/
def PulseArrives (s u : State) (c : Instr) : Prop :=
  (c = .syncEdge ∧ (∃ rate, s.tempo.source = .sync rate) ∧ s.pins.syncHigh = false ∧
      u = { s with pins := { s.pins with syncHigh := true } }) ∨
    ∃ n, c = .clock n ∧ s.tempo.source = .clock n ∧ u = s

/-- A pulse taken in the state `u` is a reference beat: with the interval `i` since the last when it completes
the pulses of a beat, or, while the pulse count is AWAITING, without one (R130). -/
def RefBeat (u : State) (i : Option Nat) : Prop :=
  ∃ rate, pulsesPerBeat u.tempo.source = some rate ∧
    match i with
    | none => u.tempo.reference.pulses = none
    | some i => (∃ k, u.tempo.reference.pulses = some k ∧ rate ≤ k + 1) ∧
      ∃ last, u.tempo.reference.lastBeat = some last ∧ i = (u.time - last).toNat

/-- The pulse count and the last reference-beat time after a reference beat at `now` (R130). -/
def atBeat (x : Reference) (now : StageTime) : Reference := { x with pulses := some 0, lastBeat := some now }

/-- The interval `i` has the measurement `m` (R131). -/
def Measures (i m : Nat) : Prop := 200000 ≤ i ∧ i ≤ 3000000 ∧ m = (2 * 6000000000 + i) / (2 * i)

/-- `m` lies within `percent` per cent of `base` (R132, R134). -/
def Near (percent m base : Nat) : Prop := 100 * ((m : Int) - base).natAbs ≤ percent * base

/-- A reference beat in ACQUIRING that does not lock changes only the reference fields, to `x`, and the desk
to `d` (R132). -/
def Acquires (s : State) (x : Reference) (d : Desk) : Prop :=
  SameBut [.desk, .tempo] s s.pulse ∧ s.pulse.tempo = { s.tempo with reference := x } ∧ s.pulse.desk = d

/-- A reference beat in ACQUIRING: without an interval it changes nothing beyond the pulse count and time; out of
range it clears run and previous measurement and is an outlier report; a first measurement, or one more than 3
per cent from the previous, begins a series; one that agrees raises the run; and at a run of 3 the engine locks
on it, with a snap, the drift counters and reference fields at 0 or none, the holdover deadline two beats of
the new base tempo ahead, and a LOCK notice and record. A snap with half a beat or more passed is a beat
boundary at that moment, with the take that waits for it (R113, R131 to R133, R137, R139). -/
def AcquiringRule : Prop :=
  ∀ s : State, s.tempo.state = .acquiring →
    (RefBeat s none → Acquires s (atBeat s.tempo.reference s.time) s.desk) ∧
    ∀ i, RefBeat s (some i) →
      (i < 200000 ∨ 3000000 < i → Acquires s
        { atBeat s.tempo.reference s.time with acquisitionRun := 0, previous := none }
        (s.desk.report .referenceOutliers 0)) ∧
      ∀ m, Measures i m →
        (s.tempo.reference.previous = none ∨
            (∃ mp, s.tempo.reference.previous = some mp ∧ ¬Near 3 m mp) →
          Acquires s { atBeat s.tempo.reference s.time with acquisitionRun := 0, previous := some m }
            s.desk) ∧
        ∀ mp, s.tempo.reference.previous = some mp → Near 3 m mp →
          (s.tempo.reference.acquisitionRun < 2 →
            Acquires s { atBeat s.tempo.reference s.time with
              acquisitionRun := s.tempo.reference.acquisitionRun + 1, previous := some m } s.desk) ∧
          (2 ≤ s.tempo.reference.acquisitionRun → ∀ t, t = s.pulse → tempoInStep t ∧
            ∃ v w, SameBut [.tempo] s v ∧ tempoInStep v ∧
              v.tempo = { s.tempo with
                state := .locked
                base := m
                phase := 0
                reference := atBeat s.tempo.reference s.time
                effective := v.tempo.effective
                increment := v.tempo.increment
                clamped := v.tempo.clamped } ∧
              (s.tempo.phase.toNat < 2 ^ 31 → w = v) ∧
              (2 ^ 31 ≤ s.tempo.phase.toNat → BeatMade v w) ∧
              SameBut [.desk, .tempo] w t ∧
              t.tempo = { w.tempo with
                ownBeats := 0
                refBeats := 0
                reference := ⟨some 0, some s.time, none, 0, 0,
                  some (s.time + BitVec.ofNat 32 (12000000000 / m)), 0⟩ } ∧
              t.desk = lockDesk w.desk s.time .locked s.tempo.source m)

/-- A followed reference beat from `s` to `t`: the base tempo moves by the truncated share of the difference,
and the phase by the shifted error except an error of -1, which may raise the subdivision reached and then
hands over one click; REF BEATS counts one, the state is LOCKED, the outlier run 0 and the holdover deadline
two beats of the new base tempo ahead (R124, R134, R135, R137). -/
def Followed (s t : State) (m : Nat) : Prop :=
  (t.tempo.base : Int) =
    min 30000 (max 2000 (s.tempo.base + ((m : Int) - s.tempo.base).tdiv (2 ^ s.tempo.followShift))) ∧
  t.tempo.phase = (if s.tempo.phase.toInt = -1 then s.tempo.phase
    else s.tempo.phase - BitVec.ofInt 32 (s.tempo.phase.toInt / 2 ^ (s.tempo.followShift + 1))) ∧
  tempoInStep t ∧
  t.tempo = { s.tempo with
    base := t.tempo.base
    phase := t.tempo.phase
    effective := t.tempo.effective
    increment := t.tempo.increment
    clamped := t.tempo.clamped
    clickIndex := max s.tempo.clickIndex (t.tempo.phase.toNat * s.click.pattern.division / 2 ^ 32)
    refBeats := s.tempo.refBeats + 1
    state := .locked
    reference := { atBeat s.tempo.reference s.time with
      outlierRun := 0
      holdoverDeadline := some (s.time + BitVec.ofNat 32 (12000000000 / t.tempo.base))
      holdoverBeats := t.tempo.reference.holdoverBeats } } ∧
  t.click = { s.click with
    waiting := s.click.waiting ++ if s.tempo.clickIndex < t.tempo.phase.toNat * s.click.pattern.division / 2 ^ 32 ∧
        s.click.audio = .present ∧ 0 ≤ s.scene.position.bar then [s.click.pattern.subdivision] else [] }

/-- A reference beat is an outlier for the base tempo: out of range, or measured more than 12 per cent from
it (R136). -/
def IsOutlier (base i : Nat) : Prop :=
  (i < 200000 ∨ 3000000 < i) ∨ ∃ m, Measures i m ∧ ¬Near 12 m base

/-- An outlier in LOCKED or HOLDOVER: it is reported once and keeps base tempo and phase; below three in a
row it raises the outlier run, and in LOCKED sets the holdover deadline; the third returns the state to
ACQUIRING, clears the runs, the previous measurement and the holdover, keeps the pulse count and the time of
the beat, and is reported (R134, R136 to R140). -/
def OutlierRule (s : State) : Prop :=
  ∀ refBeats t, refBeats = (if s.tempo.state = .locked then s.tempo.refBeats + 1 else s.tempo.refBeats) →
    t = s.pulse → SameBut [.desk, .tempo] s t ∧
      (s.tempo.reference.outlierRun < 2 → t.desk = s.desk.report .referenceOutliers 0 ∧
        t.tempo = { s.tempo with
          refBeats := refBeats
          reference := { atBeat s.tempo.reference s.time with
            outlierRun := s.tempo.reference.outlierRun + 1
            holdoverDeadline := if s.tempo.state = .locked
              then some (s.time + BitVec.ofNat 32 (12000000000 / s.tempo.base))
              else s.tempo.reference.holdoverDeadline } }) ∧
      (2 ≤ s.tempo.reference.outlierRun →
        t.desk = lockDesk (s.desk.report .referenceOutliers 0) s.time .acquiring s.tempo.source s.tempo.base ∧
        t.tempo = { s.tempo with
          state := .acquiring
          refBeats := refBeats
          reference := ⟨some 0, some s.time, none, 0, 0, none, 0⟩ })

/-- What a reference beat does in the source states, for every requested source: the sync input at 1, 2, 4 or 24
pulses to the beat, the clock of an input at 24, and MARK. An accepted rise of the sync input, a CLOCK of the
requested input and a mark without its downbeat flag take a pulse; a mark reaches the engine at the end of the
transfer that carries it. In ACQUIRING the engine gathers agreeing measurements and locks; in LOCKED a
measurement within 12 per cent of the base tempo is followed, and in HOLDOVER it returns the state to LOCKED, is
followed, clears the holdover beat count and is reported; a beat out of range or outside 12 per cent is an
outlier, whose third in a row returns the state to ACQUIRING; a beat without an interval is counted and sets the
deadline in LOCKED and does nothing more in HOLDOVER (R130 to R139, R142). That the phase is 0 before the boundary of
a snap is made is log entry 17. -/
def Obligations.ReferenceBeatFollowed : Prop :=
  (∀ (s u : State) (c : Instr), s.live = true → PulseArrives s u c → exec c s = .next u.pulse) ∧
  (∀ u : State, u.tempo.source = .mark → u.beatMark false = u.pulse) ∧
  AcquiringRule ∧
  ∀ s t : State, t = s.pulse →
    (RefBeat s none → s.tempo.state = .locked ∨ s.tempo.state = .holdover → SameBut [.tempo] s t ∧
      (s.tempo.state = .locked → t.tempo = { s.tempo with
        refBeats := s.tempo.refBeats + 1
        reference := { atBeat s.tempo.reference s.time with
          holdoverDeadline := some (s.time + BitVec.ofNat 32 (12000000000 / s.tempo.base)) } }) ∧
      (s.tempo.state = .holdover → t.tempo = { s.tempo with
        reference := atBeat s.tempo.reference s.time })) ∧
    ∀ i, RefBeat s (some i) →
      (∀ m, Measures i m → Near 12 m s.tempo.base →
        (s.tempo.state = .locked → SameBut [.tempo, .click] s t ∧ Followed s t m ∧
          t.tempo.reference.holdoverBeats = s.tempo.reference.holdoverBeats) ∧
        (s.tempo.state = .holdover → SameBut [.desk, .tempo, .click] s t ∧ Followed s t m ∧
          t.tempo.reference.holdoverBeats = 0 ∧
          t.desk = lockDesk s.desk s.time .locked s.tempo.source t.tempo.base)) ∧
      (IsOutlier s.tempo.base i → s.tempo.state = .locked ∨ s.tempo.state = .holdover → OutlierRule s)

/-- At the holdover deadline in LOCKED the state becomes HOLDOVER, the deadline none and the holdover beat
count 0; tempo, increment and phase are kept and the change is reported. Before the deadline, or outside
LOCKED, nothing happens, which is the model's choice of what the command then means (R137, R139; log
entry 7). -/
def Obligations.HoldoverExpires : Prop :=
  ∀ s : State, s.live = true →
    (∀ d, s.tempo.state = .locked → s.tempo.reference.holdoverDeadline = some d →
      (s.time - d).toNat < 2 ^ 31 →
      ∃ t, exec .holdoverExpiry s = .next t ∧ SameBut [.desk, .tempo] s t ∧
        t.tempo = { s.tempo with
          state := .holdover
          reference := { s.tempo.reference with holdoverDeadline := none, holdoverBeats := 0 } } ∧
        t.desk = (s.desk.raise (.lock .holdover s.tempo.source s.tempo.base)).record
          { time := s.time, kind := .lockChange, origin := none, output := none, song := none,
            scene := none, generation := none, channel := none,
            detail := some (.lock .holdover s.tempo.source), cueTag := 0 }) ∧
    (s.tempo.state ≠ .locked ∨ s.tempo.reference.holdoverDeadline = none ∨
        (∃ d, s.tempo.reference.holdoverDeadline = some d ∧ 2 ^ 31 ≤ (s.time - d).toNat) →
      exec .holdoverExpiry s = .next s)

/-- Nothing of the part falls due at the present stage time: the last octet of no line has gone out, the beat
line's high time, the spill deadlines, a preparation's 2,000 microseconds, the oldest requests' 200, a presence
run's 1,000 and the holdover deadline of LOCKED have not been reached, no digest has read its last word, and no
phase advance is owed. -/
def NothingDue (s : State) : Prop :=
  (∀ o q last, (s.rig.out o).transmit = .sending q last → 2 ^ 31 ≤ (s.time - last).toNat) ∧
    (∀ d, s.tempo.lineHighUntil = some d → 2 ^ 31 ≤ (s.time - d).toNat) ∧
    (∀ o c x, (s.rig.chan o c).pending = some x → 2 ^ 31 ≤ (s.time - x.deadline).toNat) ∧
    (∀ c, s.scene.staged = some c → c.preparation = .preparing →
      2 ^ 31 ≤ (s.time - (c.startedAt + 2000)).toNat) ∧
    (∀ p r rest, (s.port p).requests = r :: rest →
      2 ^ 31 ≤ (s.time - ((s.port p).handledSince + 200)).toNat) ∧
    (∀ d, s.mem.digest = some d → d.allRead = false) ∧
    (∀ d, s.click.audio = .missing → s.click.presenceRun = some d →
      2 ^ 31 ≤ (s.time - (d + 1000)).toNat) ∧
    (∀ d, s.tempo.state = .locked → s.tempo.reference.holdoverDeadline = some d →
      2 ^ 31 ≤ (s.time - d).toNat) ∧
    s.tempo.phaseOwed = none

/-- The microsecond itself, from `s` to `t`: stage time rises by one, a digest that has words left reads one and
adds it, and the phase advances by the increment, or, when that would make a beat or a click boundary, is owed
the advance to that boundary's own command (R17, R123, R124). -/
def TicksFrom (s t : State) : Prop :=
  SameBut [.mem, .tempo, .time] s t ∧ t.time = s.time + 1 ∧
    (s.mem.digest = none → t.mem = s.mem) ∧
    (∀ d, s.mem.digest = some d → d.allRead = true → t.mem = s.mem) ∧
    (∀ d, s.mem.digest = some d → d.allRead = false → s.mem.digestWord d.kinds d.point = none →
      t.mem = { s.mem with digest := some { d with allRead := true } }) ∧
    (∀ d w, s.mem.digest = some d → d.allRead = false → s.mem.digestWord d.kinds d.point = some w →
      t.mem = { s.mem with
        digest := some { d with
          sum := d.sum + w.toNat
          point := d.point + 1
          allRead := d.point + 1 = selectedWords d.kinds 0 kindWords } }) ∧
    (s.tempo.phase.toNat + s.tempo.increment < 2 ^ 32 →
      (s.tempo.phase.toNat + s.tempo.increment) * s.click.pattern.division / 2 ^ 32 ≤ s.tempo.clickIndex →
      t.tempo = { s.tempo with phase := s.tempo.phase + BitVec.ofNat 32 s.tempo.increment }) ∧
    (2 ^ 32 ≤ s.tempo.phase.toNat + s.tempo.increment ∨
        s.tempo.clickIndex <
          (s.tempo.phase.toNat + s.tempo.increment) * s.click.pattern.division / 2 ^ 32 →
      s.tempo.increment < 2 ^ 32 →
      t.tempo = { s.tempo with phaseOwed := some s.tempo.increment })

/-- The command that answers a request of port `p` of a row (R163, R188). -/
def rowCommand (p : Port) : RequestRow → Instr
  | .setWrite => .setWrite p
  | .soundLength => .setWriteSoundLength p
  | .soundSamples => .setWriteSoundSamples p
  | .setRead => .setRead p
  | .setDigest => .setDigest p
  | .enterShow => .enterShow p
  | .enterSetup => .enterSetup p
  | .restart => .restart p
  | .goSong => .goSong p
  | .goScene => .goScene p
  | .goNext => .goNext p
  | .goPrev => .goPrev p
  | .cancel => .cancel p
  | .freeze => .freeze p
  | .thaw => .thaw p
  | .step => .step p
  | .tempoSource => .tempoSource p
  | .tempoSet => .tempoSet p
  | .trim => .trim p
  | .tap => .tap p
  | .beatMark => .beatMark
  | .outputEnable => .outputEnable p
  | .criticalLevel => .criticalLevel p
  | .panic => .panic p
  | .clickLevel => .clickLevel p
  | .clickMute => .clickMute p
  | .counterSet => .counterSet p
  | .counterRead => .counterRead p
  | .captureArm => .captureArm p
  | .captureRead => .captureRead p
  | .status => .status p
  | .subscribe => .subscribe p
  | .turnedAway _ => .unknownRequest p

/-- The command that answers the oldest request of port `p`, when its 200 microseconds are up (R163). -/
def dueRequest (s : State) (p : Port) : List Instr :=
  match (s.port p).requests with
  | [] => []
  | r :: _ =>
    if (s.time - ((s.port p).handledSince + 200)).toNat < 2 ^ 31 then [rowCommand p (classify p r)] else []

/-- The commands that a tick makes of itself, in its order: those of the timed events, each of which changes
nothing before its moment, the end of a preparation whose 2,000 microseconds are up, the answers to requests
whose 200 are, and the boundary that is owed (R31, R85, R105, R125, R137, R155, R163, R18, R123). -/
def dueCommands (s : State) : List Instr :=
  allOutputs.map Instr.transmissionComplete ++ [.beatLineEnd] ++
    (allOutputs.flatMap fun o => allChans.map fun c => .spillExpiry o c) ++
    [.holdoverExpiry, .audioClockReturn, .digestComplete] ++
    (match s.scene.staged with
      | some c => if c.preparation = .preparing ∧ (s.time - (c.startedAt + 2000)).toNat < 2 ^ 31
        then [.preparationComplete, .preparationCheckFail] else []
      | none => []) ++
    dueRequest s .panelPort ++ dueRequest s .showPort ++ [.beatBoundary, .clickBoundary]

/-- Commands executed one after another lead from one state to another. -/
inductive RunsTo : List Instr → State → State → Prop
  | done (s : State) : RunsTo [] s s
  | next (i : Instr) (more : List Instr) (s t u : State) : exec i s = .next t → RunsTo more t u →
      RunsTo (i :: more) s u

/-- A tick in which nothing falls due is one microsecond, with lines sending, programs pending, requests waiting
and a change preparing as they stand; any other tick first makes what is due, each by its own command and in one
order, and is then one microsecond of the state so reached (R17, R123, R124). The division into commands and the
order of what falls due together are the model's choice (log entry 9), and so are the moments at which a
preparation ends and a request is answered (log entry 10), and that a timed command changes nothing before its
moment (log entry 7). -/
def Obligations.StageTickAdvances : Prop :=
  (∀ s : State, s.live = true → NothingDue s → ∃ t, exec .stageTick s = .next t ∧ TicksFrom s t) ∧
  ∀ s : State, s.live = true →
    ∃ u t, RunsTo (dueCommands s) s u ∧ exec .stageTick s = .next t ∧ TicksFrom u t

/-! ### Outputs, records and panic (chapters 2, 4, 5, 8) -/

/-- The events that settlement offers an output, channel by channel: the ALL-NOTES-OFF of a panic-owed mark and
then the held program (R35). -/
def owedEvents (r : Rig) (o : Output) : List Urgent :=
  allChans.flatMap fun c =>
    (if (r.chan o c).panicOwed = true then [Urgent.allNotesOff c] else []) ++
      match (r.chan o c).held with
      | none => []
      | some p => [.program c p false]

/-- The held program of channel `c` after a purge: the one the record has, or else that of the newest PROGRAM
of the channel among the purged events, which is the one decided last (R39; that it is the newest is log entry
13). -/
def heldAfterPurge (q : OutPort) (x : ChanRec) (c : Chan) : Option Program :=
  match x.held with
  | some p => some p
  | none => ((if q.urgentOnLine then q.urgent.drop 1 else q.urgent).filterMap fun e =>
      match e with
      | .program d p _ => if d = c then some p else none
      | _ => none).getLast?

/-- OUTPUT ENABLE is answered DONE and enables exactly the outputs of its mask. An output that becomes
disabled keeps only the event on its line, without a follow-up value, and its flags clear; a purged PROGRAM is
held unless its record holds one already, and the panic-owed marks stay. An output that becomes enabled settles
at once: the ALL-NOTES-OFFs and programs it owes are appended in channel order, the marks and held programs
clear, an idle line begins, and the appends raise the critical flag, with its notice, above the level. An output
whose enable does not change is not affected, and the table's entries and legs are kept (R31, R35, R37, R39).
That the newest of several purged programs is held is the model's inference (log entry 13), and the order of
the outputs its choice (log entry 29). -/
def Obligations.OutputEnableRule : Prop :=
  ∀ (s : State) (p : Port) (r : Request) (rest : List Request) (mask : BitVec 6),
    Heads s p .outputEnable r rest → mask = BitVec.ofNat 6 (r.octetAt 0) →
    (∀ o, (s.rig.out o).enabled = false → (s.rig.out o).urgent.length ≤ 1) →
    ∃ t, exec (.outputEnable p) s = .next t ∧ SameBut [.desk, .outputs, .records] s t ∧
      (t.port p).requests = rest ∧ replyTo r .done [] ∈ (t.port p).outbound ∧
      (∀ o, (t.rig.out o).enabled = mask.getLsbD o.val) ∧
      (∀ o, (s.rig.out o).enabled = mask.getLsbD o.val →
        t.rig.out o = s.rig.out o ∧ ∀ c, t.rig.chan o c = s.rig.chan o c) ∧
      (∀ o, (s.rig.out o).enabled = true → mask.getLsbD o.val = false →
        t.rig.out o = { s.rig.out o with
          enabled := false
          urgent := if (s.rig.out o).urgentOnLine then (s.rig.out o).urgent.take 1 else []
          bulk := (if (s.rig.out o).bulkOnLine then (s.rig.out o).bulk.take 1 else []).map
            fun b => { b with followUp := none }
          overflow := false
          critical := false } ∧
        ∀ c, t.rig.chan o c =
          { s.rig.chan o c with held := heldAfterPurge (s.rig.out o) (s.rig.chan o c) c }) ∧
      (∀ o, (s.rig.out o).enabled = false → mask.getLsbD o.val = true →
        t.rig.out o = { s.rig.out o with
          enabled := true
          urgent := (s.rig.out o).urgent ++ owedEvents s.rig o
          transmit := if (s.rig.out o).transmit = .idle ∧ owedEvents s.rig o ≠ []
            then nextTransmit s.time ((s.rig.out o).urgent ++ owedEvents s.rig o) (s.rig.out o).bulk
            else (s.rig.out o).transmit
          critical := (s.rig.out o).critical || decide (owedEvents s.rig o ≠ [] ∧
            (s.rig.out o).level < ((s.rig.out o).urgent ++ owedEvents s.rig o).length) } ∧
        ∀ c, t.rig.chan o c = { s.rig.chan o c with panicOwed := false, held := none }) ∧
      ((∀ o, (s.rig.out o).enabled = false → (s.rig.out o).transmit = .idle → (s.rig.out o).urgent = []) →
        t.desk = allOutputs.foldl (fun d o =>
          if (s.rig.out o).enabled = false ∧ mask.getLsbD o.val = true ∧ owedEvents s.rig o ≠ [] ∧
              (s.rig.out o).critical = false ∧
              (s.rig.out o).level < ((s.rig.out o).urgent ++ owedEvents s.rig o).length then
            d.raise (.queueCritical o
              (max ((s.rig.out o).level + 1) ((s.rig.out o).urgent.length + 1)) (s.rig.out o).level)
          else d) (answeredDesk s p r rest .done []))

/-- CRITICAL LEVEL stores a level of 1 to 48 for an output, and the critical flag clears when the urgent
length is at or below it; CLICK LEVEL sets a master gain of 0 to 32767; both are refused RANGE otherwise.
CLICK MUTE sets the mute from bit 0. Nothing else changes (R37, R153, R188). -/
def Obligations.LevelsSet : Prop :=
  ∀ (s : State) (p : Port) (r : Request) (rest : List Request),
    (Heads s p .criticalLevel r rest →
      (5 < r.octetAt 0 ∨ r.octetAt 1 < 1 ∨ 48 < r.octetAt 1 →
        OnlyAnswers s (exec (.criticalLevel p) s) p r rest .range []) ∧
      (∀ o : Output, r.octetAt 0 = o.val → 1 ≤ r.octetAt 1 → r.octetAt 1 ≤ 48 →
        ∃ t, exec (.criticalLevel p) s = .next t ∧ SameBut [.desk, .outputs] s t ∧
          t.desk = answeredDesk s p r rest .done [] ∧
          ∀ q, t.rig.out q = if q = o then { s.rig.out o with
            level := r.octetAt 1
            critical := (s.rig.out o).critical && decide (r.octetAt 1 < (s.rig.out o).urgent.length) }
            else s.rig.out q)) ∧
    (Heads s p .clickLevel r rest →
      (32767 < fieldLE r.payload 0 2 → OnlyAnswers s (exec (.clickLevel p) s) p r rest .range []) ∧
      (fieldLE r.payload 0 2 ≤ 32767 → ∃ t, exec (.clickLevel p) s = .next t ∧
        SameBut [.desk, .click] s t ∧ t.desk = answeredDesk s p r rest .done [] ∧
        t.click = { s.click with master := fieldLE r.payload 0 2 })) ∧
    (Heads s p .clickMute r rest → ∃ t, exec (.clickMute p) s = .next t ∧ SameBut [.desk, .click] s t ∧
      t.desk = answeredDesk s p r rest .done [] ∧
      t.click = { s.click with mute := decide (r.octetAt 0 % 2 = 1) })

/-- The events a purge leaves in the urgent queue: none, or the one on the line (R31, R39, R40). -/
def keptUrgent (q : OutPort) : List Urgent := if q.urgentOnLine then q.urgent.take 1 else []

/-- The program a panic offers for channel `c` of an enabled output: the pending one of its record, or else its
held one (R40), or else the program of the newest PROGRAM of the channel that the panic purges, when a spill
expiry had released it (R85). Following R85 where R40 does not list the last is the model's choice (log
entry 31). -/
def panicOffer (q : OutPort) (x : ChanRec) (c : Chan) : Option Program :=
  match x.pending, x.held with
  | some y, _ => some y.program
  | none, some y => some y
  | none, none =>
    match ((if q.urgentOnLine then q.urgent.drop 1 else q.urgent).filter fun e =>
        match e with
        | .program d _ _ => d = c
        | _ => false).getLast? with
    | some (.program _ y true) => some y
    | _ => none

/-- What a panic leaves of the instrument side: an empty table, pedals UP, counts 0, no owed mark, redirect
or pending program, every pending program current, the bulk queue purged but for the event on the line, which
loses its follow-up value, and on each enabled output the event on the line, an ALL-NOTES-OFF for each channel,
and in channel order the programs that the panic offers. The flags clear, and the appends raise the critical
flag of an output whose urgent length they take above its level (R37, R40, R74, R90). -/
def Silenced (s t : State) : Prop :=
  t.rig.table = [] ∧ (∀ n c, t.rig.pedal n c = false) ∧
    (∀ o c, (t.rig.chan o c).sounding = 0 ∧ (t.rig.chan o c).old = 0 ∧
      (t.rig.chan o c).panicOwed = false ∧ (t.rig.chan o c).redirect = none ∧
      (t.rig.chan o c).pending = none ∧
      (t.rig.chan o c).program = (match (s.rig.chan o c).pending with
        | none => (s.rig.chan o c).program
        | some x => some x.program.number) ∧
      (t.rig.chan o c).bank = (match (s.rig.chan o c).pending with
        | none => (s.rig.chan o c).bank
        | some x => match x.program.bank with
          | none => (s.rig.chan o c).bank
          | some b => some b) ∧
      (t.rig.chan o c).held = (if (s.rig.out o).enabled then none else
        match (s.rig.chan o c).pending with
        | none => (s.rig.chan o c).held
        | some x => some x.program)) ∧
    ∀ o, (t.rig.out o).enabled = (s.rig.out o).enabled ∧ (t.rig.out o).overflow = false ∧
      (t.rig.out o).level = (s.rig.out o).level ∧
      (t.rig.out o).critical = ((s.rig.out o).enabled &&
        decide ((s.rig.out o).level < (t.rig.out o).urgent.length)) ∧
      (t.rig.out o).urgent = keptUrgent (s.rig.out o) ++
        (if (s.rig.out o).enabled then
          allChans.map Urgent.allNotesOff ++ allChans.filterMap fun c =>
            (panicOffer (s.rig.out o) (s.rig.chan o c) c).map fun p => .program c p false
        else []) ∧
      (t.rig.out o).bulk = ((if (s.rig.out o).bulkOnLine then (s.rig.out o).bulk.take 1 else []).map
        fun b => { b with followUp := none }) ∧
      (∀ q last, (s.rig.out o).transmit = .sending q last → (t.rig.out o).transmit = .sending q last) ∧
      ((s.rig.out o).transmit = .idle → (t.rig.out o).transmit =
        if (s.rig.out o).enabled then .sending .urgent (s.time + 960) else .idle)

/-- The desk after a panic of cause `cause`, from the desk `d` that the panic finds: a QUEUE notice of cause
CRITICAL for each enabled output whose level the appends pass, at the first append that does, in output
order, and then the PANIC notice to both ports and the PANIC record (R37, R40, R74 stage 5). -/
def panicDesk (s t : State) (d : Desk) (cause : PanicCause) : Desk :=
  ((allOutputs.foldl (fun d o =>
      if (s.rig.out o).enabled = true ∧ (s.rig.out o).level < (t.rig.out o).urgent.length then
        d.raise (.queueCritical o
          (max ((s.rig.out o).level + 1) ((keptUrgent (s.rig.out o)).length + 1)) (s.rig.out o).level)
      else d) d).raise (.panic cause)).record
    { time := s.time, kind := .panic, origin := none, output := none, song := none, scene := none,
      generation := none, channel := none, detail := some (.panic cause), cueTag := 0 }

/-- A PANIC request is answered DONE and then makes a panic of cause PANEL or SHOW, after its port; an accepted
fall of the panic input makes one of cause LINE, and none while the input is low already. Table, records,
queues and flags are left as `Silenced` says, and the panic is reported to both ports and captured. The staged
slot, the scene, the position, the tempo and the click are not changed (R40, R73, R74, R85, R90, R164). That the
fall changes nothing while the input is low is the model's choice of what the command then means (log entry
7), and offering again what an expiry had queued is the model's choice between R85 and R40 (log entry 31). -/
def Obligations.PanicRule : Prop :=
  (∀ (s : State) (p : Port) (r : Request) (rest : List Request), Heads s p .panic r rest →
    ∃ t, exec (.panic p) s = .next t ∧
      SameBut [.desk, .outputs, .records, .table, .pedals] s t ∧ Silenced s t ∧
      t.desk = panicDesk s t (answeredDesk s p r rest .done []) (match p with
        | .panelPort => .panelRequest
        | .showPort => .showRequest)) ∧
  ∀ s : State, s.live = true →
    (s.pins.panicLow = true → exec .panicLineEdge s = .next s) ∧
    (s.pins.panicLow = false → ∃ t, exec .panicLineEdge s = .next t ∧
      SameBut [.desk, .outputs, .records, .table, .pedals, .pins] s t ∧ Silenced s t ∧
      t.pins = { s.pins with panicLow := true } ∧ t.desk = panicDesk s t s.desk .line)

/-- The desk once a note-on of channel `c` has been discarded on output `o`: counted, captured, and a clear
overflow flag raised with a QUEUE notice that carries the urgent length (R32, R36). -/
def discardedDesk (d : Desk) (now : StageTime) (o : Output) (c : Chan) (overflow : Bool) (len : Nat) : Desk :=
  let d := (d.report .queueDiscards o.val).record
    { time := now, kind := .queueOverflow, origin := none, output := some o, song := none, scene := none,
      generation := none, channel := some c, detail := none, cueTag := 0 }
  if overflow then d else d.raise (.queueOverflow o len)

/-- The desk once a panic-owed mark has been set for channel `c` of output `o` (R33, R36). -/
def owedDesk (d : Desk) (now : StageTime) (o : Output) (c : Chan) (overflow : Bool) (len : Nat) : Desk :=
  let d := (d.report .queueDiscards o.val).record
    { time := now, kind := .panicOwed, origin := none, output := some o, song := none, scene := none,
      generation := none, channel := some c, detail := none, cueTag := 0 }
  if overflow then d else d.raise (.queueOverflow o len)

/-- An urgent event is offered to output `o` (R32 to R34). -/
def offerEvent (r : Rig) (m : Moment) (o : Output) : Urgent → Offer
  | .noteOn c k v leg => r.offerNoteOn m o c k v leg
  | .noteOff c k => r.offerNoteOff m o c k
  | .program c p _ => r.offerProgram m o c p
  | .allNotesOff c => r.offerAllNotesOff m o c

/-- The urgent queue is full for an event: 48 events, or for a note-on 32 note-ons (R32 to R34). -/
def fullFor (q : OutPort) (e : Urgent) : Prop :=
  48 ≤ q.urgent.length ∨ (e.isNoteOn = true ∧ 32 ≤ q.noteOns)

/-- The oldest note-on that is not on the line stands between `before` and `later` in the urgent queue, with
channel `d` and the leg `leg` (R32). -/
def OldestNoteOn (q : OutPort) (before : List Urgent) (d : Chan) (leg : Nat) (later : List Urgent) : Prop :=
  (∃ k v, q.urgent = before ++ .noteOn d k v leg :: later) ∧
    if q.urgentOnLine = true then before ≠ [] ∧ ∀ e ∈ before.drop 1, e.isNoteOn = false
    else ∀ e ∈ before, e.isNoteOn = false

/-- The offers of R32 to R34 and R39: a disabled output drops the event, or holds a PROGRAM; one with room appends
it, and an idle line begins the head of the queue, a note-on being counted as LEGS SENT; a full one discards its
oldest note-on that is not on the line and appends the event; with none to discard a NOTE-ON is refused, a NOTE-OFF
or ALL-NOTES-OFF leaves the panic-owed mark, the latter silently where the mark is set, and a PROGRAM is held
(R31, R37 for what an append does). -/
def QueueOffers : Prop :=
  ∀ (r : Rig) (m : Moment) (o : Output) (e : Urgent), (∀ c p, e ≠ .program c p true) →
    ((r.out o).enabled = false →
      (offerEvent r m o e).appended = false ∧ (offerEvent r m o e).discarded = none ∧
      (offerEvent r m o e).rig = match e with
        | .program c p _ => r.setChan o c { r.chan o c with held := some p }
        | _ => r) ∧
    ((r.out o).enabled = true → ¬fullFor (r.out o) e →
      (offerEvent r m o e).appended = true ∧ (offerEvent r m o e).discarded = none ∧
      (offerEvent r m o e).rig = appendedRig m.now r o e) ∧
    ((r.out o).enabled = true → fullFor (r.out o) e →
      (∀ before d leg later, OldestNoteOn (r.out o) before d leg later →
        (offerEvent r m o e).appended = true ∧ (offerEvent r m o e).discarded = some leg ∧
        (offerEvent r m o e).rig.out o = { r.out o with
          urgent := before ++ later ++ [e]
          overflow := true
          transmit := if (r.out o).transmit = .idle
            then nextTransmit m.now (before ++ later ++ [e]) (r.out o).bulk else (r.out o).transmit } ∧
        (offerEvent r m o e).rig.desk =
          (let d := discardedDesk r.desk m.now o d (r.out o).overflow (r.out o).urgent.length
          if (r.out o).transmit = .idle ∧
              (before ++ later ++ [e]).head?.map Urgent.isNoteOn = some true
          then d.report .legsSent o.val else d) ∧
        ∀ x c, (offerEvent r m o e).rig.chan x c = if x = o ∧ e.isProgramOf c = true
          then { r.chan x c with held := none } else r.chan x c) ∧
      ((∀ x ∈ (if (r.out o).urgentOnLine then (r.out o).urgent.drop 1 else (r.out o).urgent),
          x.isNoteOn = false) →
        (offerEvent r m o e).appended = false ∧ (offerEvent r m o e).discarded = none ∧
        match e with
        | .noteOn c _ _ _ =>
          (offerEvent r m o e).rig.out o = { r.out o with overflow := true } ∧
            (offerEvent r m o e).rig.records = r.records ∧
            (offerEvent r m o e).rig.desk =
              discardedDesk r.desk m.now o c (r.out o).overflow (r.out o).urgent.length
        | .noteOff c _ =>
          (offerEvent r m o e).rig.out o = { r.out o with overflow := true } ∧
            (offerEvent r m o e).rig.chan o c = { r.chan o c with panicOwed := true } ∧
            (offerEvent r m o e).rig.desk =
              owedDesk r.desk m.now o c (r.out o).overflow (r.out o).urgent.length
        | .allNotesOff c =>
          if (r.chan o c).panicOwed = true then (offerEvent r m o e).rig = r
          else (offerEvent r m o e).rig.out o = { r.out o with overflow := true } ∧
            (offerEvent r m o e).rig.chan o c = { r.chan o c with panicOwed := true } ∧
            (offerEvent r m o e).rig.desk =
              owedDesk r.desk m.now o c (r.out o).overflow (r.out o).urgent.length
        | .program c p _ =>
          (offerEvent r m o e).rig = r.setChan o c { r.chan o c with held := some p }))

/-- The instrument side once the pending program `p` of record (o, c) has been released on an output that is
disabled or has room: its PROGRAM is appended, or held while the output is disabled, it is made current, and
nothing stays pending (R39, R86). -/
def releasedRig (now : StageTime) (r : Rig) (o : Output) (c : Chan) (p : Program) : Rig :=
  let r := if (r.out o).enabled then appendedRig now r o (.program c p false)
    else r.setChan o c { r.chan o c with held := some p }
  r.setChan o c { madeCurrent p (r.chan o c) with pending := none }

/-- The settlement of a discarded note-on in the table: a leg that has ended or is unsent is left as it is; a sent
one becomes unsent and leaves the sounding count of its record, and the old-leg count when it is old; where that
brings the old-leg count to 0, the pending program is released, here on an output that is disabled or has room
(R65, R86). -/
def DiscardSettles : Prop :=
  ∀ (r : Rig) (m : Moment) (id : Nat),
    (findLeg r.table id = none → r.settleDiscard discardFuel m (some id) = r) ∧
    ∀ g l, findLeg r.table id = some (g, l) →
      (l.sent = false → r.settleDiscard discardFuel m (some id) = r) ∧
      (l.sent = true → ∀ here isOld u, here = r.chan l.output l.channel → isOld = here.isOld m.generation g →
        u = (r.setTable (markLeg r.table id false)).setChan l.output l.channel { here with
          sounding := here.sounding - 1
          old := if isOld = true then here.old - 1 else here.old } →
        (isOld = false ∨ 1 < here.old → r.settleDiscard discardFuel m (some id) = u) ∧
        (∀ p, isOld = true → here.old ≤ 1 → here.pending = some p →
          (r.out l.output).enabled = false ∨ (r.out l.output).urgent.length < 48 →
          r.settleDiscard discardFuel m (some id) = releasedRig m.now u l.output l.channel p.program))

/-- The channels and legs of the note-ons of a list of urgent events, in order. -/
def noteOnsIn (es : List Urgent) : List (Chan × Nat) :=
  es.filterMap fun e => match e with
    | .noteOn c _ _ leg => some (c, leg)
    | _ => none

/-- A list of urgent events without its first `k` note-ons. -/
def withoutNoteOns : Nat → List Urgent → List Urgent
  | 0, es => es
  | _ + 1, [] => []
  | k + 1, e :: es => if e.isNoteOn then withoutNoteOns k es else e :: withoutNoteOns (k + 1) es

/-- What is left of the queues of an output when the last octet of the event on its line has gone out: the
event's place is removed, a bulk place with a follow-up value staying at the head with that value (R31,
R38). -/
def LineLeaves (q : OutPort) (line : LineQueue) (urgent : List Urgent) (bulk : List BulkPlace) : Prop :=
  (line = .urgent ∧ (∃ e, q.urgent = e :: urgent) ∧ bulk = q.bulk) ∨
    (line = .bulk ∧ urgent = q.urgent ∧ ∃ b more, q.bulk = b :: more ∧
      bulk = match b.followUp with
        | none => more
        | some v => { b with value := v, followUp := none } :: more)

/-- An output left idle by a completed transmission with the queues `urgent` and `bulk`, its flags judged (R31,
R36, R37). -/
def leftOut (q : OutPort) (urgent : List Urgent) (bulk : List BulkPlace) : OutPort :=
  { q with
    urgent := urgent
    bulk := bulk
    transmit := .idle
    overflow := q.overflow && !urgent.isEmpty
    critical := q.critical && decide (q.level < urgent.length) }

/-- The instrument side once output `o`, left with the queues `urgent` and `bulk`, has appended the events `es` in
order. -/
def settledRig (s : State) (o : Output) (urgent : List Urgent) (bulk : List BulkPlace) (es : List Urgent) : Rig :=
  es.foldl (fun r e => appendedRig s.time r o e) (s.rig.setOut o (leftOut (s.rig.out o) urgent bulk))

/-- When the last octet of an event has gone out, the event's place is removed, the flags clear as the urgent
length falls, and the next event begins, a note-on being counted as LEGS SENT. An enabled output left with 24
urgent events or fewer first settles what it owes: where all of it has room, the owed ALL-NOTES-OFFs and held
programs are appended in channel order and the marks and held programs clear. Where the queue fills on the way, each
owed event that follows discards the oldest note-on behind the head, whose leg becomes unsent, and once none is left
the rest stay owed; this is stated where no program is pending. One left with more, or
disabled, goes on owing. The rules that an offer and a discard go through are stated with it (R31 to R39, R65).
That settlement comes first, the next event beginning at its first append, is the model's choice (log entry 32),
and so is that the command changes nothing before the last octet has gone out (log entry 7), and that a follow-up
value given after a purge keeps its place (log entry 37); that the QUEUE notice of a discard carries the urgent length after the
full-queue operation is its inference (log entry 11). -/
def Obligations.TransmissionCompletes : Prop :=
  QueueOffers ∧ DiscardSettles ∧
  ∀ (s : State) (o : Output) (q : LineQueue) (last : StageTime), s.live = true →
    (s.rig.out o).transmit = .sending q last →
    (2 ^ 31 ≤ (s.time - last).toNat → exec (.transmissionComplete o) s = .next s) ∧
    ((s.time - last).toNat < 2 ^ 31 → ∀ urgent bulk, LineLeaves (s.rig.out o) q urgent bulk →
      (((∀ c, (s.rig.chan o c).panicOwed = false ∧ (s.rig.chan o c).held = none) ∨
          24 < urgent.length ∨ (s.rig.out o).enabled = false) →
        ∃ t, exec (.transmissionComplete o) s = .next t ∧ SameBut [.desk, .outputs] s t ∧
          (∀ x, x ≠ o → t.rig.out x = s.rig.out x) ∧
          t.rig.out o = { s.rig.out o with
            urgent := urgent
            bulk := bulk
            transmit := nextTransmit s.time urgent bulk
            overflow := (s.rig.out o).overflow && !urgent.isEmpty
            critical := (s.rig.out o).critical && decide ((s.rig.out o).level < urgent.length) } ∧
          t.desk = if (urgent.head?.map Urgent.isNoteOn) = some true
            then s.desk.report .legsSent o.val else s.desk) ∧
      ((s.rig.out o).enabled = true → urgent.length ≤ 24 → owedEvents s.rig o ≠ [] →
        urgent.length + (owedEvents s.rig o).length ≤ 48 →
        ∃ t, exec (.transmissionComplete o) s = .next t ∧ SameBut [.desk, .outputs, .records] s t ∧
          (∀ x, x ≠ o → t.rig.out x = s.rig.out x) ∧
          t.rig.out o = { s.rig.out o with
            urgent := urgent ++ owedEvents s.rig o
            bulk := bulk
            transmit := nextTransmit s.time (urgent ++ owedEvents s.rig o) bulk
            overflow := (s.rig.out o).overflow && !urgent.isEmpty
            critical := decide ((s.rig.out o).level < (urgent ++ owedEvents s.rig o).length) } ∧
          t.desk = (settledRig s o urgent bulk (owedEvents s.rig o)).desk ∧
          ∀ x c, t.rig.chan x c = if x = o
            then { s.rig.chan o c with panicOwed := false, held := none } else s.rig.chan x c) ∧
      ((s.rig.out o).enabled = true → urgent.length ≤ 24 → 48 < urgent.length + (owedEvents s.rig o).length →
        (∀ x c, (s.rig.chan x c).pending = none) → ((allLegs s.rig).map fun l => l.id).Nodup →
        ∀ k gone taken,
          k = min (noteOnsIn (urgent.drop 1)).length (urgent.length + (owedEvents s.rig o).length - 48) →
          gone = (noteOnsIn (urgent.drop 1)).take k →
          taken = (owedEvents s.rig o).take (48 - urgent.length + k) →
        ∃ t, exec (.transmissionComplete o) s = .next t ∧ SameBut [.desk, .outputs, .records, .table] s t ∧
          (∀ x, x ≠ o → t.rig.out x = s.rig.out x) ∧
          t.rig.out o = { s.rig.out o with
            urgent := urgent.take 1 ++ withoutNoteOns k (urgent.drop 1) ++ taken
            bulk := bulk
            transmit := nextTransmit s.time urgent bulk
            overflow := decide (k ≠ 0) || ((s.rig.out o).overflow && !urgent.isEmpty)
            critical := decide ((s.rig.out o).level < 48) } ∧
          t.rig.table = s.rig.table.map (fun e => { e with
            legs := e.legs.map fun l => { l with sent := l.sent && !(gone.map Prod.snd).contains l.id } }) ∧
          t.desk = (gone.foldl (fun (d, raised) x =>
              (discardedDesk d s.time o x.1 raised 48, true))
            ((settledRig s o urgent bulk ((owedEvents s.rig o).take (48 - urgent.length))).desk,
              (s.rig.out o).overflow && !urgent.isEmpty)).1 ∧
          ∀ x c, t.rig.chan x c = { s.rig.chan x c with
            panicOwed := (s.rig.chan x c).panicOwed && !(decide (x = o) && taken.contains (.allNotesOff c))
            held := if x = o ∧ taken.any (·.isProgramOf c) = true then none else (s.rig.chan x c).held
            sounding := (s.rig.chan x c).sounding - ((allLegs s.rig).filter fun l => l.sent &&
              l.output = x && l.channel = c && (gone.map Prod.snd).contains l.id).length }))

/-- A leg ends at the spill expiry of record (o, c): it names the record, is sent, and its entry is old for the
record (R61, R70). -/
def spillEnds (s : State) (o : Output) (c : Chan) (e : Entry) (l : Leg) : Bool :=
  l.sent && l.output = o && l.channel = c && (s.rig.chan o c).isOld s.scene.generation e.generation

/-- At a spill deadline every sent old leg on the record ends, so none stays in the table, and the last of
them releases the pending program; every other leg, one that is not old, unsent or of another record, stays in
its entry. On an enabled output with room the NOTE-OFFs of the legs that end, in table order and leg order,
stand in the urgent queue with the PROGRAM behind them, and an entry left without legs is removed; on a
disabled one the NOTE-OFFs are dropped and the program is held. The counts fall, the program becomes current, and
no other record or output changes (R61, R68, R70, R71, R85, R86). That the command changes nothing before the
deadline, or with no program pending, is the model's choice (log entry 7), and so is the mark that the queued
PROGRAM carries (log entry 31). -/
def Obligations.SpillExpires : Prop :=
  ∀ (s : State) (o : Output) (c : Chan), s.live = true →
    ((s.rig.chan o c).pending = none ∨
        (∃ x, (s.rig.chan o c).pending = some x ∧ 2 ^ 31 ≤ (s.time - x.deadline).toNat) →
      exec (.spillExpiry o c) s = .next s) ∧
    (∀ x, (s.rig.chan o c).pending = some x → (s.time - x.deadline).toNat < 2 ^ 31 → countsInStep s →
      (s.rig.chan o c).old = sentOldLegs s o c →
      ∃ t, exec (.spillExpiry o c) s = .next t ∧ SameBut [.desk, .outputs, .records, .table] s t ∧
        (∀ e ∈ t.rig.table, ∀ l ∈ e.legs, l.sent = true → l.output = o → l.channel = c →
          (s.rig.chan o c).isOld s.scene.generation e.generation = false) ∧
        (0 < (s.rig.chan o c).old → (t.rig.chan o c).pending = none ∧
          (t.rig.chan o c).program = some x.program.number) ∧
        (∀ e ∈ s.rig.table, ∀ l ∈ e.legs, spillEnds s o c e l = false →
          ∃ e' ∈ t.rig.table, ∃ l' ∈ e'.legs,
            e' = { e with legs := e'.legs } ∧ l' = { l with sent := l'.sent }) ∧
        (0 < (s.rig.chan o c).old → tableBounded s →
          ((s.rig.out o).enabled = false ∨
            (s.rig.out o).urgent.length + (s.rig.chan o c).old + 1 ≤ 48) →
          t.rig.table = (s.rig.table.map fun e =>
            { e with legs := e.legs.filter fun l => !spillEnds s o c e l }).filter (fun e => !e.legs.isEmpty) ∧
          (t.rig.out o).urgent = (s.rig.out o).urgent ++ (if (s.rig.out o).enabled then
            (s.rig.table.flatMap fun e => (e.legs.filter fun l => spillEnds s o c e l).map fun l =>
              Urgent.noteOff c l.key) ++ [.program c x.program true] else []) ∧
          (∀ y, y ≠ o → t.rig.out y = s.rig.out y) ∧
          ∀ y d, t.rig.chan y d = if y = o ∧ d = c then { s.rig.chan o c with
              sounding := (s.rig.chan o c).sounding - (s.rig.chan o c).old
              old := 0
              pending := none
              held := if (s.rig.out o).enabled then none else some x.program
              program := some x.program.number
              bank := match x.program.bank with
                | none => (s.rig.chan o c).bank
                | some b => some b }
            else s.rig.chan y d))

/-! ### Notes and octets (chapters 2 to 4) -/

/-- The desk once an event of input `n`, of a kind and channel and with first data octet `x`, has arrived: data held
of another event is a framing error, and data held that is the event's own first octet is not (R24; that the
command stands for the octets that have not arrived yet is log entry 6). -/
def arrivedDesk (s : State) (n : Input) (kind : ChannelKind) (c : Chan) (x : Seven) : Desk :=
  if (s.deframer n).held = none ∨ (s.deframer n = ⟨.channel kind c, some x⟩ ∧ kind.single = false) then s.desk
  else s.desk.report .framingErrors n.val

/-- From `s` to `t` an event has arrived at input `n` and was consumed: its kind is in force there with no data
held, the desk counts a framing error for data it cut short, and nothing else has changed (R20 to R24). -/
def OnlyArrives (s t : State) (n : Input) (kind : ChannelKind) (c : Chan) (x : Seven) : Prop :=
  SameBut [.desk, .inputs] s t ∧ t.desk = arrivedDesk s n kind c x ∧
    ∀ i, t.deframer i = if i = n then ⟨.channel kind c, none⟩ else s.deframer i

/-- The candidate leg of a matching ROUTE entry and one output of its mask: none when the echo rule removes the
output, the output is disabled, or the output key lies outside 0 to 127 (R48, R49, R51). -/
def candidateLeg (g : Rig) (m : Moment) (echo : BitVec 4) (n : Input) (k v : Seven) (e : Layer) (o : Output) :
    Option LegPlan :=
  if (o.val = n.val ∧ echo.getLsbD n.val = false) ∨ (g.out o).enabled = false then none
  else if 0 ≤ (k.val : Int) + e.transpose ∧ (k.val : Int) + e.transpose ≤ 127 then
    some ⟨o, (match (g.chan o e.dest).redirect with
        | some (a, gen) => if gen = m.generation then a else e.dest
        | none => e.dest), Fin.ofNat 128 ((k.val : Int) + e.transpose).toNat,
      Fin.ofNat 128 (min 127 (max 1 ((((v.val * e.scale + 32) / 64 : Nat) : Int) + e.offset))).toNat⟩
  else none

/-- The candidate legs of a note-on, in bank order and within an entry in output order (R47, R48). -/
def candidateLegs (g : Rig) (m : Moment) (echo : BitVec 4) (bank : List Layer) (n : Input) (c : Chan)
    (k v : Seven) : List LegPlan :=
  (bank.filter fun e => decide (e.action = .route ∧ e.inputs.getLsbD n.val = true ∧
      e.sourceChannel = c.val + 1 ∧ e.keyLow ≤ k.val ∧ k.val ≤ e.keyHigh ∧ e.velocityLow ≤ v.val ∧
      v.val ≤ e.velocityHigh)).flatMap fun e =>
    (allOutputs.filter fun o => e.outputs.getLsbD o.val).filterMap fun o => candidateLeg g m echo n k v e o

/-- The desk once the matching ROUTE entries have formed their candidates: entry by entry, a void route, whose
output mask is On alone with pair n not permitted, is reported for the input and captured, and output by output a
key outside 0 to 127 on an enabled output that the echo rule leaves is reported (R48, R50). -/
def formedDesk (g : Rig) (m : Moment) (echo : BitVec 4) (bank : List Layer) (n : Input) (c : Chan)
    (k v : Seven) : Desk :=
  (bank.filter fun e => decide (e.action = .route ∧ e.inputs.getLsbD n.val = true ∧
      e.sourceChannel = c.val + 1 ∧ e.keyLow ≤ k.val ∧ k.val ≤ e.keyHigh ∧ e.velocityLow ≤ v.val ∧
      v.val ≤ e.velocityHigh)).foldl (fun d e =>
    (allOutputs.filter fun o => e.outputs.getLsbD o.val).foldl (fun d o =>
        if ¬(o.val = n.val ∧ echo.getLsbD n.val = false) ∧ (g.out o).enabled = true ∧
            ¬(0 ≤ (k.val : Int) + e.transpose ∧ (k.val : Int) + e.transpose ≤ 127)
          then d.report .outOfRangeKeys o.val else d)
      (if e.outputs = BitVec.twoPow 6 n.val ∧ echo.getLsbD n.val = false then
        (d.report .voidRoutes n.val).record
          { time := m.now, kind := .voidRoute, origin := none, output := some (Fin.ofNat 6 n.val),
            song := none, scene := none, generation := none, channel := some c, detail := none,
            cueTag := e.cueTag }
      else d)) g.desk

/-- The desk once the legs of a note-on have been built: that of the candidates, and then FAN-OUT CLIPPED for
each candidate, in order, whose output, channel and key no kept leg has (R52). -/
def builtDesk (g : Rig) (m : Moment) (echo : BitVec 4) (bank : List Layer) (n : Input) (c : Chan)
    (k v : Seven) : Desk :=
  ((candidateLegs g m echo bank n c k v).filter fun l =>
      decide ((l.output, l.channel, l.key) ∉ (g.buildLegs m echo bank n c k v).2.map fun x =>
        (x.output, x.channel, x.key))).foldl
    (fun d l => d.report .fanOutClipped l.output.val) (formedDesk g m echo bank n c k v)

/-- The legs that routing builds for a note-on: at most 8, no two of one output, channel and key, each on an
enabled output that the echo rule leaves, made by a matching ROUTE entry of the bank, with its transposed
key, its scaled and offset velocity from 1 to 127, and its destination channel or the alternate of a redirect
of the current generation. They stand in the order of the candidates, entry by entry and output by output, and
a candidate whose output, channel and key no earlier one has is kept while fewer than 8 distinct ones stand
before it, so that every other is a duplicate of a kept one or clipped. Building them changes the desk alone: by
VOID ROUTES with their records, OUT-OF-RANGE KEYS and FAN-OUT CLIPPED (R47 to R52). -/
def Obligations.LegsBuilt : Prop :=
  ∀ (g : Rig) (m : Moment) (echo : BitVec 4) (bank : List Layer) (n : Input) (c : Chan) (k v : Seven),
    ((g.buildLegs m echo bank n c k v).2.length ≤ 8 ∧
    ((g.buildLegs m echo bank n c k v).2.map fun l => (l.output, l.channel, l.key)).Nodup ∧
    ∀ l ∈ (g.buildLegs m echo bank n c k v).2,
      (g.out l.output).enabled = true ∧ ¬(l.output.val = n.val ∧ echo.getLsbD n.val = false) ∧
      1 ≤ l.velocity.val ∧
      ∃ e ∈ bank, e.action = .route ∧ e.inputs.getLsbD n.val = true ∧ e.sourceChannel = c.val + 1 ∧
        e.keyLow ≤ k.val ∧ k.val ≤ e.keyHigh ∧ e.velocityLow ≤ v.val ∧ v.val ≤ e.velocityHigh ∧
        e.outputs.getLsbD l.output.val = true ∧ (l.key.val : Int) = k.val + e.transpose ∧
        (l.velocity.val : Int) =
          min 127 (max 1 ((((v.val * e.scale + 32) / 64 : Nat) : Int) + e.offset)) ∧
        l.channel = match (g.chan l.output e.dest).redirect with
          | some (a, gen) => if gen = m.generation then a else e.dest
          | none => e.dest) ∧
    ((g.buildLegs m echo bank n c k v).2.Sublist (candidateLegs g m echo bank n c k v) ∧
    ∀ before l later, candidateLegs g m echo bank n c k v = before ++ l :: later →
      (l.output, l.channel, l.key) ∉ before.map (fun x => (x.output, x.channel, x.key)) →
      (before.map fun x => (x.output, x.channel, x.key)).dedup.length < 8 →
      l ∈ (g.buildLegs m echo bank n c k v).2) ∧
    (g.buildLegs m echo bank n c k v).1 = { g with desk := builtDesk g m echo bank n c k v }

/-- The NOTE-OFFs that ending some legs offers to output `o`, in leg order: none for an unsent leg, and none on a
disabled output (R39, R68). -/
def offsOf (r : Rig) (legs : List Leg) (o : Output) : List Urgent :=
  if (r.out o).enabled then
    (legs.filter fun l => l.sent && l.output = o).map fun l => .noteOff l.channel l.key
  else []

/-- The number of sent legs among some legs that name record (o, c) (R61). -/
def namedBy (legs : List Leg) (o : Output) (c : Chan) : Nat :=
  (legs.filter fun l => l.sent && l.output = o && l.channel = c).length

/-- Some legs end where every queue has room for `n` events and no program is pending (R68). -/
def Roomy (s : State) (n : Nat) : Prop :=
  (∀ o c, (s.rig.chan o c).pending = none) ∧ ∀ o, (s.rig.out o).urgent.length + n ≤ 48

/-- The instrument side once a leg of an entry of generation `g` has ended, with room in its queue: a sent leg's
NOTE-OFF is appended, or dropped on a disabled output, its record loses it from the sounding count, and from the
old-leg count when it is old, and an old-leg count brought to 0 releases the pending program (R39, R68, R86). -/
def endedLeg (m : Moment) (g : Generation) (r : Rig) (l : Leg) : Rig :=
  if l.sent then
    let r := if (r.out l.output).enabled then appendedRig m.now r l.output (.noteOff l.channel l.key) else r
    let x := r.chan l.output l.channel
    match x.pending with
    | none => r.setChan l.output l.channel { x with sounding := x.sounding - 1 }
    | some p =>
      if (m.generation - p.generation).toNat < (m.generation - g).toNat then
        let u := r.setChan l.output l.channel { x with sounding := x.sounding - 1, old := x.old - 1 }
        if x.old ≤ 1 then releasedRig m.now u l.output l.channel p.program else u
      else r.setChan l.output l.channel { x with sounding := x.sounding - 1 }
  else r

/-- The instrument side once a new leg has sounded, with room in its queue: its NOTE-ON is appended, its record
gains it in the sounding count, and a record that holds a pending program makes it a stale-program note, which is
reported behind LEGS SENT (R64, R88; log entry 38 for that order). -/
def soundedLeg (now : StageTime) (r : Rig) (l : Leg) : Rig :=
  let r := appendedRig now r l.output (.noteOn l.channel l.key l.velocity l.id)
  let x := r.chan l.output l.channel
  let u := r.setChan l.output l.channel { x with sounding := x.sounding + 1 }
  if x.pending.isSome then u.setDesk (u.desk.report .staleProgramNotes l.output.val) else u

/-- From `s` to `t` some legs have ended and nothing else was offered: their NOTE-OFFs are appended, in leg
order, an idle line has begun the first of them, the appends are reported on the desk `d`, and the sounding counts
have fallen (R31, R37, R68, R69, R71). -/
def LegsEnd (s t : State) (d : Desk) (legs : List Leg) : Prop :=
  (∀ o, t.rig.out o = appendedOut s.time (s.rig.out o) (offsOf s.rig legs o)) ∧
  t.desk = (legs.foldl (endedLeg s.moment s.scene.generation) { s.rig with desk := d }).desk ∧
  ∀ o c, t.rig.chan o c =
    { s.rig.chan o c with sounding := (s.rig.chan o c).sounding - namedBy legs o c }

/-- The entry that a note-on with legs ends before its own is created: the entry of its source, or, of a new
source at a full table, the first SUSTAINED one in table order (R62, R63). -/
def Displaces (s : State) (n : Input) (c : Chan) (k : Seven) (victim : Entry) : Prop :=
  s.rig.table.find? (fun e => e.isFrom n c k) = some victim ∨
    (s.rig.table.find? (fun e => e.isFrom n c k) = none ∧ 128 ≤ s.rig.table.length ∧
      s.rig.table.find? (fun e => e.sustained) = some victim)

/-- The note-on creates the entry `created`, whose legs are those that routing built, every one sent (R53,
R64). -/
def Creates (s : State) (n : Input) (c : Chan) (k v : Seven) (created : Entry) : Prop :=
  created = ⟨n, c, k, false, s.scene.generation, created.legs⟩ ∧ (∀ l ∈ created.legs, l.sent = true) ∧
    (created.legs.map fun l => (⟨l.output, l.channel, l.key, l.velocity⟩ : LegPlan)) =
      (s.rig.buildLegs s.moment s.router.echo s.router.active n c k v).2

/-- The instrument side as the router hands the legs of a note-on over: the desk reports the event's arrival, what
building the legs reports, and ROUTED NOTE-ONS (R53). -/
def routedRig (s : State) (n : Input) (c : Chan) (k v : Seven) : Rig :=
  { s.rig with desk := ((s.setDesk (arrivedDesk s n .noteOn c k)).rig.buildLegs s.moment s.router.echo
      s.router.active n c k v).1.desk.report .routedNoteOns n.val }

/-- The NOTE-ONs of some legs on output `o`, in leg order (R64). -/
def onsOf (legs : List Leg) (o : Output) : List Urgent :=
  (legs.filter fun l => l.output = o).map fun l => .noteOn l.channel l.key l.velocity l.id

/-- An entry of the active bank matches a note-on (R47). -/
def hits (n : Input) (c : Chan) (k v : Seven) (e : Layer) : Bool :=
  decide (e.inputs.getLsbD n.val = true ∧ e.sourceChannel = c.val + 1 ∧ e.keyLow ≤ k.val ∧
    k.val ≤ e.keyHigh ∧ e.velocityLow ≤ v.val ∧ v.val ≤ e.velocityHigh)

/-- The cue actions of a note-on from the state `u` that routing has left to the state `t`: the first matching
NEXT or PREV entry in bank order raises GO NEXT or GO PREV with origin CUE and the entry's cue tag, and then a
matching TAP entry makes one tap (R55 to R57). That the cue comes before the tap is the model's choice (log entry
33). -/
def CuesFire (u t : State) (n : Input) (c : Chan) (k v : Seven) : Prop :=
  ∀ cue, cue = u.router.active.find? (fun e => hits n c k v e && (e.action = .next || e.action = .prev)) →
    ∃ w, (cue = none → w = u) ∧
      (∀ e, cue = some e → e.action = .next → w = u.cueRequest .next e.cueTag) ∧
      (∀ e, cue = some e → e.action = .prev → w = u.cueRequest .prev e.cueTag) ∧
      ((∃ e ∈ u.router.active, hits n c k v e = true ∧ e.action = .tap) → t = w.tap) ∧
      ((∀ e ∈ u.router.active, hits n c k v e = true → e.action ≠ .tap) → t = w)

/-- A note-on in SHOW that matches ROUTE entries only and has legs, with room in the queues. It is counted as
ROUTED NOTE-ONS. From a source
without an entry, with room in the table, an entry of its source, SOUNDING and of the current generation, is
appended to the table with the legs that routing built, every one of them sent; each leg's NOTE-ON is appended
to its output's urgent queue in leg order, where an idle line begins it at once as LEGS SENT, each record's
sounding count rises by the legs that name it, and a leg on a record with a pending program is reported as
STALE-PROGRAM NOTES, behind LEGS SENT (log entry 38).
With an entry of its source, or at a full table, the entry of the source, or else the first SUSTAINED one, ends
first, so that its NOTE-OFFs, and the pending programs its last old legs release, stand before the NOTE-ONs; at a
full table of SOUNDING entries the note is dropped
and reported as routed and as TABLE-FULL DROPS (R31, R47, R53, R62 to R64, R68, R88). A note-on without legs does not reach
the table and is not counted as routed. What a note-on does beside its cue entries is what it does with a bank of
its ROUTE entries alone, and its cue actions follow (R55, R57; log entry 33 for their order). In SETUP a note-on
changes no block but its deframer and, by one FRAMING ERRORS report where it cuts data short, the desk (R24, R26;
log entry 6). -/
def Obligations.NoteOnRouted : Prop :=
  ∀ (s : State) (n : Input) (c : Chan) (k v : Seven), s.live = true → v.val ≠ 0 →
    (s.scene.mode = .setupMode →
      ∃ t, exec (.noteOn n c k v) s = .next t ∧ OnlyArrives s t n .noteOn c k) ∧
    (s.scene.mode = .showMode → countsInStep s →
      (∀ e ∈ s.router.active, e.isMatch n c k v = true → e.action = .route) →
      (s.rig.buildLegs s.moment s.router.echo s.router.active n c k v).2 ≠ [] →
      (s.rig.table.length < 128 →
        (∀ e ∈ s.rig.table, ¬(e.input = n ∧ e.channel = c ∧ e.key = k)) →
        (∀ o, (s.rig.out o).urgent.length ≤ 40 ∧ (s.rig.out o).noteOns ≤ 24) →
        ∃ t created, exec (.noteOn n c k v) s = .next t ∧
          SameBut [.desk, .inputs, .outputs, .records, .table, .legs] s t ∧
          Creates s n c k v created ∧ t.rig.table = s.rig.table ++ [created] ∧
          (∀ o, t.rig.out o = appendedOut s.time (s.rig.out o) (onsOf created.legs o)) ∧
          t.desk = (created.legs.foldl (soundedLeg s.time) (routedRig s n c k v)).desk ∧
          (∀ o d, t.rig.chan o d = { s.rig.chan o d with
            sounding := (s.rig.chan o d).sounding + namedBy created.legs o d }) ∧
          t.deframer n = ⟨.channel .noteOn c, none⟩) ∧
      (∀ victim, Displaces s n c k victim → tableBounded s →
        (∀ o, (s.rig.out o).urgent.length ≤ 24 ∧ (s.rig.out o).noteOns ≤ 24) →
        ∃ t created u, exec (.noteOn n c k v) s = .next t ∧
          u = created.legs.foldl (soundedLeg s.time)
            (victim.legs.foldl (endedLeg s.moment victim.generation) (routedRig s n c k v)) ∧
          SameBut [.desk, .inputs, .outputs, .records, .table, .legs] s t ∧
          Creates s n c k v created ∧
          t.rig.table = s.rig.table.filter
            (fun e => !e.isFrom victim.input victim.channel victim.key) ++ [created] ∧
          t.rig.outputs = u.outputs ∧ t.rig.records = u.records ∧ t.desk = u.desk ∧
          t.deframer n = ⟨.channel .noteOn c, none⟩) ∧
      (∀ victim, Displaces s n c k victim → tableBounded s → Roomy s 16 →
        (∀ o, (s.rig.out o).noteOns ≤ 24) →
        ∃ t created, exec (.noteOn n c k v) s = .next t ∧
          SameBut [.desk, .inputs, .outputs, .records, .table, .legs] s t ∧
          Creates s n c k v created ∧
          t.rig.table = s.rig.table.filter
            (fun e => !e.isFrom victim.input victim.channel victim.key) ++ [created] ∧
          (∀ o, t.rig.out o = appendedOut s.time (s.rig.out o)
            (offsOf s.rig victim.legs o ++ onsOf created.legs o)) ∧
          (∀ o d, t.rig.chan o d = { s.rig.chan o d with
            sounding := (s.rig.chan o d).sounding - namedBy victim.legs o d +
              namedBy created.legs o d }) ∧
          t.deframer n = ⟨.channel .noteOn c, none⟩) ∧
      (128 ≤ s.rig.table.length → (∀ e ∈ s.rig.table, e.isFrom n c k = false ∧ e.sustained = false) →
        ∃ t, exec (.noteOn n c k v) s = .next t ∧ SameBut [.desk, .inputs] s t ∧
          t.desk = (((s.setDesk (arrivedDesk s n .noteOn c k)).rig.buildLegs s.moment s.router.echo
            s.router.active n c k v).1.desk.report .routedNoteOns n.val).report .tableFullDrops n.val)) ∧
    (s.scene.mode = .showMode →
      (∀ e ∈ s.router.active, e.isMatch n c k v = true → e.action = .route) →
      (s.rig.buildLegs s.moment s.router.echo s.router.active n c k v).2 = [] →
      ∃ t, exec (.noteOn n c k v) s = .next t ∧ SameBut [.desk, .inputs] s t ∧
        t.desk = ((s.setDesk (arrivedDesk s n .noteOn c k)).rig.buildLegs s.moment s.router.echo
          s.router.active n c k v).1.desk) ∧
    (s.scene.mode = .showMode →
      ∃ u t, exec (.noteOn n c k v) { s with router := { s.router with
          active := s.router.active.filter fun e => e.action = .route } } = .next u ∧
        exec (.noteOn n c k v) s = .next t ∧ CuesFire { u with router := s.router } t n c k v)

/-- A note-off in SHOW: without an entry of its source, or with a SUSTAINED one, nothing changes; a SOUNDING
entry becomes SUSTAINED while the pedal of its input and channel is DOWN, and ends while it is UP, so that no
entry of the source stays and the other entries stand in their order. With room in the queues and no program
pending, the NOTE-OFF of each of its sent legs is appended to the output of the leg, in leg order, and the
sounding counts fall; the end of a record's last old leg, an entry's only one, is followed by its pending
PROGRAM, which becomes current. In SETUP, and without an entry of its source or with a SUSTAINED one, it changes
nothing but its deframer and, by one FRAMING ERRORS report where it cuts data short, the desk; the pedal does so in
SETUP and at UP while UP. A CONTROL of the header's sustain controller number in SHOW: a value of 64 or more makes the pedal of its
input and channel DOWN and nothing else; a value below 64 makes a pedal that is DOWN UP, and the SUSTAINED
entries of that input and channel end in the same way, in table order, the others standing; UP while UP changes
nothing (R24, R26, R54, R66 to R69, R71, R86; log entry 6 for the octets the commands stand for). -/
def Obligations.KeyUpAndPedal : Prop :=
  (∀ (s : State) (n : Input) (c : Chan) (k : Seven) (asNoteOn : Bool), s.live = true →
    (s.scene.mode = .setupMode ∨ (∀ e ∈ s.rig.table, e.isFrom n c k = false) ∨
        (∃ e, s.rig.table.find? (fun e => e.isFrom n c k) = some e ∧ e.sustained = true) →
      ∃ t, exec (.noteOff n c k asNoteOn) s = .next t ∧
        OnlyArrives s t n (if asNoteOn then .noteOn else .noteOff) c k) ∧
    (∀ e, s.scene.mode = .showMode → s.rig.table.find? (fun e => e.isFrom n c k) = some e →
      e.sustained = false →
      (s.rig.pedal n c = true → ∃ t, exec (.noteOff n c k asNoteOn) s = .next t ∧
        SameBut [.desk, .inputs, .table] s t ∧
        t.desk = arrivedDesk s n (if asNoteOn then .noteOn else .noteOff) c k ∧
        t.rig.table = s.rig.table.map fun x => if x.isFrom n c k then { x with sustained := true } else x) ∧
      (s.rig.pedal n c = false → tableBounded s → countsInStep s →
        ∃ t, exec (.noteOff n c k asNoteOn) s = .next t ∧
          SameBut [.desk, .inputs, .outputs, .records, .table] s t ∧
          (t.rig.table.map fun x => (x.input, x.channel, x.key, x.sustained, x.generation)) =
            ((s.rig.table.filter fun x => !x.isFrom n c k).map fun x =>
              (x.input, x.channel, x.key, x.sustained, x.generation)) ∧
          (Roomy s e.legs.length →
            LegsEnd s t (arrivedDesk s n (if asNoteOn then .noteOn else .noteOff) c k) e.legs ∧
            t.rig.table = s.rig.table.filter fun x => !x.isFrom n c k) ∧
          (∀ l x, e.legs = [l] → l.sent = true → (s.rig.chan l.output l.channel).pending = some x →
            (s.rig.chan l.output l.channel).old = 1 →
            (s.scene.generation - x.generation).toNat < (s.scene.generation - e.generation).toNat →
            (s.rig.out l.output).enabled = true → (s.rig.out l.output).urgent.length + 2 ≤ 48 →
            (t.rig.out l.output).urgent = (s.rig.out l.output).urgent ++
              [.noteOff l.channel l.key, .program l.channel x.program false] ∧
            t.rig.chan l.output l.channel = { s.rig.chan l.output l.channel with
              sounding := (s.rig.chan l.output l.channel).sounding - 1
              old := 0
              pending := none
              held := none
              program := some x.program.number
              bank := match x.program.bank with
                | none => (s.rig.chan l.output l.channel).bank
                | some b => some b })))) ∧
  (∀ (s : State) (n : Input) (c : Chan) (v : Seven), s.live = true → s.scene.mode = .setupMode →
    ∃ t, exec (.sustainPedal n c v) s = .next t ∧
      OnlyArrives s t n .control c (Fin.ofNat 128 s.mem.header.sustainController)) ∧
  ∀ (s : State) (n : Input) (c : Chan) (v : Seven), s.live = true → s.scene.mode = .showMode →
    s.mem.header.sustainController ≤ 127 →
    (64 ≤ v.val → ∃ t, exec (.sustainPedal n c v) s = .next t ∧ SameBut [.desk, .inputs, .pedals] s t ∧
      t.desk = arrivedDesk s n .control c (Fin.ofNat 128 s.mem.header.sustainController) ∧
      ∀ i d, t.rig.pedal i d = if i = n ∧ d = c then true else s.rig.pedal i d) ∧
    (v.val < 64 → s.rig.pedal n c = false →
      ∃ t, exec (.sustainPedal n c v) s = .next t ∧
        OnlyArrives s t n .control c (Fin.ofNat 128 s.mem.header.sustainController)) ∧
    (v.val < 64 → s.rig.pedal n c = true → tableBounded s → countsInStep s →
      ∀ released, released = (s.rig.table.filter fun x =>
        x.sustained && x.input = n && x.channel = c).flatMap (fun x => x.legs) →
      ∃ t, exec (.sustainPedal n c v) s = .next t ∧
        SameBut [.desk, .inputs, .outputs, .records, .table, .pedals] s t ∧
        (∀ i d, t.rig.pedal i d = if i = n ∧ d = c then false else s.rig.pedal i d) ∧
        (t.rig.table.map fun x => (x.input, x.channel, x.key, x.sustained, x.generation)) =
          ((s.rig.table.filter fun x => !(x.sustained && x.input = n && x.channel = c)).map fun x =>
            (x.input, x.channel, x.key, x.sustained, x.generation)) ∧
        (Roomy s released.length → LegsEnd s t
            (arrivedDesk s n .control c (Fin.ofNat 128 s.mem.header.sustainController)) released ∧
          t.rig.table = s.rig.table.filter fun x => !(x.sustained && x.input = n && x.channel = c)))

/-- The deliveries of a continuous event of input `n` and channel `c`: for each pass-continuous ROUTE entry that
hears it, in bank order, each enabled output of its mask that the echo rule leaves, in output order, with the
destination channel or the alternate of a redirect of the current generation; each output and channel once, at
its first place (R51, R58). -/
def continuousTargets (s : State) (n : Input) (c : Chan) : List (Output × Chan) :=
  ((s.router.active.filter fun x => decide (x.action = .route ∧ x.passContinuous = true ∧
      x.inputs.getLsbD n.val = true ∧ x.sourceChannel = c.val + 1)).flatMap fun x =>
    (allOutputs.filter fun o => decide (x.outputs.getLsbD o.val = true ∧
        ¬(o.val = n.val ∧ s.router.echo.getLsbD n.val = false) ∧ (s.rig.out o).enabled = true)).map fun o =>
      (o, match (s.rig.chan o x.dest).redirect with
        | some (a, g) => if g = s.scene.generation then a else x.dest
        | none => x.dest)).eraseDups

/-- The channel kind and the first data octet of a continuous event (R20, R191). -/
def continuousArrival : ContinuousEvent → ChannelKind × Seven
  | .control number _ => (.control, number)
  | .pressure v => (.pressure, v)
  | .bend v => (.bend, Fin.ofNat 128 v.val)

/-- The output `q` once a new bulk place stands at the end of `bulk`: an idle line begins (R31, R38). -/
def bulkAdded (q : OutPort) (now : StageTime) (bulk : List BulkPlace) (b : BulkPlace) : OutPort :=
  { q with
    bulk := bulk ++ [b]
    transmit := if q.transmit = .idle then nextTransmit now q.urgent (bulk ++ [b]) else q.transmit }

/-- The offers of R38 to the bulk queue of an output: a disabled output discards the event; a waiting place of
its identity takes the value where it stands, and the one on the line takes it as its follow-up value, each
counted as COALESCED; with no such place the event is appended while fewer than 32 places stand, and otherwise
the oldest place that is not on the line is removed, counted as QUEUE DISCARDS, and the event appended. Nothing
else changes but an idle line, which begins (R31, R38, R39). -/
def BulkOffers : Prop :=
  ∀ (r : Rig) (m : Moment) (o : Output) (kind : ContinuousKind) (c : Chan) (v : Fourteen) (q : OutPort),
    q = r.out o →
    (q.enabled = false → r.offerBulk m o kind c v = r) ∧
    (q.enabled = true →
      (∀ before b later, q.bulk = before ++ b :: later → (q.bulkOnLine = true → before ≠ []) →
        b.kind = kind → b.channel = c → (∀ x ∈ before ++ later, ¬(x.kind = kind ∧ x.channel = c)) →
        r.offerBulk m o kind c v =
          { r.setOut o { q with bulk := before ++ { b with value := v } :: later } with
            desk := r.desk.report .coalesced o.val }) ∧
      (∀ b later, q.bulk = b :: later → q.bulkOnLine = true → b.kind = kind → b.channel = c →
        (∀ x ∈ later, ¬(x.kind = kind ∧ x.channel = c)) →
        r.offerBulk m o kind c v =
          { r.setOut o { q with bulk := { b with followUp := some v } :: later } with
            desk := r.desk.report .coalesced o.val }) ∧
      ((∀ x ∈ q.bulk, ¬(x.kind = kind ∧ x.channel = c)) → (q.transmit = .idle → q.urgent = []) →
        (q.bulk.length < 32 →
          r.offerBulk m o kind c v = r.setOut o (bulkAdded q m.now q.bulk ⟨kind, c, v, none⟩)) ∧
        (32 ≤ q.bulk.length →
          r.offerBulk m o kind c v =
            { r.setOut o (bulkAdded q m.now
                (if q.bulkOnLine then q.bulk.take 1 ++ q.bulk.drop 2 else q.bulk.drop 1)
                ⟨kind, c, v, none⟩) with
              desk := r.desk.report .queueDiscards o.val })))

/-- A CONTROL, PRESSURE or BEND event in SHOW that is not the pedal reaches the bulk queue of each enabled
output and channel that a pass-continuous ROUTE entry hearing its input and channel delivers to, outside the
echo rule, and with room there its kind stands with its value or, on the line, with its value as follow-up;
an output without a delivery stays as it was, and notes, records and urgent events are not changed. Each
delivery is offered once, in bank order and output order, and the offer coalesces, appends or discards as the
bulk queue's rule says, with its reports (R31, R38, R39, R51, R58). In SETUP it is discarded, with the FRAMING
ERRORS report of data that it cuts short (R24, R26). A CONTROL of the header's sustain controller number is the
pedal, and does what that command does (R26; log entry 6). That the event
on the line takes a follow-up value after a purge as before it is the model's choice (log entry 37). -/
def Obligations.ContinuousDelivered : Prop :=
  BulkOffers ∧
  ∀ (s : State) (n : Input) (c : Chan) (e : ContinuousEvent), s.live = true →
    (s.scene.mode = .setupMode →
      ∃ t, exec (.continuousEvent n c e) s = .next t ∧
        OnlyArrives s t n (continuousArrival e).1 c (continuousArrival e).2) ∧
    (∀ number v, e = .control number v → number.val = s.mem.header.sustainController →
      exec (.continuousEvent n c e) s = exec (.sustainPedal n c v) s) ∧
    (s.scene.mode = .showMode →
      (∀ number v, e = .control number v → number.val ≠ s.mem.header.sustainController) →
      ∃ t, exec (.continuousEvent n c e) s = .next t ∧ SameBut [.desk, .inputs, .outputs] s t ∧
        (∀ o, (t.rig.out o).urgent = (s.rig.out o).urgent) ∧
        (∀ o, (∀ d, (o, d) ∉ continuousTargets s n c) → t.rig.out o = s.rig.out o) ∧
        t.rig = (continuousTargets s n c).foldl
          (fun g d => g.offerBulk ⟨s.time, s.scene.generation⟩ d.1 (continuousKind e) d.2 (continuousValue e))
          (s.setDesk (arrivedDesk s n (continuousArrival e).1 c (continuousArrival e).2)).rig ∧
        ∀ x ∈ s.router.active, x.action = .route → x.passContinuous = true →
          x.inputs.getLsbD n.val = true → x.sourceChannel = c.val + 1 →
          ∀ o : Output, x.outputs.getLsbD o.val = true → (s.rig.out o).enabled = true →
            ¬(o.val = n.val ∧ s.router.echo.getLsbD n.val = false) →
            (s.rig.out o).bulk.length + 16 ≤ 32 →
            ∃ b ∈ (t.rig.out o).bulk, b.kind = continuousKind e ∧
              b.channel = s.rig.redirected s.moment o x.dest ∧
              (b.value = continuousValue e ∨ b.followUp = some (continuousValue e)))

/-- The desk once a request of origin CUE has been refused: a CHANGE REFUSED record with the resolved target, if
there is one, and no notice (R99). -/
def cueRefused (u : State) (target : Option (Nat × Nat)) (st : Status) (tag : Byte) : Desk :=
  u.desk.record
    { time := u.time, kind := .changeRefused, origin := some .cue, output := none,
      song := target.map fun x => x.1, scene := target.map fun x => x.2,
      generation := some u.scene.generation, channel := none, detail := some (.refused (.refusal st)),
      cueTag := tag }

/-- A request of origin CUE is refused with `st` and its refusal captured, and changes nothing else (R97, R99). -/
def CueRefuses (u : State) (ask : SceneAsk) (tag : Byte) (target : Option (Nat × Nat)) (st : Status) : Prop :=
  SameBut [.desk] u (u.cueRequest ask tag) ∧ (u.cueRequest ask tag).desk = cueRefused u target st tag

/-- A request of origin CUE in SHOW, by the checks of R97 in order: accepted, it stages its change of the panel's
rank, with the scene's own quantize and its cue tag, and a change it displaces is superseded; refused, it is
captured with its resolved target and changes nothing else, and it is never answered (R56, R96 to R99; that a song
select's record too carries the resolved target is the model's choice, log entry 43). -/
def CueRequests : Prop :=
  ∀ (u : State) (ask : SceneAsk) (tag : Byte), u.scene.mode = .showMode →
    (∀ st, Unresolved u (u.rank .panelSide) ask st → CueRefuses u ask tag none st) ∧
    ∀ song scene, Resolves u (u.rank .panelSide) ask song scene →
      (u.mem.header.setlistLength ≤ song ∨ (u.mem.song song).sceneCount ≤ scene →
        CueRefuses u ask tag (some (song, scene)) .range) ∧
      (song < u.mem.header.setlistLength → scene < (u.mem.song song).sceneCount →
        (∀ c, u.scene.current = some c → c.song = song → c.scene = scene →
          CueRefuses u ask tag (some (song, scene)) .already) ∧
        ((∀ c, u.scene.current = some c → ¬(c.song = song ∧ c.scene = scene)) →
          (∀ c, u.scene.staged = some c → u.rank .panelSide < c.rank →
            CueRefuses u ask tag (some (song, scene)) .outranked) ∧
          ((∀ c, u.scene.staged = some c → c.rank ≤ u.rank .panelSide) →
            ∀ t change, t = u.cueRequest ask tag → change = changeOf u .cue song scene none tag →
            SameBut [.mem, .desk, .router, .scene] u t ∧
            change.rank = u.rank .panelSide ∧
            t.scene = { u.scene with staged := some change } ∧
            t.mem = { u.mem with
              underCopy := some ⟨change.target.record, change.copy.layerFirst, change.copy.layerCount⟩ } ∧
            t.router = ⟨u.router.active, [], .filling, change.copy.echo, u.router.echo⟩ ∧
            (u.scene.staged = none → t.desk = u.desk) ∧
            (∀ c, u.scene.staged = some c → t.desk = supersededDesk u u.desk c .replaced))))

/-- A PROGRAM event in SHOW on the header's song-select channel is captured as refused when its program lies
at or beyond the setlist length, and otherwise asks for scene 0 of that song with origin CUE; a PROGRAM on
another channel, or in SETUP, is consumed, with the FRAMING ERRORS report of data that it cuts short. What a request
of origin CUE does, of a song select or of a cue entry, is stated with it (R24, R26, R27, R56, R96 to R99; log entry
6 for the octets the command stands for). That the record of a song select which R97 refuses carries its resolved
target, the song and scene 0, is the model's choice between R99 and R177 (log entry 43). -/
def Obligations.SongSelectRule : Prop :=
  CueRequests ∧
  ∀ (s : State) (n : Input) (c : Chan) (program : Seven), s.live = true →
    (s.scene.mode = .setupMode ∨ s.mem.header.songSelect ≠ some (c.val + 1) →
      ∃ t, exec (.songSelect n c program) s = .next t ∧ OnlyArrives s t n .program c program) ∧
    (s.scene.mode = .showMode → s.mem.header.songSelect = some (c.val + 1) →
      (s.mem.header.setlistLength ≤ program.val →
        ∃ t, exec (.songSelect n c program) s = .next t ∧ SameBut [.desk, .inputs] s t ∧
          t.desk = (arrivedDesk s n .program c program).record
            { time := s.time, kind := .changeRefused, origin := some .cue, output := none,
              song := some program.val, scene := none, generation := some s.scene.generation,
              channel := none, detail := some (.refused (.refusal .range)), cueTag := 0 }) ∧
      (program.val < s.mem.header.setlistLength → 0 < (s.mem.song program.val).sceneCount →
        (∀ x, s.scene.current = some x → ¬(x.song = program.val ∧ x.scene = 0)) →
        s.scene.staged = none →
        ∃ t, exec (.songSelect n c program) s = .next t ∧
          SameBut [.mem, .desk, .inputs, .router, .scene] s t ∧ t.desk = arrivedDesk s n .program c program ∧
          t.scene = { s.scene with staged := some (changeOf s .cue program.val 0 none 0) } ∧
          t.router.fill = .filling) ∧
      (program.val < s.mem.header.setlistLength →
        ∃ u, OnlyArrives s u n .program c program ∧
          exec (.songSelect n c program) s = .next (u.cueRequest (.song program.val 0) 0)))

/-- The deframer: a data octet is a framing error while no kind is in force and is skipped in a system
message; the first data octet of a kind of two is held; a channel kind octet and a system opening put their
kind in force and empty the data held, which is a framing error when there was data; the octet that completes an
event of the unused kind A0 discards it, and the kind stays in force; a timing octet is the
timing event whatever is held; and the octet that completes an event makes the event: it does what the event's
own command does, which stands for the octets that have not arrived yet by the model's choice (R20 to R24, R191; log
entry 6). -/
def Obligations.OctetsDecoded : Prop :=
  ∀ (s : State) (n : Input) (b : Byte), s.live = true →
    (b.toNat < 128 → (s.deframer n).kind = .none →
      ∃ t, exec (.inputOctet n b) s = .next t ∧ SameBut [.desk] s t ∧
        t.desk = s.desk.report .framingErrors n.val) ∧
    (b.toNat < 128 → (s.deframer n).kind = .skip → exec (.inputOctet n b) s = .next s) ∧
    (∀ kind c, b.toNat < 128 → s.deframer n = ⟨.channel kind c, none⟩ → kind.single = false →
      ∃ t, exec (.inputOctet n b) s = .next t ∧ SameBut [.inputs] s t ∧
        ∀ i, t.deframer i = if i = n then ⟨.channel kind c, some (Fin.ofNat 128 b.toNat)⟩
          else s.deframer i) ∧
    (∀ kind : KindInForce, (∃ k, 0x80 ≤ b.toNat ∧ b.toNat < 0xF0 ∧ channelKindOf (b.toNat / 16) = some k ∧
          kind = .channel k (Fin.ofNat 16 b.toNat)) ∨
        (0xF0 ≤ b.toNat ∧ b.toNat ≠ 0xF8 ∧ b.toNat ≠ 0xFA ∧ b.toNat ≠ 0xFB ∧ b.toNat ≠ 0xFC ∧
          kind = .skip) →
      ∃ t, exec (.inputOctet n b) s = .next t ∧ SameBut [.inputs, .desk] s t ∧
        (∀ i, t.deframer i = if i = n then ⟨kind, none⟩ else s.deframer i) ∧
        t.desk = if (s.deframer n).held = none then s.desk else s.desk.report .framingErrors n.val) ∧
    (∀ c x, b.toNat < 128 → s.deframer n = ⟨.channel .keyPressure c, some x⟩ →
      ∃ t, exec (.inputOctet n b) s = .next t ∧ SameBut [.inputs] s t ∧
        ∀ i, t.deframer i = if i = n then ⟨.channel .keyPressure c, none⟩ else s.deframer i) ∧
    exec (.inputOctet n 0xF8) s = exec (.clock n) s ∧
    exec (.inputOctet n 0xFA) s = exec (.alignmentPoint n .startOctet) s ∧
    exec (.inputOctet n 0xFB) s = exec (.alignmentPoint n .continueOctet) s ∧
    exec (.inputOctet n 0xFC) s = exec (.stop n) s ∧
    (∀ (c : Chan) (x y : Seven), b.toNat = y.val →
      (s.deframer n = ⟨.channel .noteOn c, some x⟩ → exec (.inputOctet n b) s =
        if y.val = 0 then exec (.noteOff n c x true) s else exec (.noteOn n c x y) s) ∧
      (s.deframer n = ⟨.channel .noteOff c, some x⟩ →
        exec (.inputOctet n b) s = exec (.noteOff n c x false) s) ∧
      (s.deframer n = ⟨.channel .control c, some x⟩ →
        exec (.inputOctet n b) s = exec (.continuousEvent n c (.control x y)) s) ∧
      (s.deframer n = ⟨.channel .bend c, some x⟩ → exec (.inputOctet n b) s =
        exec (.continuousEvent n c (.bend (Fin.ofNat 16384 (x.val + 128 * y.val)))) s) ∧
      (s.deframer n = ⟨.channel .pressure c, none⟩ →
        exec (.inputOctet n b) s = exec (.continuousEvent n c (.pressure y)) s) ∧
      (s.deframer n = ⟨.channel .program c, none⟩ →
        exec (.inputOctet n b) s = exec (.songSelect n c y) s))

/-! ### Counters, capture list and ports (chapters 9, 10) -/

/-- COUNTER SET is refused RANGE for a counter, an event select or a port mask outside its set; otherwise it
is answered DONE, and the counter takes select, mask and threshold, value 0 and a clear reached mark, the
mask of NONE and of an event that names no port being stored empty. COUNTER READ is refused RANGE for a
counter outside 0 to 3, and otherwise answers DONE with the counter as it stands (R174, R176, R188). The octet of the reached mark, 1 when
set and 0 when clear, is the model's inference (log entry 36); that bit i of the port mask is input i or output i,
so that a mask of 16 or more, or of 64 or more, names a port outside the set, is its choice (log entry 40). -/
def Obligations.CounterRule : Prop :=
  ∀ (s : State) (p : Port) (r : Request) (rest : List Request),
    (Heads s p .counterSet r rest →
      (3 < r.octetAt 0 ∨ 13 < r.octetAt 1 ∨
          (1 ≤ r.octetAt 1 ∧ r.octetAt 1 ≤ 4 ∧ 16 ≤ r.octetAt 2) ∨
          (5 ≤ r.octetAt 1 ∧ r.octetAt 1 ≤ 10 ∧ 64 ≤ r.octetAt 2) →
        OnlyAnswers s (exec (.counterSet p) s) p r rest .range []) ∧
      (∀ (i : Fin 4) (select : Option CounterEvent), r.octetAt 0 = i.val →
        (r.octetAt 1 = 0 ∧ select = none ∨ ∃ ev, r.octetAt 1 = ev.code ∧ select = some ev) →
        (1 ≤ r.octetAt 1 ∧ r.octetAt 1 ≤ 4 → r.octetAt 2 < 16) →
        (5 ≤ r.octetAt 1 ∧ r.octetAt 1 ≤ 10 → r.octetAt 2 < 64) →
        ∃ t, exec (.counterSet p) s = .next t ∧ SameBut [.desk] s t ∧
          t.desk.capture = s.desk.capture ∧
          t.desk.panelPort = (answeredDesk s p r rest .done []).panelPort ∧
          t.desk.showPort = (answeredDesk s p r rest .done []).showPort ∧
          ∀ j : Fin 4, t.desk.counters[j] = if j = i then
              ⟨select, if 1 ≤ r.octetAt 1 ∧ r.octetAt 1 ≤ 10 then BitVec.ofNat 8 (r.octetAt 2) else 0,
                BitVec.ofNat 32 (fieldLE r.payload 3 4), 0, false⟩
            else s.desk.counters[j])) ∧
    (Heads s p .counterRead r rest →
      (3 < r.octetAt 0 → OnlyAnswers s (exec (.counterRead p) s) p r rest .range []) ∧
      ∀ i : Fin 4, r.octetAt 0 = i.val →
        OnlyAnswers s (exec (.counterRead p) s) p r rest .done
          ([octet i.val, octet (((s.desk.counters[i]).select.map CounterEvent.code).getD 0),
              (s.desk.counters[i]).ports] ++ octetsLE 4 (s.desk.counters[i]).threshold.toNat ++
            octetsLE 4 (s.desk.counters[i]).value.toNat ++
            [if (s.desk.counters[i]).reachedMark then 1 else 0]))

/-- A report is taken by every counter that accepts it: its value rises by one and wraps, and it sends one
COUNTER notice to both ports, and sets its reached mark, when it first reaches a threshold that is not 0; a
counter that does not accept it keeps its value (R175). That bit i of a port mask is port i is the model's choice
(log entry 40). -/
def Obligations.ReportsCounted : Prop :=
  ∀ (d : Desk) (ev : CounterEvent) (port : Nat),
    (∀ i : Fin 4, (d.report ev port).counters[i] =
      if (d.counters[i]).select = some ev ∧ (ev.portCount = 0 ∨ (d.counters[i]).ports.getLsbD port = true)
      then { d.counters[i] with
        value := (d.counters[i]).value + 1
        reachedMark := (d.counters[i]).reachedMark ||
          (decide ((d.counters[i]).threshold ≠ 0) &&
            decide ((d.counters[i]).value + 1 = (d.counters[i]).threshold)) }
      else d.counters[i]) ∧
    (d.report ev port).capture = d.capture ∧
    ((∀ i : Fin 4, (d.counters[i]).reachedMark = true ∨ (d.counters[i]).threshold = 0 ∨
        (d.counters[i]).select ≠ some ev ∨ (d.counters[i]).value + 1 ≠ (d.counters[i]).threshold) →
      (d.report ev port).panelPort = d.panelPort ∧ (d.report ev port).showPort = d.showPort) ∧
    ∀ i : Fin 4, (d.report ev port).counters[i].reachedMark = true → (d.counters[i]).reachedMark = false →
      (∀ j : Fin 4, j ≠ i →
        (d.report ev port).counters[j].reachedMark = (d.counters[j]).reachedMark) →
      (d.report ev port).panelPort =
          d.panelPort.offer (.counter i ev ((d.counters[i]).value + 1)) ∧
        (d.report ev port).showPort = d.showPort.offer (.counter i ev ((d.counters[i]).value + 1))

/-- CAPTURE ARM is refused RANGE for a start index above 31 or a mask beyond the nine kinds; otherwise it is
answered DONE, empties the places from the start index on and keeps those below it, sets index and mask, and
makes the list ARMED, or DISARMED for an empty mask. CAPTURE READ is refused RANGE above place 31, and
otherwise answers DONE with the place, the state, the index and the mask (R179, R180, R188). The stage time 0
and cue tag 0 of an empty place are the model's inference (log entry 27). -/
def Obligations.CaptureRule : Prop :=
  ∀ (s : State) (p : Port) (r : Request) (rest : List Request),
    (Heads s p .captureArm r rest →
      (31 < r.octetAt 0 ∨ 512 ≤ fieldLE r.payload 1 2 →
        OnlyAnswers s (exec (.captureArm p) s) p r rest .range []) ∧
      (r.octetAt 0 ≤ 31 → fieldLE r.payload 1 2 < 512 →
        ∃ t, exec (.captureArm p) s = .next t ∧ SameBut [.desk] s t ∧
          t.desk = { answeredDesk s p r rest .done [] with capture := t.desk.capture } ∧
          (∀ j : Fin 32, t.desk.capture.places[j] =
            if j.val < r.octetAt 0 then s.desk.capture.places[j] else none) ∧
          t.desk.capture.index = r.octetAt 0 ∧
          t.desk.capture.kinds = BitVec.ofNat 9 (fieldLE r.payload 1 2) ∧
          t.desk.capture.state = if fieldLE r.payload 1 2 = 0 then .disarmed else .armed)) ∧
    (Heads s p .captureRead r rest →
      (31 < r.octetAt 0 → OnlyAnswers s (exec (.captureRead p) s) p r rest .range []) ∧
      ∀ i : Fin 32, r.octetAt 0 = i.val →
        OnlyAnswers s (exec (.captureRead p) s) p r rest .done
          ([octet i.val, s.desk.capture.state.code, octet s.desk.capture.index] ++
            octetsLE 2 s.desk.capture.kinds.toNat ++
            match s.desk.capture.places[i] with
            | none => [0, 0, 0, 0, 0xFF, 0xFF, 0xFF, 0xFF, 0, 0, 0, 0xFF, 0]
            | some x => octetsLE 4 x.time.toNat ++
                [octet x.kind.bit, x.sideOctet, optOctet x.song, optOctet x.scene] ++
                octetsLE 2 ((x.generation.map BitVec.toNat).getD 0) ++
                [octet (optChan x.channel), optFF Detail.code x.detail, x.cueTag]))

/-- The length of a request frame is the one that the request table gives for its kind; that of a SET WRITE and
of a SET READ goes by the record kind, and by the count octet of the packed scene and of the samples
(R188, R189). That a SET READ of a record kind above 6 passes at any length of 6 or more is the model's
inference (log entry 22). -/
def lengthFits (r : Request) : Prop :=
  match r.kind.toNat with
  | 0x01 =>
    match r.recordKind with
    | 0 => r.length = 14
    | 1 => r.length = 10
    | 2 => r.length = 19 + 5 * r.octetAt 6
    | 3 => r.length = 18
    | 4 => r.length = 22
    | 5 => r.length = 10
    | 6 => r.length = 9 + 2 * r.octetAt 5
    | _ => 6 ≤ r.length
  | 0x02 => if r.recordKind = 6 then r.length = 9 else if r.recordKind < 6 then r.length = 6 else 6 ≤ r.length
  | 0x07 => r.length = 6
  | 0x08 => r.length = 5
  | 0x0F => r.length = 6
  | 0x10 => r.length = 5
  | 0x11 => r.length = 5
  | 0x15 => r.length = 5
  | 0x17 => r.length = 5
  | 0x19 => r.length = 10
  | 0x1B => r.length = 6
  | 0x1E => r.length = 5
  | 0x03 => r.length = 4
  | 0x09 => r.length = 4
  | 0x0A => r.length = 4
  | 0x13 => r.length = 4
  | 0x14 => r.length = 4
  | 0x18 => r.length = 4
  | 0x1A => r.length = 4
  | 0x1C => r.length = 4
  | _ => r.length = 3

/-- The 37 octets of a status report in the order of R188: mode; current song, scene and record; generation;
slot state, target song and scene, origin, rank and quantize; frozen mark; position song, bar and beat; base
tempo, effective tempo and trim; source kind, parameter and state; OWN BEATS and REF BEATS; flags; short-frame
count (R171, R188). The octet of the frozen mark, 1 when set and 0 when clear, is the model's inference (log
entry 36). -/
def statusOctets (s : State) (p : Port) : List Byte :=
  [match s.scene.mode with
    | .setupMode => (0 : Byte)
    | .showMode => 1] ++
  (match s.scene.current with
    | none => [(0xFF : Byte), 0xFF, 0]
    | some c => [octet c.song, octet c.scene, octet c.record]) ++
  octetsLE 2 s.scene.generation.toNat ++
  (match s.scene.staged with
    | none => [(0 : Byte), 0xFF, 0xFF, 0xFF, 0, 0]
    | some c =>
      [(match c.preparation with
        | .preparing => (1 : Byte)
        | .ready => 2), octet c.target.song, octet c.target.scene, c.origin.code, octet c.rank,
        c.quantize.code]) ++
  [if s.scene.frozen then (1 : Byte) else 0] ++
  [match s.scene.position.song with
    | none => 0xFF
    | some song => octet song] ++
  octetsLE 2 (s.scene.position.bar % 65536).toNat ++ [octet s.scene.position.beat] ++
  octetsLE 2 s.tempo.base ++ octetsLE 2 s.tempo.effective ++ octetsLE 2 (s.tempo.trim % 65536).toNat ++
  (match s.tempo.source with
    | .internal => [(0 : Byte), 0]
    | .clock n => [1, octet n.val]
    | .sync rate => [2, octet rate.perBeat]
    | .mark => [3, 0]) ++
  [match s.tempo.state with
    | .free => (0 : Byte)
    | .acquiring => 1
    | .locked => 2
    | .holdover => 3] ++
  octetsLE 4 s.tempo.ownBeats.toNat ++ octetsLE 4 s.tempo.refBeats.toNat ++
  [octet ((if s.tempo.clamped then 1 else 0) + (if s.click.audio = .missing then 2 else 0) +
    (if (s.port p).lostNotice then 4 else 0))] ++
  octetsLE 2 (s.port p).shortFrames.toNat

/-- STATUS answers DONE with the 37 octets of the report and then clears the port's lost-notice flag;
SUBSCRIBE answers DONE and sets the port's marks from bits 0 to 8; a frame of impossible length is answered
LENGTH, one of unassigned kind, or a BEAT MARK at the panel port, UNKNOWN, and one whose length is not the one
of its kind LENGTH, by the checks in order; none of them changes anything else, and a frame that passes the
checks is not turned away (R163, R167, R171, R188; log entry 22 and log entry 36 mark two points of the tables). -/
def Obligations.PortRequests : Prop :=
  ∀ (s : State) (p : Port) (r : Request) (rest : List Request),
    (Heads s p .status r rest →
      s.statusReport p = statusOctets s p ∧ (statusOctets s p).length = 37 ∧
      ∃ t, exec (.status p) s = .next t ∧ SameBut [.desk] s t ∧
        t.desk = s.desk.setPort p { s.port p with
          requests := rest
          outbound := (s.port p).outbound ++ [replyTo r .done (statusOctets s p)]
          handledSince := s.time
          lostNotice := false }) ∧
    (Heads s p .subscribe r rest →
      ∃ t, exec (.subscribe p) s = .next t ∧ SameBut [.desk] s t ∧
        t.desk = s.desk.setPort p { s.port p with
          requests := rest
          outbound := (s.port p).outbound ++ [replyTo r .done []]
          handledSince := s.time
          marks := BitVec.ofNat 9 (fieldLE r.payload 0 2) }) ∧
    (s.live = true → (s.port p).requests = r :: rest →
      (r.length < 3 ∨ 64 < r.length →
        OnlyAnswers s (exec (.unknownRequest p) s) p r rest .length []) ∧
      (3 ≤ r.length → r.length ≤ 64 →
        (r.kind.toNat = 0 ∨ 0x1F ≤ r.kind.toNat ∨ (p = .panelPort ∧ r.kind.toNat = 0x13) →
          OnlyAnswers s (exec (.unknownRequest p) s) p r rest .unknown []) ∧
        (1 ≤ r.kind.toNat → r.kind.toNat ≤ 0x1E → ¬(p = .panelPort ∧ r.kind.toNat = 0x13) →
          r.payload.length + 3 = r.length →
          (¬lengthFits r → OnlyAnswers s (exec (.unknownRequest p) s) p r rest .length []) ∧
          (lengthFits r → ∀ st, classify p r ≠ .turnedAway st))))

/-- The outbound queue after a short transfer of its head: a POSITION at the head takes the values of the newer
one that waits, which is removed, and any other head stays as it is (R160, R166). -/
def AfterShort (outbound merged : List Frame) : Prop :=
  ∃ f rest, outbound = f :: rest ∧
    ((f.isPosition = false ∧ merged = outbound) ∨
      (f.isPosition = true ∧ (∀ g ∈ rest, g.isPosition = false) ∧ merged = outbound) ∨
      (f.isPosition = true ∧ ∃ before g later, rest = before ++ g :: later ∧ g.isPosition = true ∧
        (∀ x ∈ before ++ later, x.isPosition = false) ∧ merged = g :: (before ++ later)))

/-- A transfer begins at a fall of chip-select on an idle port, with the head of the outbound queue or with
idle fill, and shifts out the octets of that frame and octets of 0 after them. It ends at the rise: whole, it
removes the frame read and takes the inbound frame, appended when fewer than 4 requests wait and otherwise
answered FULL; short, because the head was not read whole or the inbound frame did not arrive whole, the head
stays, a POSITION taking the newer values, and an inbound frame is discarded and counted (R159 to R162, R166).
That an end without a transfer changes nothing is the model's choice (log entry 7); so are that a fall at a port
IN TRANSFER, whose rise was lost, changes nothing (log entry 39) and that TRANSFER_END carries the octets that the
part received, the octets clocked in a crystal absence not among them (log entry 24, log entry 41). -/
def Obligations.TransferRule : Prop :=
  ∀ (s : State) (p : Port), s.live = true →
    ((s.port p).transfer = .idle → ∃ t, exec (.transferBegin p) s = .next t ∧ SameBut [.desk] s t ∧
      t.desk = s.desk.setPort p { s.port p with
        transfer := .inTransfer [] (if (s.port p).outbound = [] then .idleFill else .queuedFrame) }) ∧
    (∀ received side, (s.port p).transfer = .inTransfer received side → exec (.transferBegin p) s = .next s) ∧
    (∀ clocked, (s.port p).shiftedOut .idleFill clocked = List.replicate clocked 0) ∧
    (∀ f more clocked, (s.port p).outbound = f :: more →
      (s.port p).shiftedOut .queuedFrame clocked =
        f.octets.take clocked ++ List.replicate (clocked - f.octets.length) 0) ∧
    (∀ octets, (s.port p).transfer = .idle → exec (.transferEnd p octets) s = .next s) ∧
    ∀ octets received side, (s.port p).transfer = .inTransfer received side →
      (∀ left, ((side = .idleFill ∧ left = (s.port p).outbound) ∨
          (side = .queuedFrame ∧ ∃ f, (s.port p).outbound = f :: left ∧
            f.octets.length ≤ (received ++ octets).length)) →
        ((received ++ octets = [] ∨ ∃ more, received ++ octets = 0 :: more) →
          ∃ t, exec (.transferEnd p octets) s = .next t ∧ SameBut [.desk] s t ∧
            t.desk = s.desk.setPort p { s.port p with transfer := .idle, outbound := left }) ∧
        (∀ (len kind tag : Byte) (more : List Byte), received ++ octets = len :: kind :: tag :: more →
          len ≠ 0 →
          (3 ≤ len.toNat → len.toNat ≤ 64 → len.toNat ≤ (received ++ octets).length) →
          ∀ r : Request, r = ⟨len.toNat, kind, tag,
            (if 3 ≤ len.toNat ∧ len.toNat ≤ 64 then more.take (len.toNat - 3) else []), none⟩ →
          ((s.port p).requests.length < 4 → classify p r ≠ .tap → classify p r ≠ .beatMark →
            ∃ t, exec (.transferEnd p octets) s = .next t ∧ SameBut [.desk] s t ∧
              t.desk = s.desk.setPort p { s.port p with
                transfer := .idle
                outbound := left
                requests := (s.port p).requests ++ [r]
                handledSince := if (s.port p).requests = [] then s.time
                  else (s.port p).handledSince }) ∧
          (4 ≤ (s.port p).requests.length →
            ∃ t, exec (.transferEnd p octets) s = .next t ∧ SameBut [.desk] s t ∧
              t.desk = s.desk.setPort p { s.port p with
                transfer := .idle
                outbound := left ++ [replyTo r .full []] }))) ∧
      (∀ merged, ((side = .idleFill ∧ merged = (s.port p).outbound) ∨
          (side = .queuedFrame ∧ AfterShort (s.port p).outbound merged)) →
        (∀ (len : Byte) (more : List Byte), received ++ octets = len :: more → len ≠ 0 →
          ((received ++ octets).length < (if 3 ≤ len.toNat ∧ len.toNat ≤ 64 then len.toNat else 3) ∨
            (side = .queuedFrame ∧ ∃ f, (s.port p).outbound.head? = some f ∧
              (received ++ octets).length < f.octets.length)) →
          ∃ t, exec (.transferEnd p octets) s = .next t ∧ SameBut [.desk] s t ∧
            t.desk = s.desk.setPort p { s.port p with
              transfer := .idle
              outbound := merged
              shortFrames := (s.port p).shortFrames + 1 }) ∧
        ((received ++ octets = [] ∨ ∃ more, received ++ octets = 0 :: more) →
          (side = .queuedFrame ∧ ∃ f, (s.port p).outbound.head? = some f ∧
            (received ++ octets).length < f.octets.length) →
          ∃ t, exec (.transferEnd p octets) s = .next t ∧ SameBut [.desk] s t ∧
            t.desk = s.desk.setPort p { s.port p with transfer := .idle, outbound := merged }))

/-! ### Pins and clocks (chapter 11, R73, R130, R152 to R155) -/

/-- The reset pin and the crystal: low, the pin cuts short what the lines send, abandons transfers, takes the beat
line low and holds the audio lines and the attention lines; of the outputs, the ports, the Tempo Engine and the
Click Generator nothing else changes; released, it leaves the values of pin reset with stage time 0, the panic and
sync inputs at the levels they hold; the crystal's stop and return change nothing but its presence. While
the pin is held low or the crystal is absent every other command is lost and changes nothing (R172, R185,
R186). That the reset pin acts without the crystal is the model's inference (log entry 8), and that the release
of a pin not held changes nothing its choice (log entry 7). -/
def Obligations.ResetAndCrystal : Prop :=
  ∀ s : State,
    (∃ t, exec .resetPinLow s = .next t ∧ SameBut [.desk, .outputs, .tempo, .click, .pins] s t ∧
      t.pins = { s.pins with resetHeld := true } ∧ t.live = false ∧ t.tempo.lineHighUntil = none ∧
      (∀ o, t.rig.out o = { s.rig.out o with transmit := .idle }) ∧
      (∀ p, t.port p = { s.port p with transfer := .idle }) ∧
      t.desk.counters = s.desk.counters ∧ t.desk.capture = s.desk.capture ∧
      t.tempo = { s.tempo with lineHighUntil := none } ∧
      t.click = { s.click with formed := 0, left := 0, right := 0, lastRight := 0 } ∧
      (∀ p, t.attention p = false) ∧ t.audioLines = .low) ∧
    (∀ panicLow syncHigh, s.pins.resetHeld = true →
      exec (.resetPinRelease panicLow syncHigh) s = .next { State.reset with
        pins := ⟨false, s.pins.crystalPresent, panicLow, syncHigh⟩, pending := s.pending }) ∧
    (∀ panicLow syncHigh, s.pins.resetHeld = false →
      exec (.resetPinRelease panicLow syncHigh) s = .next s) ∧
    (∃ t, exec .crystalStop s = .next t ∧ SameBut [.pins] s t ∧
      t.pins = { s.pins with crystalPresent := false }) ∧
    (∃ t, exec .crystalReturn s = .next t ∧ SameBut [.pins] s t ∧
      t.pins = { s.pins with crystalPresent := true }) ∧
    ∀ i : Instr, s.live = false → i ≠ .resetPinLow → (∀ a b, i ≠ .resetPinRelease a b) →
      i ≠ .crystalStop → i ≠ .crystalReturn → exec i s = .next s

/-- The watched lines: a fall of sync and a rise of panic change only their level; at the end of its high
time the beat line goes low; ten microseconds without an audio clock make it MISSING, with every voice FREE;
while MISSING a first cycle opens a presence run, a gap ends it, and a run of 1,000 microseconds makes the
clock PRESENT, and while it is MISSING its bit clock, word select and data are low (R73, R125, R130, R155). That
BEAT_LINE_END and AUDIO_CLOCK_RETURN change nothing before their moment is the model's choice (log entry
7). -/
def Obligations.WatchedLines : Prop :=
  ∀ s : State, s.live = true →
    (∃ t, exec .syncLineFall s = .next t ∧ SameBut [.pins] s t ∧ t.pins = { s.pins with syncHigh := false }) ∧
    (∃ t, exec .panicLineRise s = .next t ∧ SameBut [.pins] s t ∧
      t.pins = { s.pins with panicLow := false }) ∧
    (∀ d, s.tempo.lineHighUntil = some d → (s.time - d).toNat < 2 ^ 31 →
      ∃ t, exec .beatLineEnd s = .next t ∧ SameBut [.tempo] s t ∧
        t.tempo = { s.tempo with lineHighUntil := none }) ∧
    (∀ d, s.tempo.lineHighUntil = some d → 2 ^ 31 ≤ (s.time - d).toNat → exec .beatLineEnd s = .next s) ∧
    (s.click.audio = .present → ∃ t, exec .audioClockLoss s = .next t ∧ SameBut [.click] s t ∧
      t.click.audio = .missing ∧ (∀ i : Fin 4, t.click.voices[i] = .free) ∧ t.click.waiting = [] ∧
      t.click.pattern = s.click.pattern ∧ t.click.master = s.click.master ∧ t.click.mute = s.click.mute ∧
      t.audioLines = .low) ∧
    (s.click.audio = .missing → s.audioLines = .low) ∧
    (s.click.audio = .missing → s.click.presenceRun = none → ∃ t, exec .presenceRunOpen s = .next t ∧
      SameBut [.click] s t ∧ t.click = { s.click with presenceRun := some s.time }) ∧
    (s.click.audio = .missing → ∃ t, exec .presenceRunGap s = .next t ∧
      SameBut [.click] s t ∧ t.click = { s.click with presenceRun := none }) ∧
    (∀ d, s.click.audio = .missing → s.click.presenceRun = some d →
      ((s.time - (d + 1000)).toNat < 2 ^ 31 → ∃ t, exec .audioClockReturn s = .next t ∧
        SameBut [.click] s t ∧ t.click.audio = .present ∧ t.click.left = 0 ∧ t.click.right = 0 ∧
        t.click.pattern = s.click.pattern ∧ t.click.master = s.click.master ∧
        t.click.mute = s.click.mute) ∧
      (2 ^ 31 ≤ (s.time - (d + 1000)).toNat → exec .audioClockReturn s = .next s)) ∧
    (s.click.audio = .missing → exec .samplePeriod s = .next s)

/-- Playing voice `a` has a greater played fraction than playing voice `b` (R150). -/
def Farther (a b : Voice) : Prop :=
  match a, b with
  | .playing _ _ la pa, .playing _ _ lb pb => pb * la < pa * lb
  | _, _ => False

/-- Voice `i` is the one a click takes: the lowest-numbered FREE voice, or with none FREE the lowest-numbered
of those with the greatest played fraction (R149, R150). -/
def TakesVoice (vs : Fin 4 → Voice) (i : Fin 4) : Prop :=
  (vs i = .free ∧ ∀ j, j < i → vs j ≠ .free) ∨
    ((∀ j, vs j ≠ .free) ∧ ∀ j, (j < i → Farther (vs i) (vs j)) ∧ ¬Farther (vs j) (vs i))

/-- The waiting clicks, one after another, turn the voices `vs` into `ws`: a click whose sound has length 0
starts nothing, and any other takes its voice from position 0 (R149, R150). -/
inductive Starts (mem : SetMemory) : List Click → (Fin 4 → Voice) → (Fin 4 → Voice) → Prop
  | done (vs : Fin 4 → Voice) : Starts mem [] vs vs
  | silent (c : Click) (more : List Click) (vs ws : Fin 4 → Voice) : mem.soundLength c.sound = 0 →
      Starts mem more vs ws → Starts mem (c :: more) vs ws
  | plays (c : Click) (more : List Click) (vs ws : Fin 4 → Voice) (i : Fin 4) :
      mem.soundLength c.sound ≠ 0 → TakesVoice vs i →
      Starts mem more
        (fun j => if j = i then .playing c.sound c.gain (mem.soundLength c.sound) 0 else vs j) ws →
      Starts mem (c :: more) vs ws

/-- A sample period: the waiting clicks start their voices, the sample formed is the sum over the playing
voices of sample times gain, times the master gain over 2^30 rounded half up and saturated, or 0 under mute,
and each playing voice moves on by one sample and ends at its length. The frame carries the sample formed before
in both slots, most significant bit first, one bit period after the change of word select. Every step keeps the
position of a playing voice below its length (R149 to R152, R154). Which half of a bit period of the bit clock
is high is the model's choice (log entry 20). -/
def Obligations.SamplePeriodMixes : Prop :=
  (∀ s t : State, voicesPlaying s → step s = .next t → voicesPlaying t) ∧
  ∀ s : State, s.live = true → s.click.audio = .present → voicesPlaying s →
    ∃ t ws, exec .samplePeriod s = .next t ∧ SameBut [.click] s t ∧
      Starts s.mem s.click.waiting (fun i => s.click.voices[i]) ws ∧
      t.click.left = s.click.formed ∧ t.click.right = s.click.formed ∧
      t.click.formed = (if s.click.mute then 0 else BitVec.ofInt 16 (min 32767 (max (-32768)
        (((((List.finRange 4).map fun i => match ws i with
          | .free => (0 : Int)
          | .playing sound gain _ position => (s.mem.sample sound position).toInt * gain).sum) *
          s.click.master + 2 ^ 29) / 2 ^ 30)))) ∧
      (∀ i : Fin 4, t.click.voices[i] = match ws i with
        | .free => .free
        | .playing sound gain len position =>
          if len ≤ position + 1 then .free else .playing sound gain len (position + 1)) ∧
      t.click.pattern = s.click.pattern ∧ t.click.master = s.click.master ∧
      t.click.mute = s.click.mute ∧ t.click.audio = .present ∧ t.click.waiting = [] ∧
      t.audioLines = ⟨(List.replicate 32 [false, true]).flatten,
        List.replicate 16 false ++ List.replicate 16 true,
        s.click.right.getLsbD 0 :: ((List.range 16).map fun k => s.click.formed.getLsbD (15 - k)) ++
          ((List.range 15).map fun k => s.click.formed.getLsbD (15 - k))⟩
end

