-- ==== Sys2Proof/Laws/State.lean ====
section
/-! SUPPORT. One lemma per field per update of State, of the instrument side and of the desk, each true by
`rfl`, so that no later proof unfolds a record update. -/
namespace Sys2Proof.Machine

/-! ### Setters of State -/

@[simp] theorem State.setMem_mem (s : State) (x : SetMemory) : (s.setMem x).mem = x := rfl
@[simp] theorem State.setMem_rig (s : State) (x : SetMemory) : (s.setMem x).rig = s.rig := rfl
@[simp] theorem State.setMem_inputs (s : State) (x : SetMemory) : (s.setMem x).inputs = s.inputs := rfl
@[simp] theorem State.setMem_router (s : State) (x : SetMemory) : (s.setMem x).router = s.router := rfl
@[simp] theorem State.setMem_scene (s : State) (x : SetMemory) : (s.setMem x).scene = s.scene := rfl
@[simp] theorem State.setMem_tempo (s : State) (x : SetMemory) : (s.setMem x).tempo = s.tempo := rfl
@[simp] theorem State.setMem_click (s : State) (x : SetMemory) : (s.setMem x).click = s.click := rfl
@[simp] theorem State.setMem_time (s : State) (x : SetMemory) : (s.setMem x).time = s.time := rfl
@[simp] theorem State.setMem_pins (s : State) (x : SetMemory) : (s.setMem x).pins = s.pins := rfl
@[simp] theorem State.setMem_pending (s : State) (x : SetMemory) : (s.setMem x).pending = s.pending := rfl

@[simp] theorem State.setRig_mem (s : State) (x : Rig) : (s.setRig x).mem = s.mem := rfl
@[simp] theorem State.setRig_rig (s : State) (x : Rig) : (s.setRig x).rig = x := rfl
@[simp] theorem State.setRig_inputs (s : State) (x : Rig) : (s.setRig x).inputs = s.inputs := rfl
@[simp] theorem State.setRig_router (s : State) (x : Rig) : (s.setRig x).router = s.router := rfl
@[simp] theorem State.setRig_scene (s : State) (x : Rig) : (s.setRig x).scene = s.scene := rfl
@[simp] theorem State.setRig_tempo (s : State) (x : Rig) : (s.setRig x).tempo = s.tempo := rfl
@[simp] theorem State.setRig_click (s : State) (x : Rig) : (s.setRig x).click = s.click := rfl
@[simp] theorem State.setRig_time (s : State) (x : Rig) : (s.setRig x).time = s.time := rfl
@[simp] theorem State.setRig_pins (s : State) (x : Rig) : (s.setRig x).pins = s.pins := rfl
@[simp] theorem State.setRig_pending (s : State) (x : Rig) : (s.setRig x).pending = s.pending := rfl

@[simp] theorem State.setInputs_mem (s : State) (x : Vector Deframer 4) : (s.setInputs x).mem = s.mem := rfl
@[simp] theorem State.setInputs_rig (s : State) (x : Vector Deframer 4) : (s.setInputs x).rig = s.rig := rfl
@[simp] theorem State.setInputs_inputs (s : State) (x : Vector Deframer 4) : (s.setInputs x).inputs = x := rfl
@[simp] theorem State.setInputs_router (s : State) (x : Vector Deframer 4) : (s.setInputs x).router = s.router := rfl
@[simp] theorem State.setInputs_scene (s : State) (x : Vector Deframer 4) : (s.setInputs x).scene = s.scene := rfl
@[simp] theorem State.setInputs_tempo (s : State) (x : Vector Deframer 4) : (s.setInputs x).tempo = s.tempo := rfl
@[simp] theorem State.setInputs_click (s : State) (x : Vector Deframer 4) : (s.setInputs x).click = s.click := rfl
@[simp] theorem State.setInputs_time (s : State) (x : Vector Deframer 4) : (s.setInputs x).time = s.time := rfl
@[simp] theorem State.setInputs_pins (s : State) (x : Vector Deframer 4) : (s.setInputs x).pins = s.pins := rfl
@[simp] theorem State.setInputs_pending (s : State) (x : Vector Deframer 4) : (s.setInputs x).pending = s.pending := rfl

@[simp] theorem State.setRouter_mem (s : State) (x : Router) : (s.setRouter x).mem = s.mem := rfl
@[simp] theorem State.setRouter_rig (s : State) (x : Router) : (s.setRouter x).rig = s.rig := rfl
@[simp] theorem State.setRouter_inputs (s : State) (x : Router) : (s.setRouter x).inputs = s.inputs := rfl
@[simp] theorem State.setRouter_router (s : State) (x : Router) : (s.setRouter x).router = x := rfl
@[simp] theorem State.setRouter_scene (s : State) (x : Router) : (s.setRouter x).scene = s.scene := rfl
@[simp] theorem State.setRouter_tempo (s : State) (x : Router) : (s.setRouter x).tempo = s.tempo := rfl
@[simp] theorem State.setRouter_click (s : State) (x : Router) : (s.setRouter x).click = s.click := rfl
@[simp] theorem State.setRouter_time (s : State) (x : Router) : (s.setRouter x).time = s.time := rfl
@[simp] theorem State.setRouter_pins (s : State) (x : Router) : (s.setRouter x).pins = s.pins := rfl
@[simp] theorem State.setRouter_pending (s : State) (x : Router) : (s.setRouter x).pending = s.pending := rfl

@[simp] theorem State.setScene_mem (s : State) (x : SceneEngine) : (s.setScene x).mem = s.mem := rfl
@[simp] theorem State.setScene_rig (s : State) (x : SceneEngine) : (s.setScene x).rig = s.rig := rfl
@[simp] theorem State.setScene_inputs (s : State) (x : SceneEngine) : (s.setScene x).inputs = s.inputs := rfl
@[simp] theorem State.setScene_router (s : State) (x : SceneEngine) : (s.setScene x).router = s.router := rfl
@[simp] theorem State.setScene_scene (s : State) (x : SceneEngine) : (s.setScene x).scene = x := rfl
@[simp] theorem State.setScene_tempo (s : State) (x : SceneEngine) : (s.setScene x).tempo = s.tempo := rfl
@[simp] theorem State.setScene_click (s : State) (x : SceneEngine) : (s.setScene x).click = s.click := rfl
@[simp] theorem State.setScene_time (s : State) (x : SceneEngine) : (s.setScene x).time = s.time := rfl
@[simp] theorem State.setScene_pins (s : State) (x : SceneEngine) : (s.setScene x).pins = s.pins := rfl
@[simp] theorem State.setScene_pending (s : State) (x : SceneEngine) : (s.setScene x).pending = s.pending := rfl

@[simp] theorem State.setTempo_mem (s : State) (x : Tempo) : (s.setTempo x).mem = s.mem := rfl
@[simp] theorem State.setTempo_rig (s : State) (x : Tempo) : (s.setTempo x).rig = s.rig := rfl
@[simp] theorem State.setTempo_inputs (s : State) (x : Tempo) : (s.setTempo x).inputs = s.inputs := rfl
@[simp] theorem State.setTempo_router (s : State) (x : Tempo) : (s.setTempo x).router = s.router := rfl
@[simp] theorem State.setTempo_scene (s : State) (x : Tempo) : (s.setTempo x).scene = s.scene := rfl
@[simp] theorem State.setTempo_tempo (s : State) (x : Tempo) : (s.setTempo x).tempo = x := rfl
@[simp] theorem State.setTempo_click (s : State) (x : Tempo) : (s.setTempo x).click = s.click := rfl
@[simp] theorem State.setTempo_time (s : State) (x : Tempo) : (s.setTempo x).time = s.time := rfl
@[simp] theorem State.setTempo_pins (s : State) (x : Tempo) : (s.setTempo x).pins = s.pins := rfl
@[simp] theorem State.setTempo_pending (s : State) (x : Tempo) : (s.setTempo x).pending = s.pending := rfl

@[simp] theorem State.setClick_mem (s : State) (x : ClickGen) : (s.setClick x).mem = s.mem := rfl
@[simp] theorem State.setClick_rig (s : State) (x : ClickGen) : (s.setClick x).rig = s.rig := rfl
@[simp] theorem State.setClick_inputs (s : State) (x : ClickGen) : (s.setClick x).inputs = s.inputs := rfl
@[simp] theorem State.setClick_router (s : State) (x : ClickGen) : (s.setClick x).router = s.router := rfl
@[simp] theorem State.setClick_scene (s : State) (x : ClickGen) : (s.setClick x).scene = s.scene := rfl
@[simp] theorem State.setClick_tempo (s : State) (x : ClickGen) : (s.setClick x).tempo = s.tempo := rfl
@[simp] theorem State.setClick_click (s : State) (x : ClickGen) : (s.setClick x).click = x := rfl
@[simp] theorem State.setClick_time (s : State) (x : ClickGen) : (s.setClick x).time = s.time := rfl
@[simp] theorem State.setClick_pins (s : State) (x : ClickGen) : (s.setClick x).pins = s.pins := rfl
@[simp] theorem State.setClick_pending (s : State) (x : ClickGen) : (s.setClick x).pending = s.pending := rfl

@[simp] theorem State.setTime_mem (s : State) (x : StageTime) : (s.setTime x).mem = s.mem := rfl
@[simp] theorem State.setTime_rig (s : State) (x : StageTime) : (s.setTime x).rig = s.rig := rfl
@[simp] theorem State.setTime_inputs (s : State) (x : StageTime) : (s.setTime x).inputs = s.inputs := rfl
@[simp] theorem State.setTime_router (s : State) (x : StageTime) : (s.setTime x).router = s.router := rfl
@[simp] theorem State.setTime_scene (s : State) (x : StageTime) : (s.setTime x).scene = s.scene := rfl
@[simp] theorem State.setTime_tempo (s : State) (x : StageTime) : (s.setTime x).tempo = s.tempo := rfl
@[simp] theorem State.setTime_click (s : State) (x : StageTime) : (s.setTime x).click = s.click := rfl
@[simp] theorem State.setTime_time (s : State) (x : StageTime) : (s.setTime x).time = x := rfl
@[simp] theorem State.setTime_pins (s : State) (x : StageTime) : (s.setTime x).pins = s.pins := rfl
@[simp] theorem State.setTime_pending (s : State) (x : StageTime) : (s.setTime x).pending = s.pending := rfl

@[simp] theorem State.setPins_mem (s : State) (x : Pins) : (s.setPins x).mem = s.mem := rfl
@[simp] theorem State.setPins_rig (s : State) (x : Pins) : (s.setPins x).rig = s.rig := rfl
@[simp] theorem State.setPins_inputs (s : State) (x : Pins) : (s.setPins x).inputs = s.inputs := rfl
@[simp] theorem State.setPins_router (s : State) (x : Pins) : (s.setPins x).router = s.router := rfl
@[simp] theorem State.setPins_scene (s : State) (x : Pins) : (s.setPins x).scene = s.scene := rfl
@[simp] theorem State.setPins_tempo (s : State) (x : Pins) : (s.setPins x).tempo = s.tempo := rfl
@[simp] theorem State.setPins_click (s : State) (x : Pins) : (s.setPins x).click = s.click := rfl
@[simp] theorem State.setPins_time (s : State) (x : Pins) : (s.setPins x).time = s.time := rfl
@[simp] theorem State.setPins_pins (s : State) (x : Pins) : (s.setPins x).pins = x := rfl
@[simp] theorem State.setPins_pending (s : State) (x : Pins) : (s.setPins x).pending = s.pending := rfl

@[simp] theorem State.setPending_mem (s : State) (x : List Instr) : (s.setPending x).mem = s.mem := rfl
@[simp] theorem State.setPending_rig (s : State) (x : List Instr) : (s.setPending x).rig = s.rig := rfl
@[simp] theorem State.setPending_inputs (s : State) (x : List Instr) : (s.setPending x).inputs = s.inputs := rfl
@[simp] theorem State.setPending_router (s : State) (x : List Instr) : (s.setPending x).router = s.router := rfl
@[simp] theorem State.setPending_scene (s : State) (x : List Instr) : (s.setPending x).scene = s.scene := rfl
@[simp] theorem State.setPending_tempo (s : State) (x : List Instr) : (s.setPending x).tempo = s.tempo := rfl
@[simp] theorem State.setPending_click (s : State) (x : List Instr) : (s.setPending x).click = s.click := rfl
@[simp] theorem State.setPending_time (s : State) (x : List Instr) : (s.setPending x).time = s.time := rfl
@[simp] theorem State.setPending_pins (s : State) (x : List Instr) : (s.setPending x).pins = s.pins := rfl
@[simp] theorem State.setPending_pending (s : State) (x : List Instr) : (s.setPending x).pending = x := rfl

/-! ### The desk and the ports through State -/

@[simp] theorem State.setDesk_mem (s : State) (x : Desk) : (s.setDesk x).mem = s.mem := rfl
@[simp] theorem State.setDesk_inputs (s : State) (x : Desk) : (s.setDesk x).inputs = s.inputs := rfl
@[simp] theorem State.setDesk_router (s : State) (x : Desk) : (s.setDesk x).router = s.router := rfl
@[simp] theorem State.setDesk_scene (s : State) (x : Desk) : (s.setDesk x).scene = s.scene := rfl
@[simp] theorem State.setDesk_tempo (s : State) (x : Desk) : (s.setDesk x).tempo = s.tempo := rfl
@[simp] theorem State.setDesk_click (s : State) (x : Desk) : (s.setDesk x).click = s.click := rfl
@[simp] theorem State.setDesk_time (s : State) (x : Desk) : (s.setDesk x).time = s.time := rfl
@[simp] theorem State.setDesk_pins (s : State) (x : Desk) : (s.setDesk x).pins = s.pins := rfl
@[simp] theorem State.setDesk_pending (s : State) (x : Desk) : (s.setDesk x).pending = s.pending := rfl
@[simp] theorem State.setDesk_rig (s : State) (x : Desk) : (s.setDesk x).rig = s.rig.setDesk x := rfl
@[simp] theorem State.setDesk_desk (s : State) (x : Desk) : (s.setDesk x).desk = x := rfl
@[simp] theorem State.setMem_desk (s : State) (x : SetMemory) : (s.setMem x).desk = s.desk := rfl
@[simp] theorem State.setInputs_desk (s : State) (x : Vector Deframer 4) : (s.setInputs x).desk = s.desk := rfl
@[simp] theorem State.setRouter_desk (s : State) (x : Router) : (s.setRouter x).desk = s.desk := rfl
@[simp] theorem State.setScene_desk (s : State) (x : SceneEngine) : (s.setScene x).desk = s.desk := rfl
@[simp] theorem State.setTempo_desk (s : State) (x : Tempo) : (s.setTempo x).desk = s.desk := rfl
@[simp] theorem State.setClick_desk (s : State) (x : ClickGen) : (s.setClick x).desk = s.desk := rfl
@[simp] theorem State.setTime_desk (s : State) (x : StageTime) : (s.setTime x).desk = s.desk := rfl
@[simp] theorem State.setPins_desk (s : State) (x : Pins) : (s.setPins x).desk = s.desk := rfl
@[simp] theorem State.setPending_desk (s : State) (x : List Instr) : (s.setPending x).desk = s.desk := rfl

/-- Writing a port of the state writes it on the desk. -/
@[simp] theorem State.setPort_desk (s : State) (p : Port) (x : PortState) :
    (s.setPort p x).desk = s.desk.setPort p x := rfl

@[simp] theorem State.setPort_mem (s : State) (p : Port) (x : PortState) :
    (s.setPort p x).mem = s.mem := rfl
@[simp] theorem State.setPort_inputs (s : State) (p : Port) (x : PortState) :
    (s.setPort p x).inputs = s.inputs := rfl
@[simp] theorem State.setPort_router (s : State) (p : Port) (x : PortState) :
    (s.setPort p x).router = s.router := rfl
@[simp] theorem State.setPort_scene (s : State) (p : Port) (x : PortState) :
    (s.setPort p x).scene = s.scene := rfl
@[simp] theorem State.setPort_tempo (s : State) (p : Port) (x : PortState) :
    (s.setPort p x).tempo = s.tempo := rfl
@[simp] theorem State.setPort_click (s : State) (p : Port) (x : PortState) :
    (s.setPort p x).click = s.click := rfl
@[simp] theorem State.setPort_time (s : State) (p : Port) (x : PortState) :
    (s.setPort p x).time = s.time := rfl
@[simp] theorem State.setPort_pins (s : State) (p : Port) (x : PortState) :
    (s.setPort p x).pins = s.pins := rfl
@[simp] theorem State.setPort_pending (s : State) (p : Port) (x : PortState) :
    (s.setPort p x).pending = s.pending := rfl

/-! ### Setters of the instrument side -/

@[simp] theorem Rig.setDesk_desk (r : Rig) (x : Desk) : (r.setDesk x).desk = x := rfl
@[simp] theorem Rig.setDesk_outputs (r : Rig) (x : Desk) : (r.setDesk x).outputs = r.outputs := rfl
@[simp] theorem Rig.setDesk_records (r : Rig) (x : Desk) : (r.setDesk x).records = r.records := rfl
@[simp] theorem Rig.setDesk_table (r : Rig) (x : Desk) : (r.setDesk x).table = r.table := rfl
@[simp] theorem Rig.setDesk_pedals (r : Rig) (x : Desk) : (r.setDesk x).pedals = r.pedals := rfl
@[simp] theorem Rig.setDesk_nextLeg (r : Rig) (x : Desk) : (r.setDesk x).nextLeg = r.nextLeg := rfl

@[simp] theorem Rig.setTable_desk (r : Rig) (x : List Entry) : (r.setTable x).desk = r.desk := rfl
@[simp] theorem Rig.setTable_outputs (r : Rig) (x : List Entry) : (r.setTable x).outputs = r.outputs := rfl
@[simp] theorem Rig.setTable_records (r : Rig) (x : List Entry) : (r.setTable x).records = r.records := rfl
@[simp] theorem Rig.setTable_table (r : Rig) (x : List Entry) : (r.setTable x).table = x := rfl
@[simp] theorem Rig.setTable_pedals (r : Rig) (x : List Entry) : (r.setTable x).pedals = r.pedals := rfl
@[simp] theorem Rig.setTable_nextLeg (r : Rig) (x : List Entry) : (r.setTable x).nextLeg = r.nextLeg := rfl

@[simp] theorem Rig.setOut_desk (r : Rig) (o : Output) (x : OutPort) : (r.setOut o x).desk = r.desk := rfl
@[simp] theorem Rig.setOut_outputs (r : Rig) (o : Output) (x : OutPort) :
    (r.setOut o x).outputs = r.outputs.set o x := rfl
@[simp] theorem Rig.setOut_records (r : Rig) (o : Output) (x : OutPort) :
    (r.setOut o x).records = r.records := rfl
@[simp] theorem Rig.setOut_table (r : Rig) (o : Output) (x : OutPort) :
    (r.setOut o x).table = r.table := rfl
@[simp] theorem Rig.setOut_pedals (r : Rig) (o : Output) (x : OutPort) :
    (r.setOut o x).pedals = r.pedals := rfl
@[simp] theorem Rig.setOut_nextLeg (r : Rig) (o : Output) (x : OutPort) :
    (r.setOut o x).nextLeg = r.nextLeg := rfl

@[simp] theorem Rig.setChan_desk (r : Rig) (o : Output) (c : Chan) (x : ChanRec) :
    (r.setChan o c x).desk = r.desk := rfl
@[simp] theorem Rig.setChan_outputs (r : Rig) (o : Output) (c : Chan) (x : ChanRec) :
    (r.setChan o c x).outputs = r.outputs := rfl
@[simp] theorem Rig.setChan_records (r : Rig) (o : Output) (c : Chan) (x : ChanRec) :
    (r.setChan o c x).records = r.records.set (recordPlace o c) x := rfl
@[simp] theorem Rig.setChan_table (r : Rig) (o : Output) (c : Chan) (x : ChanRec) :
    (r.setChan o c x).table = r.table := rfl
@[simp] theorem Rig.setChan_pedals (r : Rig) (o : Output) (c : Chan) (x : ChanRec) :
    (r.setChan o c x).pedals = r.pedals := rfl
@[simp] theorem Rig.setChan_nextLeg (r : Rig) (o : Output) (c : Chan) (x : ChanRec) :
    (r.setChan o c x).nextLeg = r.nextLeg := rfl

@[simp] theorem Rig.setPedal_desk (r : Rig) (n : Input) (c : Chan) (x : Bool) :
    (r.setPedal n c x).desk = r.desk := rfl
@[simp] theorem Rig.setPedal_outputs (r : Rig) (n : Input) (c : Chan) (x : Bool) :
    (r.setPedal n c x).outputs = r.outputs := rfl
@[simp] theorem Rig.setPedal_records (r : Rig) (n : Input) (c : Chan) (x : Bool) :
    (r.setPedal n c x).records = r.records := rfl
@[simp] theorem Rig.setPedal_table (r : Rig) (n : Input) (c : Chan) (x : Bool) :
    (r.setPedal n c x).table = r.table := rfl
@[simp] theorem Rig.setPedal_pedals (r : Rig) (n : Input) (c : Chan) (x : Bool) :
    (r.setPedal n c x).pedals = r.pedals.set (pedalPlace n c) x := rfl
@[simp] theorem Rig.setPedal_nextLeg (r : Rig) (n : Input) (c : Chan) (x : Bool) :
    (r.setPedal n c x).nextLeg = r.nextLeg := rfl

/-! ### Places of the instrument side -/

/-- Writing output `o` and reading output `q`. -/
theorem Rig.out_setOut (r : Rig) (o q : Output) (x : OutPort) :
    (r.setOut o x).out q = if q = o then x else r.out q := by
  by_cases h : q = o
  · subst h; simp [Rig.out, Rig.setOut]
  · have h' : o.val ≠ q.val := fun e => h (Fin.ext e.symm)
    simp [Rig.out, Rig.setOut, h, h']

/-- The 96 places of the records are all different. -/
theorem recordPlace_injective {o q : Output} {c d : Chan} (h : recordPlace o c = recordPlace q d) :
    o = q ∧ c = d := by
  simp only [recordPlace, Fin.mk.injEq] at h
  exact ⟨Fin.ext (by omega), Fin.ext (by omega)⟩

/-- The 64 places of the pedals are all different. -/
theorem pedalPlace_injective {n i : Input} {c d : Chan} (h : pedalPlace n c = pedalPlace i d) :
    n = i ∧ c = d := by
  simp only [pedalPlace, Fin.mk.injEq] at h
  exact ⟨Fin.ext (by omega), Fin.ext (by omega)⟩

/-- Writing record (o, c) and reading record (q, d). -/
theorem Rig.chan_setChan (r : Rig) (o q : Output) (c d : Chan) (x : ChanRec) :
    (r.setChan o c x).chan q d = if q = o ∧ d = c then x else r.chan q d := by
  by_cases h : recordPlace o c = recordPlace q d
  · obtain ⟨rfl, rfl⟩ := recordPlace_injective h
    simp [Rig.chan, Rig.setChan]
  · have hn : ¬(q = o ∧ d = c) := fun e => h (by rw [e.1, e.2])
    have h' : (recordPlace o c).val ≠ (recordPlace q d).val := fun e => h (Fin.ext e)
    simp [Rig.chan, Rig.setChan, hn, h']

/-- Writing the pedal of (n, c) and reading that of (i, d). -/
theorem Rig.pedal_setPedal (r : Rig) (n i : Input) (c d : Chan) (x : Bool) :
    (r.setPedal n c x).pedal i d = if i = n ∧ d = c then x else r.pedal i d := by
  by_cases h : pedalPlace n c = pedalPlace i d
  · obtain ⟨rfl, rfl⟩ := pedalPlace_injective h
    simp [Rig.pedal, Rig.setPedal]
  · have hn : ¬(i = n ∧ d = c) := fun e => h (by rw [e.1, e.2])
    have h' : (pedalPlace n c).val ≠ (pedalPlace i d).val := fun e => h (Fin.ext e)
    simp [Rig.pedal, Rig.setPedal, hn, h']

@[simp] theorem Rig.out_setDesk (r : Rig) (x : Desk) (o : Output) : (r.setDesk x).out o = r.out o := rfl
@[simp] theorem Rig.chan_setDesk (r : Rig) (x : Desk) (o : Output) (c : Chan) :
    (r.setDesk x).chan o c = r.chan o c := rfl
@[simp] theorem Rig.pedal_setDesk (r : Rig) (x : Desk) (n : Input) (c : Chan) :
    (r.setDesk x).pedal n c = r.pedal n c := rfl
@[simp] theorem Rig.chan_setOut (r : Rig) (x : OutPort) (q o : Output) (c : Chan) :
    (r.setOut q x).chan o c = r.chan o c := rfl
@[simp] theorem Rig.out_setChan (r : Rig) (x : ChanRec) (q o : Output) (c : Chan) :
    (r.setChan q c x).out o = r.out o := rfl
@[simp] theorem Rig.out_setTable (r : Rig) (x : List Entry) (o : Output) : (r.setTable x).out o = r.out o := rfl
@[simp] theorem Rig.chan_setTable (r : Rig) (x : List Entry) (o : Output) (c : Chan) :
    (r.setTable x).chan o c = r.chan o c := rfl

/-- The deframer of input `i` after that of input `n` is written. -/
theorem State.deframer_setDeframer (s : State) (n i : Input) (d : Deframer) :
    (s.setDeframer n d).deframer i = if i = n then d else s.deframer i := by
  by_cases h : i = n
  · subst h; simp [State.deframer, State.setDeframer]
  · have h' : n.val ≠ i.val := fun e => h (Fin.ext e.symm)
    simp [State.deframer, State.setDeframer, h, h']

/-! ### Ports of the desk -/

/-- Writing port `p` and reading port `q`. -/
@[simp] theorem Desk.port_setPort (d : Desk) (p q : Port) (x : PortState) :
    (d.setPort p x).port q = if q = p then x else d.port q := by
  cases p <;> cases q <;> rfl

@[simp] theorem Desk.setPort_counters (d : Desk) (p : Port) (x : PortState) :
    (d.setPort p x).counters = d.counters := by cases p <;> rfl

@[simp] theorem Desk.setPort_capture (d : Desk) (p : Port) (x : PortState) :
    (d.setPort p x).capture = d.capture := by cases p <;> rfl

/-- Two writes of one port are the second. -/
@[simp] theorem Desk.setPort_setPort (d : Desk) (p : Port) (x y : PortState) :
    (d.setPort p x).setPort p y = d.setPort p y := by cases p <;> rfl

/-- Writing back what a port holds changes nothing. -/
@[simp] theorem Desk.setPort_port (d : Desk) (p : Port) : d.setPort p (d.port p) = d := by cases p <;> rfl

end Sys2Proof.Machine
end

