-- ==== Sys2Proof/Laws/Desk.lean ====
section
/-! SUPPORT. What the shared operations of the desk can do: admitting a notice or a response at a port,
raising a notice, counting a report, recording a capture. -/
namespace Sys2Proof.Machine

/-! ### One port -/

/-- A notice is appended below 12 frames held and is otherwise dropped with the lost-notice flag set. -/
theorem PortState.admitNotice_cases (x : PortState) (n : Notice) :
    (x.framesHeld < 12 ∧ x.admitNotice n = { x with outbound := x.outbound ++ [.notice n] }) ∨
      (12 ≤ x.framesHeld ∧ x.admitNotice n = { x with lostNotice := true }) := by
  unfold PortState.admitNotice Config.noticeLimit
  split
  · exact .inl ⟨‹_›, rfl⟩
  · exact .inr ⟨by omega, rfl⟩

/-- A notice offered to a port is passed over, coalesced into the POSITION that waits, appended, or
dropped. -/
theorem PortState.offer_cases (x : PortState) (n : Notice) :
    (x.subscribed n = false ∧ x.offer n = x) ∨
    (x.subscribed n = true ∧ (Frame.notice n).isPosition = true ∧ x.waiting.any Frame.isPosition = true ∧
      x.offer n = { x with outbound := x.shifting ++ replacePosition n x.waiting }) ∨
    (x.subscribed n = true ∧
      ¬((Frame.notice n).isPosition = true ∧ x.waiting.any Frame.isPosition = true) ∧
      x.offer n = x.admitNotice n) := by
  unfold PortState.offer
  split
  · rename_i hs
    split
    · rename_i hp
      rw [Bool.and_eq_true] at hp
      exact .inr (.inl ⟨hs, hp.1, hp.2, rfl⟩)
    · rename_i hp
      rw [Bool.and_eq_true] at hp
      exact .inr (.inr ⟨hs, hp, rfl⟩)
  · rename_i hs
    exact .inl ⟨by simpa using hs, rfl⟩

/-- The frames of the outbound queue are the frame being shifted out followed by those that wait. -/
theorem PortState.shifting_append_waiting (x : PortState) : x.shifting ++ x.waiting = x.outbound := by
  unfold PortState.shifting PortState.waiting
  split
  · exact List.take_append_drop 1 x.outbound
  · rfl

/-- Replacing the values of waiting POSITIONs changes no length. -/
@[simp] theorem replacePosition_length (n : Notice) (fs : List Frame) :
    (replacePosition n fs).length = fs.length := by simp [replacePosition]

/-- A notice offered to a port touches nothing but its outbound queue and its lost-notice flag. -/
theorem PortState.offer_frame (x : PortState) (n : Notice) :
    (x.offer n).transfer = x.transfer ∧ (x.offer n).requests = x.requests ∧ (x.offer n).marks = x.marks ∧
      (x.offer n).shortFrames = x.shortFrames ∧ (x.offer n).handledSince = x.handledSince := by
  obtain ⟨-, h⟩ | ⟨-, -, -, h⟩ | ⟨-, -, h⟩ := x.offer_cases n
  · rw [h]; exact ⟨rfl, rfl, rfl, rfl, rfl⟩
  · rw [h]; exact ⟨rfl, rfl, rfl, rfl, rfl⟩
  · rw [h]
    obtain ⟨-, ha⟩ | ⟨-, ha⟩ := x.admitNotice_cases n <;> rw [ha] <;> exact ⟨rfl, rfl, rfl, rfl, rfl⟩

/-- A notice offered to a port keeps its queue's length, or adds one frame to fewer than 12 held. -/
theorem PortState.offer_length (x : PortState) (n : Notice) :
    (x.offer n).outbound.length = x.outbound.length ∨
      (x.framesHeld < 12 ∧ (x.offer n).outbound.length = x.outbound.length + 1) := by
  obtain ⟨-, h⟩ | ⟨-, -, -, h⟩ | ⟨-, -, h⟩ := x.offer_cases n
  · exact .inl (by rw [h])
  · left
    have := congrArg List.length x.shifting_append_waiting
    rw [h]
    simpa using this
  · obtain ⟨hl, ha⟩ | ⟨-, ha⟩ := x.admitNotice_cases n
    · exact .inr ⟨hl, by rw [h, ha]; simp⟩
    · exact .inl (by rw [h, ha])

/-- Answering the oldest request `r` of a port appends its response and lets the next request begin. -/
theorem PortState.answer_cons (x : PortState) (now : StageTime) (st : Status) (payload : List Byte)
    (r : Request) (rest : List Request) (h : x.requests = r :: rest) :
    x.answer now st payload = { x with
      outbound := x.outbound ++ [.response (responseKind r.kind) r.tag st payload]
      requests := rest
      handledSince := now } := by
  unfold PortState.answer
  rw [h]
  rfl

/-! ### Both ports -/

/-- A notice raised for both ports is offered to each. -/
theorem Desk.raise_eq (d : Desk) (n : Notice) :
    d.raise n = { d with panelPort := d.panelPort.offer n, showPort := d.showPort.offer n } := rfl

@[simp] theorem Desk.raise_counters (d : Desk) (n : Notice) : (d.raise n).counters = d.counters := rfl
@[simp] theorem Desk.raise_capture (d : Desk) (n : Notice) : (d.raise n).capture = d.capture := rfl

@[simp] theorem Desk.port_raise (d : Desk) (n : Notice) (p : Port) :
    (d.raise n).port p = (d.port p).offer n := by cases p <;> rfl

@[simp] theorem Desk.raiseAt_counters (d : Desk) (p : Port) (n : Notice) :
    (d.raiseAt p n).counters = d.counters := by cases p <;> rfl

@[simp] theorem Desk.raiseAt_capture (d : Desk) (p : Port) (n : Notice) :
    (d.raiseAt p n).capture = d.capture := by cases p <;> rfl

/-- A directed notice of an origin is raised at one port or at both. -/
theorem Desk.raiseFor_cases (d : Desk) (origin : Origin) (n : Notice) :
    (∃ p, d.raiseFor origin n = d.raiseAt p n) ∨ (origin = .modeChange ∧ d.raiseFor origin n = d.raise n) := by
  cases origin
  · exact .inl ⟨.panelPort, rfl⟩
  · exact .inl ⟨.showPort, rfl⟩
  · exact .inl ⟨.panelPort, rfl⟩
  · exact .inr ⟨rfl, rfl⟩

/-! ### Counters and capture list -/

/-- A counter that takes a report goes up by one, with a COUNTER notice when it newly reaches its threshold;
one that does not accept it leaves the desk as it is. -/
theorem Desk.count_cases (d : Desk) (ev : CounterEvent) (named : Nat) (i : Fin 4) :
    (d.counters[i].accepts ev named = false ∧ d.count ev named i = d) ∨
    (d.counters[i].accepts ev named = true ∧
      ∃ d', d' = { d with counters := d.counters.set i d.counters[i].bump } ∧
        (d.count ev named i = d' ∨
          d.count ev named i = d'.raise (.counter i ev d.counters[i].bump.value))) := by
  simp only [Desk.count]
  split
  · rename_i h
    refine .inr ⟨h, _, rfl, ?_⟩
    split
    · exact .inr rfl
    · exact .inl rfl
  · rename_i h
    exact .inl ⟨by simpa using h, rfl⟩

@[simp] theorem Desk.count_capture (d : Desk) (ev : CounterEvent) (named : Nat) (i : Fin 4) :
    (d.count ev named i).capture = d.capture := by
  obtain ⟨-, h⟩ | ⟨-, d', rfl, h | h⟩ := d.count_cases ev named i <;>
    simp [h]

@[simp] theorem Desk.report_capture (d : Desk) (ev : CounterEvent) (named : Nat) :
    (d.report ev named).capture = d.capture := by simp [Desk.report]

/-- A capture report is passed over, or written at the capture index of an ARMED list, which a record in the
last place makes FULL. -/
theorem Desk.record_cases (d : Desk) (x : CaptureRecord) :
    d.record x = d ∨
    (∃ h : d.capture.index < 32, d.capture.state = .armed ∧ d.capture.kinds.getLsbD x.kind.bit = true ∧
      ((d.capture.index + 1 = 32 ∧
          d.record x = Desk.raise { d with capture := { d.capture with
            places := d.capture.places.set d.capture.index (some x)
            index := d.capture.index + 1
            state := .full } } (.captureFull d.capture.kinds)) ∨
        (d.capture.index + 1 ≠ 32 ∧
          d.record x = { d with capture := { d.capture with
            places := d.capture.places.set d.capture.index (some x)
            index := d.capture.index + 1
            state := .armed } }))) := by
  simp only [Desk.record, Config.capturePlaces]
  split
  · rename_i hc
    rw [Bool.and_eq_true] at hc
    split
    · rename_i hi
      refine .inr ⟨hi, by simpa using hc.1, hc.2, ?_⟩
      by_cases hf : d.capture.index + 1 = 32
      · left; simp [hf]
      · right; simp [hf]
    · exact .inl rfl
  · exact .inl rfl

@[simp] theorem Desk.record_counters (d : Desk) (x : CaptureRecord) :
    (d.record x).counters = d.counters := by
  obtain h | ⟨_, _, _, ⟨_, h⟩ | ⟨_, h⟩⟩ := d.record_cases x <;> simp [h]

end Sys2Proof.Machine
end

