-- ==== Sys2Proof/Laws/Outputs.lean ====
section
/-! SUPPORT. What the shared operations of the output queues can do: flags, the start of a transmission, an
append, the full-queue case, the offers of the bulk queue, and the note table's marks. -/
namespace Sys2Proof.Machine

/-! ### Reports of the instrument side touch only the desk -/

@[simp] theorem Rig.out_raise (r : Rig) (n : Notice) (o : Output) : (r.raise n).out o = r.out o := rfl
@[simp] theorem Rig.out_report (r : Rig) (ev : CounterEvent) (named : Nat) (o : Output) :
    (r.report ev named).out o = r.out o := rfl
@[simp] theorem Rig.out_record (r : Rig) (x : CaptureRecord) (o : Output) :
    (r.record x).out o = r.out o := rfl
@[simp] theorem Rig.chan_raise (r : Rig) (n : Notice) (o : Output) (c : Chan) :
    (r.raise n).chan o c = r.chan o c := rfl
@[simp] theorem Rig.chan_report (r : Rig) (ev : CounterEvent) (named : Nat) (o : Output) (c : Chan) :
    (r.report ev named).chan o c = r.chan o c := rfl
@[simp] theorem Rig.chan_record (r : Rig) (x : CaptureRecord) (o : Output) (c : Chan) :
    (r.record x).chan o c = r.chan o c := rfl

/-- `t` and `r` hold the same notes: the same table, pedals and next leg number. -/
def Rig.sameNotes (r t : Rig) : Prop :=
  t.table = r.table ∧ t.pedals = r.pedals ∧ t.nextLeg = r.nextLeg

theorem Rig.sameNotes_refl (r : Rig) : r.sameNotes r := ⟨rfl, rfl, rfl⟩

theorem Rig.sameNotes_trans {r t u : Rig} (h : r.sameNotes t) (k : t.sameNotes u) : r.sameNotes u :=
  ⟨k.1.trans h.1, k.2.1.trans h.2.1, k.2.2.trans h.2.2⟩

/-! ### Flags (R36, R37) -/

/-- Raising the overflow flag of `o` sets it, with a notice when it was clear, and does no more. -/
theorem Rig.raiseOverflow_cases (r : Rig) (o : Output) :
    ((r.out o).overflow = true ∧ r.raiseOverflow o = r) ∨
    ((r.out o).overflow = false ∧ r.raiseOverflow o =
      (r.setOut o { r.out o with overflow := true }).raise
        (.queueOverflow o (r.out o).urgent.length)) := by
  unfold Rig.raiseOverflow
  split
  · exact .inl ⟨‹_›, rfl⟩
  · rename_i h
    exact .inr ⟨by simpa using h, rfl⟩

/-- The critical flag of `o` is raised, with a notice, when it is clear and the urgent length is above the
level; otherwise nothing changes. -/
theorem Rig.raiseCritical_cases (r : Rig) (o : Output) :
    r.raiseCritical o = r ∨
    ((r.out o).level < (r.out o).urgent.length ∧ (r.out o).critical = false ∧
      r.raiseCritical o = (r.setOut o { r.out o with critical := true }).raise
        (.queueCritical o (r.out o).urgent.length (r.out o).level)) := by
  simp only [Rig.raiseCritical]
  split
  · rename_i h
    rw [Bool.and_eq_true] at h
    exact .inr ⟨by simpa using h.1, by simpa using h.2, rfl⟩
  · exact .inl rfl

/-! ### The start of a transmission (R31) -/

/-- Starting the line of `o` writes at most its transmit state, and reports LEGS SENT when a note-on
begins. -/
theorem Rig.startLine_cases (r : Rig) (m : Moment) (o : Output) :
    r.startLine m o = r ∨
    ∃ q until_, (r.out o).transmit = .idle ∧
      (r.startLine m o = r.setOut o { r.out o with transmit := .sending q until_ } ∨
        r.startLine m o =
          (r.setOut o { r.out o with transmit := .sending q until_ }).report .legsSent o.val) := by
  simp only [Rig.startLine]
  split
  · exact .inl rfl
  · rename_i hi
    split
    · split
      · exact .inr ⟨_, _, hi, .inr rfl⟩
      · exact .inr ⟨_, _, hi, .inl rfl⟩
    · exact .inr ⟨_, _, hi, .inl rfl⟩
    · exact .inl rfl

/-- What starting the line of `o` leaves of every output. -/
theorem Rig.startLine_out (r : Rig) (m : Moment) (o p : Output) :
    (p ≠ o → (r.startLine m o).out p = r.out p) ∧
      ((r.startLine m o).out o).urgent = (r.out o).urgent ∧
      ((r.startLine m o).out o).bulk = (r.out o).bulk ∧
      ((r.startLine m o).out o).enabled = (r.out o).enabled ∧
      ((r.startLine m o).out o).overflow = (r.out o).overflow ∧
      ((r.startLine m o).out o).critical = (r.out o).critical ∧
      ((r.startLine m o).out o).level = (r.out o).level := by
  obtain h | ⟨q, u, -, h | h⟩ := r.startLine_cases m o <;> rw [h] <;>
    simp +contextual [Rig.out_setOut]

/-- Starting a line changes no note and no record. -/
theorem Rig.startLine_frame (r : Rig) (m : Moment) (o : Output) :
    r.sameNotes (r.startLine m o) ∧ (r.startLine m o).records = r.records := by
  obtain h | ⟨q, u, -, h | h⟩ := r.startLine_cases m o <;> rw [h] <;>
    exact ⟨⟨rfl, rfl, rfl⟩, rfl⟩

/-! ### An append (R31, R37) -/

/-- Dropping a held program touches at most one record. -/
theorem Rig.dropHeld_cases (r : Rig) (o : Output) (e : Urgent) :
    ((∀ c p x, e ≠ .program c p x) ∧ r.dropHeld o e = r) ∨
    ∃ c p x, e = .program c p x ∧ r.dropHeld o e = r.setChan o c { r.chan o c with held := none } := by
  cases e with
  | noteOn c k v l => exact .inl ⟨by simp, rfl⟩
  | noteOff c k => exact .inl ⟨by simp, rfl⟩
  | program c p x => exact .inr ⟨c, p, x, rfl, rfl⟩
  | allNotesOff c => exact .inl ⟨by simp, rfl⟩

@[simp] theorem Rig.out_dropHeld (r : Rig) (o q : Output) (e : Urgent) :
    (r.dropHeld o e).out q = r.out q := by
  cases e <;> rfl

theorem Rig.dropHeld_notes (r : Rig) (o : Output) (e : Urgent) : r.sameNotes (r.dropHeld o e) := by
  cases e <;> exact ⟨rfl, rfl, rfl⟩

theorem Rig.raiseCritical_notes (r : Rig) (o : Output) : r.sameNotes (r.raiseCritical o) := by
  obtain h | ⟨-, -, h⟩ := r.raiseCritical_cases o <;> rw [h] <;> exact ⟨rfl, rfl, rfl⟩

/-- What raising the critical flag of `o` leaves of every output. -/
theorem Rig.raiseCritical_out (r : Rig) (o p : Output) :
    (p ≠ o → (r.raiseCritical o).out p = r.out p) ∧
      ((r.raiseCritical o).out o).urgent = (r.out o).urgent ∧
      ((r.raiseCritical o).out o).bulk = (r.out o).bulk ∧
      ((r.raiseCritical o).out o).enabled = (r.out o).enabled ∧
      ((r.raiseCritical o).out o).overflow = (r.out o).overflow ∧
      ((r.raiseCritical o).out o).transmit = (r.out o).transmit ∧
      ((r.raiseCritical o).out o).level = (r.out o).level := by
  obtain h | ⟨-, -, h⟩ := r.raiseCritical_cases o <;> rw [h] <;> simp +contextual [Rig.out_setOut]

/-- An append puts the event at the end of the urgent queue of `o` and leaves the other outputs, the bulk
queue, the enable, the overflow flag and the level as they were. -/
theorem Rig.append_out (r : Rig) (m : Moment) (o p : Output) (e : Urgent) :
    (p ≠ o → (r.append m o e).out p = r.out p) ∧
      ((r.append m o e).out o).urgent = (r.out o).urgent ++ [e] ∧
      ((r.append m o e).out o).bulk = (r.out o).bulk ∧
      ((r.append m o e).out o).enabled = (r.out o).enabled ∧
      ((r.append m o e).out o).overflow = (r.out o).overflow ∧
      ((r.append m o e).out o).level = (r.out o).level := by
  simp only [Rig.append]
  generalize hx : (r.setOut o { r.out o with urgent := (r.out o).urgent ++ [e] }).dropHeld o e = x
  have hq : x.out o = { r.out o with urgent := (r.out o).urgent ++ [e] } := by
    rw [← hx]; simp [Rig.out_setOut]
  have hp : p ≠ o → x.out p = r.out p := fun h => by rw [← hx]; simp [Rig.out_setOut, h]
  obtain ⟨a0, a1, a2, a3, a4, -, a6⟩ := (x.raiseCritical o).startLine_out m o p
  obtain ⟨b0, b1, b2, b3, b4, -, b6⟩ := x.raiseCritical_out o p
  refine ⟨fun h => (a0 h).trans ((b0 h).trans (hp h)), ?_, ?_, ?_, ?_, ?_⟩
  · rw [a1, b1, hq]
  · rw [a2, b2, hq]
  · rw [a3, b3, hq]
  · rw [a4, b4, hq]
  · rw [a6, b6, hq]

/-- An append changes no note. -/
theorem Rig.append_notes (r : Rig) (m : Moment) (o : Output) (e : Urgent) :
    r.sameNotes (r.append m o e) := by
  simp only [Rig.append]
  refine Rig.sameNotes_trans ?_ (Rig.startLine_frame _ m o).1
  refine Rig.sameNotes_trans ?_ (Rig.raiseCritical_notes _ o)
  exact Rig.sameNotes_trans ⟨rfl, rfl, rfl⟩ (Rig.dropHeld_notes _ o e)

/-! ### The full-queue case (R32 to R34) -/

/-- Taking the first note-on of a list leaves one event fewer. -/
theorem takeNoteOn_length (l rest : List Urgent) (c : Chan) (leg : Nat)
    (h : takeNoteOn l = some (c, leg, rest)) : rest.length + 1 = l.length := by
  induction l generalizing rest with
  | nil => simp [takeNoteOn] at h
  | cons e l ih =>
    cases e with
    | noteOn d k v i =>
      simp only [takeNoteOn, Option.some.injEq, Prod.mk.injEq] at h
      rw [← h.2.2]
      rfl
    | noteOff d k =>
      simp only [takeNoteOn, Option.map_eq_some_iff, Prod.exists, Prod.mk.injEq] at h
      obtain ⟨d', i, l', h', rfl, rfl, rfl⟩ := h
      simp [← ih l' h']
    | program d p x =>
      simp only [takeNoteOn, Option.map_eq_some_iff, Prod.exists, Prod.mk.injEq] at h
      obtain ⟨d', i, l', h', rfl, rfl, rfl⟩ := h
      simp [← ih l' h']
    | allNotesOff d =>
      simp only [takeNoteOn, Option.map_eq_some_iff, Prod.exists, Prod.mk.injEq] at h
      obtain ⟨d', i, l', h', rfl, rfl, rfl⟩ := h
      simp [← ih l' h']

/-- Removing the oldest discardable note-on leaves one event fewer in the urgent queue. -/
theorem OutPort.discardable_length (q : OutPort) (c : Chan) (leg : Nat) (rest : List Urgent)
    (h : q.discardable = some (c, leg, rest)) : rest.length + 1 = q.urgent.length := by
  unfold OutPort.discardable at h
  split at h
  · simp only [Option.map_eq_some_iff, Prod.exists, Prod.mk.injEq] at h
    obtain ⟨d, i, l, hl, -, -, rfl⟩ := h
    have := takeNoteOn_length _ _ _ _ hl
    rw [List.length_append, List.length_take]
    rw [List.length_drop] at this
    omega
  · exact takeNoteOn_length _ _ _ _ h

/-- The full-queue case either refuses the event, or discards one note-on and appends the event. -/
theorem Rig.replace_cases (r : Rig) (m : Moment) (o : Output) (e : Urgent) (refuse : Rig → Rig) :
    ((r.out o).discardable = none ∧ r.replace m o e refuse = ⟨refuse r, false, none⟩) ∨
    ∃ c leg rest, (r.out o).discardable = some (c, leg, rest) ∧
      r.replace m o e refuse =
        ⟨(((r.setOut o { r.out o with urgent := rest ++ [e] }).dropHeld o e).reportDiscard m o
          c).startLine m o, true, some leg⟩ := by
  unfold Rig.replace
  split
  · rename_i h
    exact .inl ⟨h, rfl⟩
  · rename_i c leg rest h
    exact .inr ⟨c, leg, rest, h, rfl⟩

/-! ### The note table's marks -/

/-- Marking a leg changes no entry's source, mark or generation and no leg's number. -/
theorem markLeg_sources (table : List Entry) (id : Nat) (sent : Bool) :
    ((markLeg table id sent).map fun e => (e.input, e.channel, e.key, e.sustained, e.generation)) =
      table.map fun e => (e.input, e.channel, e.key, e.sustained, e.generation) := by
  simp [markLeg]

/-- Marking a leg keeps the number of entries. -/
@[simp] theorem markLeg_length (table : List Entry) (id : Nat) (sent : Bool) :
    (markLeg table id sent).length = table.length := by simp [markLeg]

/-- Removing a leg leaves no leg of that number. -/
theorem findLeg_removeLeg (table : List Entry) (id : Nat) : findLeg (removeLeg table id) id = none := by
  induction table with
  | nil => rfl
  | cons e rest ih =>
    simp only [removeLeg, List.map_cons, List.filter_cons] at ih ⊢
    split
    · simp only [findLeg]
      have : (e.legs.filter fun l => decide (l.id ≠ id)).find? (fun l => decide (l.id = id)) = none := by
        simp
      rw [this]
      exact ih
    · exact ih

end Sys2Proof.Machine
end

