-- ==== Sys2Proof/Laws/Commands.lean ====
section
/-! SUPPORT. What the operations that every command shares can do: the live part, the handling of a port's
oldest request, its answer, and the arithmetic that the tempo and the deadlines rest on. -/
namespace Sys2Proof.Machine

/-! ### The live part and the oldest request -/

/-- A command of a live part is its effect; otherwise the event is lost. -/
theorem whenLive_eq (f : State → State) (s : State) :
    (s.live = true ∧ whenLive f s = .next (f s)) ∨ (s.live = false ∧ whenLive f s = .next s) := by
  unfold whenLive
  cases h : s.live
  · exact .inr ⟨rfl, rfl⟩
  · exact .inl ⟨rfl, rfl⟩

/-- A request row handles the oldest request of its port when it is of that row, and nothing otherwise. -/
theorem State.serve_cases (s : State) (p : Port) (row : RequestRow) (h : Request → State → State) :
    (∃ r rest, (s.port p).requests = r :: rest ∧ classify p r = row ∧ s.serve p row h = h r s) ∨
      ((∀ r rest, (s.port p).requests = r :: rest → classify p r ≠ row) ∧ s.serve p row h = s) := by
  unfold State.serve
  split
  · rename_i he
    exact .inr ⟨fun r rest hr => by simp [he] at hr, rfl⟩
  · rename_i r rest he
    split
    · exact .inl ⟨r, rest, he, ‹_›, rfl⟩
    · rename_i hc
      refine .inr ⟨fun r' rest' hr => ?_, rfl⟩
      obtain ⟨rfl, rfl⟩ : r = r' ∧ rest = rest' := by simpa using he.symm.trans hr
      exact hc

/-- A request row of a live part runs the handler on the oldest request that it owns. -/
theorem whenLive_serve_of_heads {s : State} {p : Port} {row : RequestRow} {r : Request}
    {rest : List Request} (h : Heads s p row r rest) (f : Request → State → State) :
    whenLive (fun s => s.serve p row f) s = .next (f r s) := by
  obtain ⟨hl, hr, hc⟩ := h
  simp [whenLive, hl, State.serve, hr, hc]

/-- Answering the oldest request leaves the desk of the answer. -/
theorem State.answer_desk (s : State) (p : Port) (r : Request) (rest : List Request) (st : Status)
    (payload : List Byte) (h : (s.port p).requests = r :: rest) :
    (s.answer p st payload).desk = answeredDesk s p r rest st payload := by
  simp [State.answer, PortState.answer_cons _ _ _ _ _ _ h, answeredDesk, replyTo, State.setPort_desk]

/-- Answering a request touches nothing but the desk. -/
theorem State.answer_sameBut (s : State) (p : Port) (st : Status) (payload : List Byte) :
    SameBut [.desk] s (s.answer p st payload) := by
  intro b hb
  cases b <;> first | exact absurd (List.mem_singleton.mpr rfl) hb | exact rfl

/-- A frame statement over fewer blocks gives one over more. -/
theorem SameBut.mono {l l' : List Block} {s t : State} (h : SameBut l s t) (hl : l ⊆ l') :
    SameBut l' s t := fun b hb => h b fun hm => hb (hl hm)

/-- Frames of two effects that follow one another. -/
theorem SameBut.trans {l : List Block} {s t u : State} (h : SameBut l s t) (k : SameBut l t u) :
    SameBut l s u := by
  intro b hb
  have h1 := h b hb
  have h2 := k b hb
  cases b <;> exact h2.trans h1

/-- Nothing changes in no effect. -/
theorem SameBut.rfl' (l : List Block) (s : State) : SameBut l s s := by
  intro b _
  cases b <;> exact rfl

/-! ### Arithmetic -/

/-- A clamped value lies in its range. -/
theorem clampInt_bounds (lo hi x : Int) (h : lo ≤ hi) : lo ≤ clampInt lo hi x ∧ clampInt lo hi x ≤ hi := by
  unfold clampInt
  split
  · omega
  · split <;> omega

/-- A clamped value is the lesser of the upper end and the greater of the lower end and the value. -/
theorem clampInt_eq (lo hi x : Int) (h : lo ≤ hi) : clampInt lo hi x = min hi (max lo x) := by
  unfold clampInt
  split
  · omega
  · split <;> omega

/-- Computing the tempo again puts tempo, flag and increment in step with base, ratio, trim and state. -/
theorem Tempo.recompute_spec (t : Tempo) :
    t.recompute.effective = (clampInt 2000 30000 t.unclamped).toNat ∧
      (t.recompute.clamped = true ↔ t.unclamped < 2000 ∨ 30000 < t.unclamped) ∧
      t.recompute.increment = (t.recompute.effective * 2 ^ 32 + 3000000000) / 6000000000 ∧
      t.recompute.unclamped = t.unclamped := by
  refine ⟨rfl, ?_, rfl, rfl⟩
  simp [Tempo.recompute]

/-- The tempo that has been computed again lies from 2000 to 30000. -/
theorem Tempo.recompute_bounds (t : Tempo) :
    2000 ≤ t.recompute.effective ∧ t.recompute.effective ≤ 30000 := by
  have h := clampInt_bounds 2000 30000 t.unclamped (by omega)
  rw [t.recompute_spec.1]
  omega

/-- A number spelled by `n` octets reads back, modulo the octets it does not have. -/
theorem numberLE_octetsLE (n v : Nat) : numberLE (octetsLE n v) = v % 256 ^ n := by
  induction n generalizing v with
  | zero => simp [octetsLE, numberLE, Nat.mod_one]
  | succ n ih =>
    simp only [octetsLE, numberLE, ih, BitVec.toNat_ofNat]
    have h : 256 ^ (n + 1) = 256 * 256 ^ n := by rw [Nat.pow_succ, Nat.mul_comm]
    rw [h, Nat.mod_mul]

/-- A number spelled by `n` octets has `n` octets. -/
@[simp] theorem octetsLE_length (n v : Nat) : (octetsLE n v).length = n := by
  induction n generalizing v with
  | zero => rfl
  | succ n ih => simp [octetsLE, ih]

/-! ### What the lines carry -/

/-- A transfer of `n` octets shifts out `n` octets. -/
@[simp] theorem PortState.shiftedOut_length (x : PortState) (side : OutboundSide) (n : Nat) :
    (x.shiftedOut side n).length = n := by
  unfold PortState.shiftedOut
  simp only [List.length_take, List.length_append, List.length_replicate]
  omega

/-- While the audio clock is MISSING the audio lines are low. -/
theorem State.audioLines_missing {s : State} (h : s.click.audio = .missing) : s.audioLines = .low := by
  unfold State.audioLines ClickGen.lines
  rw [h]
  split <;> rfl

/-- While the reset pin is held the audio lines are low. -/
theorem State.audioLines_held {s : State} (h : s.pins.resetHeld = true) : s.audioLines = .low := by
  unfold State.audioLines
  rw [if_pos h]

end Sys2Proof.Machine
end

