-- ==== Sys2Proof/Laws/Notes.lean ====
section
/-! SUPPORT. What the shared operations of the instrument side can do: the offers and their refusals, discards
and releases, ends of legs and entries, program settings, settlement and transmission. -/
namespace Sys2Proof.Machine

/-! ### Pedals and leg numbers are left alone -/

/-- `t` has the pedal states and the next leg number of `r`. -/
def Rig.samePedals (r t : Rig) : Prop := t.pedals = r.pedals ∧ t.nextLeg = r.nextLeg

theorem Rig.samePedals_refl (r : Rig) : r.samePedals r := ⟨rfl, rfl⟩

theorem Rig.samePedals_trans {r t u : Rig} (h : r.samePedals t) (k : t.samePedals u) : r.samePedals u :=
  ⟨k.1.trans h.1, k.2.trans h.2⟩

theorem Rig.sameNotes_pedals {r t : Rig} (h : r.sameNotes t) : r.samePedals t := ⟨h.2.1, h.2.2⟩

/-- A fold of operations that leave the pedals alone leaves them alone. -/
theorem Rig.samePedals_foldl {α : Type} (f : Rig → α → Rig)
    (hf : ∀ (r : Rig) (a : α), r.samePedals (f r a)) (l : List α) (r : Rig) :
    r.samePedals (l.foldl f r) := by
  induction l generalizing r with
  | nil => exact r.samePedals_refl
  | cons a l ih => exact Rig.samePedals_trans (hf r a) (ih (f r a))

/-! ### Offers (R32 to R34) -/

theorem Rig.raiseOverflow_notes (r : Rig) (o : Output) : r.sameNotes (r.raiseOverflow o) := by
  obtain ⟨-, h⟩ | ⟨-, h⟩ := r.raiseOverflow_cases o <;> rw [h] <;> exact ⟨rfl, rfl, rfl⟩

theorem Rig.reportDiscard_notes (r : Rig) (m : Moment) (o : Output) (c : Chan) :
    r.sameNotes (r.reportDiscard m o c) :=
  Rig.sameNotes_trans (t := (r.report .queueDiscards o.val).record _) ⟨rfl, rfl, rfl⟩
    (Rig.raiseOverflow_notes _ o)

theorem Rig.owe_notes (r : Rig) (m : Moment) (o : Output) (c : Chan) : r.sameNotes (r.owe m o c) :=
  Rig.sameNotes_trans (t := ((r.setChan o c _).report .queueDiscards o.val).record _) ⟨rfl, rfl, rfl⟩
    (Rig.raiseOverflow_notes _ o)

/-- The full-queue case touches no entry, no pedal and no leg number, when the refusal does not. -/
theorem Rig.replace_notes (r : Rig) (m : Moment) (o : Output) (e : Urgent) (refuse : Rig → Rig)
    (h : r.sameNotes (refuse r)) : r.sameNotes (r.replace m o e refuse).rig := by
  unfold Rig.replace
  split
  · exact h
  · refine Rig.sameNotes_trans ?_ (Rig.startLine_frame _ m o).1
    refine Rig.sameNotes_trans ?_ (Rig.reportDiscard_notes _ m o _)
    exact Rig.sameNotes_trans ⟨rfl, rfl, rfl⟩ (Rig.dropHeld_notes _ o e)

/-- What a NOTE-ON offered to output `o` can do (R32). -/
theorem Rig.offerNoteOn_cases (r : Rig) (m : Moment) (o : Output) (c : Chan) (k v : Seven) (leg : Nat) :
    ((r.out o).enabled = false ∧ r.offerNoteOn m o c k v leg = ⟨r, false, none⟩) ∨
    ((r.out o).enabled = true ∧ (r.out o).noteOns < 32 ∧ (r.out o).urgent.length < 48 ∧
      r.offerNoteOn m o c k v leg = ⟨r.append m o (.noteOn c k v leg), true, none⟩) ∨
    ((r.out o).enabled = true ∧ (32 ≤ (r.out o).noteOns ∨ 48 ≤ (r.out o).urgent.length) ∧
      r.offerNoteOn m o c k v leg =
        r.replace m o (.noteOn c k v leg) fun r => r.reportDiscard m o c) := by
  unfold Rig.offerNoteOn Config.urgentNoteOns Config.urgentSize
  cases h : (r.out o).enabled
  · simp [h]
  · by_cases h1 : (r.out o).noteOns < 32 <;> by_cases h2 : (r.out o).urgent.length < 48 <;>
      simp [h, h1, h2] <;> omega

/-- What a NOTE-OFF offered to output `o` can do (R33, R39). -/
theorem Rig.offerNoteOff_cases (r : Rig) (m : Moment) (o : Output) (c : Chan) (k : Seven) :
    ((r.out o).enabled = false ∧ r.offerNoteOff m o c k = ⟨r, false, none⟩) ∨
    ((r.out o).enabled = true ∧ (r.out o).urgent.length < 48 ∧
      r.offerNoteOff m o c k = ⟨r.append m o (.noteOff c k), true, none⟩) ∨
    ((r.out o).enabled = true ∧ 48 ≤ (r.out o).urgent.length ∧
      r.offerNoteOff m o c k = r.replace m o (.noteOff c k) fun r => r.owe m o c) := by
  unfold Rig.offerNoteOff Config.urgentSize
  cases h : (r.out o).enabled
  · simp [h]
  · by_cases h2 : (r.out o).urgent.length < 48 <;> simp [h, h2]
    omega

/-- What an ALL-NOTES-OFF offered to output `o` can do (R33, R39). -/
theorem Rig.offerAllNotesOff_cases (r : Rig) (m : Moment) (o : Output) (c : Chan) :
    ((r.out o).enabled = false ∧ r.offerAllNotesOff m o c = ⟨r, false, none⟩) ∨
    ((r.out o).enabled = true ∧ (r.out o).urgent.length < 48 ∧
      r.offerAllNotesOff m o c = ⟨r.append m o (.allNotesOff c), true, none⟩) ∨
    ((r.out o).enabled = true ∧ 48 ≤ (r.out o).urgent.length ∧
      r.offerAllNotesOff m o c = r.replace m o (.allNotesOff c) fun r =>
        if (r.chan o c).panicOwed then r else r.owe m o c) := by
  unfold Rig.offerAllNotesOff Config.urgentSize
  cases h : (r.out o).enabled
  · simp [h]
  · by_cases h2 : (r.out o).urgent.length < 48 <;> simp [h, h2]
    omega

/-- What a PROGRAM offered to output `o` can do (R34, R39). -/
theorem Rig.offerProgram_cases (r : Rig) (m : Moment) (o : Output) (c : Chan) (p : Program) :
    ((r.out o).enabled = false ∧ r.offerProgram m o c p = ⟨r.hold o c p, false, none⟩) ∨
    ((r.out o).enabled = true ∧ (r.out o).urgent.length < 48 ∧
      r.offerProgram m o c p = ⟨r.append m o (.program c p false), true, none⟩) ∨
    ((r.out o).enabled = true ∧ 48 ≤ (r.out o).urgent.length ∧
      r.offerProgram m o c p = r.replace m o (.program c p false) fun r => r.hold o c p) := by
  unfold Rig.offerProgram Config.urgentSize
  cases h : (r.out o).enabled
  · simp [h]
  · by_cases h2 : (r.out o).urgent.length < 48 <;> simp [h, h2]
    omega

/-- An offered NOTE-ON touches no entry, no pedal and no leg number. -/
theorem Rig.offerNoteOn_notes (r : Rig) (m : Moment) (o : Output) (c : Chan) (k v : Seven) (leg : Nat) :
    r.sameNotes (r.offerNoteOn m o c k v leg).rig := by
  obtain ⟨-, h⟩ | ⟨-, -, -, h⟩ | ⟨-, -, h⟩ := r.offerNoteOn_cases m o c k v leg <;> rw [h]
  · exact r.sameNotes_refl
  · exact r.append_notes m o _
  · exact r.replace_notes m o _ _ (r.reportDiscard_notes m o c)

/-- An offered NOTE-OFF touches no entry, no pedal and no leg number. -/
theorem Rig.offerNoteOff_notes (r : Rig) (m : Moment) (o : Output) (c : Chan) (k : Seven) :
    r.sameNotes (r.offerNoteOff m o c k).rig := by
  obtain ⟨-, h⟩ | ⟨-, -, h⟩ | ⟨-, -, h⟩ := r.offerNoteOff_cases m o c k <;> rw [h]
  · exact r.sameNotes_refl
  · exact r.append_notes m o _
  · exact r.replace_notes m o _ _ (r.owe_notes m o c)

/-- An offered ALL-NOTES-OFF touches no entry, no pedal and no leg number. -/
theorem Rig.offerAllNotesOff_notes (r : Rig) (m : Moment) (o : Output) (c : Chan) :
    r.sameNotes (r.offerAllNotesOff m o c).rig := by
  obtain ⟨-, h⟩ | ⟨-, -, h⟩ | ⟨-, -, h⟩ := r.offerAllNotesOff_cases m o c <;> rw [h]
  · exact r.sameNotes_refl
  · exact r.append_notes m o _
  · refine r.replace_notes m o _ _ ?_
    split
    · exact r.sameNotes_refl
    · exact r.owe_notes m o c

/-- An offered PROGRAM touches no entry, no pedal and no leg number. -/
theorem Rig.offerProgram_notes (r : Rig) (m : Moment) (o : Output) (c : Chan) (p : Program) :
    r.sameNotes (r.offerProgram m o c p).rig := by
  obtain ⟨-, h⟩ | ⟨-, -, h⟩ | ⟨-, -, h⟩ := r.offerProgram_cases m o c p <;> rw [h]
  · exact ⟨rfl, rfl, rfl⟩
  · exact r.append_notes m o _
  · exact r.replace_notes m o _ _ ⟨rfl, rfl, rfl⟩

/-! ### Releases and discards (R65, R86) -/

theorem Rig.release_notes (r : Rig) (m : Moment) (o : Output) (c : Chan) :
    r.sameNotes (r.release m o c).1 := by
  unfold Rig.release
  split
  · exact r.sameNotes_refl
  · exact Rig.sameNotes_trans (r.offerProgram_notes m o c _) ⟨rfl, rfl, rfl⟩

/-- After a release nothing is pending on the record. -/
theorem Rig.release_pending (r : Rig) (m : Moment) (o : Output) (c : Chan) :
    ((r.release m o c).1.chan o c).pending = none := by
  unfold Rig.release
  split
  · assumption
  · simp [Rig.chan, Rig.setChan, ChanRec.clearPending]

/-- Settling a discard leaves the pedals, the leg numbers, and the source, state and generation of every
entry: it changes marks of legs only (R65). -/
theorem Rig.settleDiscard_frame (fuel : Nat) (m : Moment) (id : Option Nat) (r : Rig) :
    r.samePedals (r.settleDiscard fuel m id) ∧
      ((r.settleDiscard fuel m id).table.map fun e => (e.input, e.channel, e.key, e.sustained, e.generation)) =
        r.table.map fun e => (e.input, e.channel, e.key, e.sustained, e.generation) := by
  induction fuel generalizing id r with
  | zero => exact ⟨r.samePedals_refl, rfl⟩
  | succ fuel ih =>
    cases id with
    | none => exact ⟨r.samePedals_refl, rfl⟩
    | some id =>
      unfold Rig.settleDiscard
      split
      · exact ⟨r.samePedals_refl, rfl⟩
      · rename_i g l _
        have hb := markLeg_sources r.table id false
        dsimp only
        split
        · split
          · have hn := Rig.release_notes
              (((r.setTable (markLeg r.table id false)).lowerCounts l.output l.channel
                ((r.chan l.output l.channel).isOld m.generation g)).1) m l.output l.channel
            obtain ⟨hp, ht⟩ := ih
              ((((r.setTable (markLeg r.table id false)).lowerCounts l.output l.channel
                ((r.chan l.output l.channel).isOld m.generation g)).1.release m l.output l.channel).2)
              ((((r.setTable (markLeg r.table id false)).lowerCounts l.output l.channel
                ((r.chan l.output l.channel).isOld m.generation g)).1.release m l.output l.channel).1)
            refine ⟨Rig.samePedals_trans ?_ hp, ht.trans ?_⟩
            · exact ⟨hn.2.1, hn.2.2⟩
            · rw [hn.1]; exact hb
          · exact ⟨⟨rfl, rfl⟩, hb⟩
        · exact ⟨r.samePedals_refl, rfl⟩

theorem Rig.settleDiscard_pedals (fuel : Nat) (m : Moment) (id : Option Nat) (r : Rig) :
    r.samePedals (r.settleDiscard fuel m id) := (r.settleDiscard_frame fuel m id).1

theorem Offer.settled_pedals {r : Rig} {x : Offer} (m : Moment) (h : r.sameNotes x.rig) :
    r.samePedals (x.settled m) :=
  Rig.samePedals_trans (Rig.sameNotes_pedals h) (Rig.settleDiscard_pedals _ m _ _)

theorem Rig.releaseSettled_pedals (r : Rig) (m : Moment) (o : Output) (c : Chan) :
    r.samePedals (r.releaseSettled m o c) :=
  Rig.samePedals_trans (Rig.sameNotes_pedals (r.release_notes m o c)) (Rig.settleDiscard_pedals _ m _ _)

/-! ### Ends of legs (R68 to R70) -/

/-- What the end of a leg can do (R68): nothing for a number without a leg; for an unsent leg its removal;
for a sent leg the note-off, the counts, and the release when the old-leg count comes to 0. -/
theorem Rig.endLeg_cases (r : Rig) (m : Moment) (id : Nat) :
    (findLeg r.table id = none ∧ r.endLeg m id = r) ∨
    ∃ g l, findLeg r.table id = some (g, l) ∧
      ((l.sent = false ∧ r.endLeg m id = r.setTable (removeLeg r.table id)) ∨
      (l.sent = true ∧ ∃ a x,
        a = ((r.setTable (removeLeg r.table id)).offerNoteOff m l.output l.channel l.key).settled m ∧
        x = a.lowerCounts l.output l.channel ((a.chan l.output l.channel).isOld m.generation g) ∧
        r.endLeg m id = if x.2 then x.1.releaseSettled m l.output l.channel else x.1)) := by
  unfold Rig.endLeg
  cases h : findLeg r.table id with
  | none => exact .inl ⟨rfl, rfl⟩
  | some x =>
    obtain ⟨g, l⟩ := x
    refine .inr ⟨g, l, rfl, ?_⟩
    cases hl : l.sent
    · exact .inl ⟨rfl, by simp [hl]⟩
    · exact .inr ⟨rfl, _, _, rfl, rfl, by simp [hl]⟩

theorem Rig.endLeg_pedals (r : Rig) (m : Moment) (id : Nat) : r.samePedals (r.endLeg m id) := by
  obtain ⟨-, h⟩ | ⟨g, l, -, ⟨-, h⟩ | ⟨-, a, x, ha, hx, h⟩⟩ := r.endLeg_cases m id <;> rw [h]
  · exact r.samePedals_refl
  · exact ⟨rfl, rfl⟩
  · have h1 : r.samePedals a := by
      rw [ha]
      exact Rig.samePedals_trans (t := r.setTable (removeLeg r.table id)) ⟨rfl, rfl⟩
        (Offer.settled_pedals m (Rig.offerNoteOff_notes _ m _ _ _))
    have h2 : r.samePedals x.1 := by
      rw [hx]
      exact Rig.samePedals_trans h1 ⟨rfl, rfl⟩
    split
    · exact Rig.samePedals_trans h2 (Rig.releaseSettled_pedals _ m _ _)
    · exact h2

theorem Rig.endLegs_pedals (r : Rig) (m : Moment) (ids : List Nat) : r.samePedals (r.endLegs m ids) :=
  Rig.samePedals_foldl _ (fun r id => r.endLeg_pedals m id) ids r

/-- Marking a PROGRAM keeps the number of events. -/
@[simp] theorem markExpiry_length (c : Chan) (l : List Urgent) : (markExpiry c l).length = l.length := by
  induction l with
  | nil => rfl
  | cons e l ih =>
    unfold markExpiry
    split
    · simp [ih]
    · split <;> rfl

/-- Marking a PROGRAM leaves the note-ons of a queue as they are. -/
@[simp] theorem markExpiry_noteOns (c : Chan) (l : List Urgent) :
    (markExpiry c l).filter Urgent.isNoteOn = l.filter Urgent.isNoteOn := by
  induction l with
  | nil => rfl
  | cons e l ih =>
    unfold markExpiry
    split
    · simp [List.filter_cons, ih]
    · split
      · cases e <;> rfl
      · rfl

/-- Everything a spill expiry can do: the old legs end, and then at most the mark of one PROGRAM of the
output's queue changes. -/
theorem Rig.expireSpill_cases (r : Rig) (m : Moment) (o : Output) (c : Chan) :
    r.expireSpill m o c = r.endOldLegs m o c ∨
      ((r.endOldLegs m o c).chan o c).pending = none ∧
        r.expireSpill m o c = (r.endOldLegs m o c).markExpired o c := by
  unfold Rig.expireSpill
  dsimp only
  split
  · next h =>
    simp only [Bool.and_eq_true, Option.isNone_iff_eq_none] at h
    exact .inr ⟨h.1.2, rfl⟩
  · exact .inl rfl

theorem Rig.endOldLegs_pedals (r : Rig) (m : Moment) (o : Output) (c : Chan) :
    r.samePedals (r.endOldLegs m o c) := by
  refine Rig.samePedals_foldl _ (fun r id => ?_) _ r
  unfold Rig.endOldLeg
  split
  · exact r.samePedals_refl
  · split
    · exact r.endLeg_pedals m id
    · exact r.samePedals_refl

theorem Rig.expireSpill_pedals (r : Rig) (m : Moment) (o : Output) (c : Chan) :
    r.samePedals (r.expireSpill m o c) := by
  rcases r.expireSpill_cases m o c with h | ⟨-, h⟩ <;> rw [h]
  · exact r.endOldLegs_pedals m o c
  · exact Rig.samePedals_trans (r.endOldLegs_pedals m o c) ⟨rfl, rfl⟩

/-! ### Program settings (R81 to R84) -/

/-- The case of R81 that decides a setting. -/
theorem Rig.applySetting_cases (r : Rig) (m : Moment) (limit : Nat) (t : Setting) :
    ((r.chan t.output t.channel).equals t.program = true ∧ (r.chan t.output t.channel).pending = none ∧
      r.applySetting m limit t = r) ∨
    ((r.chan t.output t.channel).sounding = 0 ∧
      r.applySetting m limit t = r.sendProgram m t.output t.channel t.program) ∨
    (∃ a, (r.chan t.output t.channel).sounding ≠ 0 ∧ t.alternate = some a ∧
      (r.chan t.output a).sounding = 0 ∧
      r.applySetting m limit t = r.flip m t.output t.channel a t.program) ∨
    ((r.chan t.output t.channel).sounding ≠ 0 ∧
      (∀ a, t.alternate = some a → (r.chan t.output a).sounding ≠ 0) ∧
      r.applySetting m limit t = r.leavePending m limit t.output t.channel t.program) := by
  unfold Rig.applySetting
  dsimp only
  by_cases h : ((r.chan t.output t.channel).equals t.program &&
      (r.chan t.output t.channel).pending.isNone) = true
  · rw [if_pos h]
    simp only [Bool.and_eq_true, Option.isNone_iff_eq_none] at h
    exact .inl ⟨h.1, h.2, rfl⟩
  · rw [if_neg h]
    by_cases hs : (r.chan t.output t.channel).sounding = 0
    · rw [if_pos hs]
      exact .inr (.inl ⟨hs, rfl⟩)
    · rw [if_neg hs]
      cases ha : t.alternate with
      | none => exact .inr (.inr (.inr ⟨hs, by simp, rfl⟩))
      | some a =>
        dsimp only
        by_cases hz : (r.chan t.output a).sounding = 0
        · rw [if_pos hz]
          exact .inr (.inr (.inl ⟨a, hs, rfl, hz, rfl⟩))
        · rw [if_neg hz]
          exact .inr (.inr (.inr ⟨hs, fun b hb => by cases hb; exact hz, rfl⟩))

theorem Rig.sendProgram_pedals (r : Rig) (m : Moment) (o : Output) (c : Chan) (p : Program) :
    r.samePedals (r.sendProgram m o c p) :=
  Rig.samePedals_trans
    (Rig.samePedals_trans (Rig.sameNotes_pedals (r.offerProgram_notes m o c p)) ⟨rfl, rfl⟩)
    (Rig.settleDiscard_pedals _ m _ _)

theorem Rig.applySetting_pedals (r : Rig) (m : Moment) (limit : Nat) (t : Setting) :
    r.samePedals (r.applySetting m limit t) := by
  obtain ⟨-, -, h⟩ | ⟨-, h⟩ | ⟨a, -, -, -, h⟩ | ⟨-, -, h⟩ := r.applySetting_cases m limit t <;> rw [h]
  · exact r.samePedals_refl
  · exact r.sendProgram_pedals m _ _ _
  · exact Rig.samePedals_trans (r.sendProgram_pedals m t.output a t.program) ⟨rfl, rfl⟩
  · unfold Rig.leavePending
    dsimp only
    split
    · exact Rig.samePedals_trans ⟨rfl, rfl⟩ (Rig.expireSpill_pedals _ m _ _)
    · exact ⟨rfl, rfl⟩

theorem Rig.applySettings_pedals (r : Rig) (m : Moment) (limit : Nat) (ts : List Setting) :
    r.samePedals (r.applySettings m limit ts) :=
  Rig.samePedals_trans ⟨rfl, rfl⟩
    (Rig.samePedals_foldl _ (fun r t => r.applySetting_pedals m limit t) ts _)

/-! ### Settlement and transmission (R31, R35) -/

theorem Rig.settleChan_pedals (r : Rig) (m : Moment) (o : Output) (c : Chan) :
    r.samePedals (r.settleChan m o c) := by
  unfold Rig.settleChan
  dsimp only
  have h1 : r.samePedals (if (r.chan o c).panicOwed = true then
      (if (r.offerAllNotesOff m o c).appended = true then
        (r.offerAllNotesOff m o c).rig.setChan o c
          { (r.offerAllNotesOff m o c).rig.chan o c with panicOwed := false }
      else (r.offerAllNotesOff m o c).rig).settleDiscard discardFuel m
        (r.offerAllNotesOff m o c).discarded else r) := by
    split
    · refine Rig.samePedals_trans ?_ (Rig.settleDiscard_pedals _ m _ _)
      have h := Rig.sameNotes_pedals (r.offerAllNotesOff_notes m o c)
      split
      · exact Rig.samePedals_trans h ⟨rfl, rfl⟩
      · exact h
    · exact r.samePedals_refl
  split
  · exact h1
  · exact Rig.samePedals_trans h1 (Offer.settled_pedals m (Rig.offerProgram_notes _ m o c _))

theorem Rig.settle_pedals (r : Rig) (m : Moment) (o : Output) : r.samePedals (r.settle m o) :=
  Rig.samePedals_foldl _ (fun r c => r.settleChan_pedals m o c) _ r

theorem Rig.completeLine_pedals (r : Rig) (m : Moment) (o : Output) :
    r.samePedals (r.completeLine m o) := by
  unfold Rig.completeLine
  split
  · exact r.samePedals_refl
  · dsimp only
    refine Rig.samePedals_trans ?_ (Rig.sameNotes_pedals (Rig.startLine_frame _ m o).1)
    have h1 : r.samePedals (r.setOut o (r.out o).completeHead.clearFlags) := ⟨rfl, rfl⟩
    generalize r.setOut o (r.out o).completeHead.clearFlags = a at h1 ⊢
    generalize (r.out o).completeHead.clearFlags = q
    split
    · exact Rig.samePedals_trans h1 (a.settle_pedals m o)
    · exact h1

end Sys2Proof.Machine
end

