-- ==== Sys2Proof/Laws/Frames.lean ====
section
/-! SUPPORT. What the shared operations of the part leave alone, one frame to an operation: reports, the
staged slot, the take, beat boundaries, references, preparation, the clocks and the panic. -/
namespace Sys2Proof.Machine

/-! ### Setters and reports -/

theorem State.setMem_sameBut (s : State) (x : SetMemory) : SameBut [.mem] s (s.setMem x) := by
  intro b hb; cases b <;> first | exact absurd (List.mem_singleton.mpr rfl) hb | exact rfl
theorem State.setRouter_sameBut (s : State) (x : Router) : SameBut [.router] s (s.setRouter x) := by
  intro b hb; cases b <;> first | exact absurd (List.mem_singleton.mpr rfl) hb | exact rfl
theorem State.setScene_sameBut (s : State) (x : SceneEngine) : SameBut [.scene] s (s.setScene x) := by
  intro b hb; cases b <;> first | exact absurd (List.mem_singleton.mpr rfl) hb | exact rfl
theorem State.setTempo_sameBut (s : State) (x : Tempo) : SameBut [.tempo] s (s.setTempo x) := by
  intro b hb; cases b <;> first | exact absurd (List.mem_singleton.mpr rfl) hb | exact rfl
theorem State.setClick_sameBut (s : State) (x : ClickGen) : SameBut [.click] s (s.setClick x) := by
  intro b hb; cases b <;> first | exact absurd (List.mem_singleton.mpr rfl) hb | exact rfl
theorem State.setPins_sameBut (s : State) (x : Pins) : SameBut [.pins] s (s.setPins x) := by
  intro b hb; cases b <;> first | exact absurd (List.mem_singleton.mpr rfl) hb | exact rfl
theorem State.setInputs_sameBut (s : State) (x : Vector Deframer 4) :
    SameBut [.inputs] s (s.setInputs x) := by
  intro b hb; cases b <;> first | exact absurd (List.mem_singleton.mpr rfl) hb | exact rfl
theorem State.setDesk_sameBut (s : State) (x : Desk) : SameBut [.desk] s (s.setDesk x) := by
  intro b hb; cases b <;> first | exact absurd (List.mem_singleton.mpr rfl) hb | exact rfl

/-- An operation of the instrument side that keeps the pedals and the leg numbers. -/
theorem State.setRig_sameBut (s : State) (r : Rig) (h : s.rig.samePedals r) :
    SameBut [.desk, .outputs, .records, .table] s (s.setRig r) := by
  intro b hb
  cases b <;> first
    | (refine absurd ?_ hb; decide)
    | exact h.1
    | exact h.2
    | exact rfl

theorem State.raise_sameBut (s : State) (n : Notice) : SameBut [.desk] s (s.raise n) := s.setDesk_sameBut _
theorem State.raiseFor_sameBut (s : State) (g : Origin) (n : Notice) : SameBut [.desk] s (s.raiseFor g n) :=
  s.setDesk_sameBut _
theorem State.report_sameBut (s : State) (ev : CounterEvent) (named : Nat) :
    SameBut [.desk] s (s.report ev named) := s.setDesk_sameBut _
theorem State.record_sameBut (s : State) (x : CaptureRecord) : SameBut [.desk] s (s.record x) :=
  s.setDesk_sameBut _
theorem State.setPort_sameBut (s : State) (p : Port) (x : PortState) : SameBut [.desk] s (s.setPort p x) :=
  s.setDesk_sameBut _
theorem State.raisePosition_sameBut (s : State) : SameBut [.desk] s s.raisePosition := s.raise_sameBut _
theorem State.reportLock_sameBut (s : State) : SameBut [.desk] s s.reportLock :=
  SameBut.trans (s.raise_sameBut _) (State.record_sameBut _ _)
theorem State.reportSuperseded_sameBut (s : State) (c : Change) (cause : SupersedeCause) :
    SameBut [.desk] s (s.reportSuperseded c cause) :=
  SameBut.trans (s.raiseFor_sameBut _ _) (State.record_sameBut _ _)
theorem State.recordRefused_sameBut (s : State) (g : Origin) (t : Option (Nat × Nat)) (reason : Reason)
    (tag : Byte) : SameBut [.desk] s (s.recordRefused g t reason tag) := s.record_sameBut _

/-- SONG START touches the desk only (R114). -/
theorem State.songStart_sameBut (s : State) : SameBut [.desk] s s.songStart := by
  unfold State.songStart
  split
  · exact s.raise_sameBut _
  · exact SameBut.rfl' _ s

/-! ### The staged slot (R95 to R98, R105 to R107) -/

theorem State.dropStaged_sameBut (s : State) : SameBut [.scene, .mem, .router] s s.dropStaged := by
  intro b hb; cases b <;> first | (refine absurd ?_ hb; decide) | exact rfl

theorem State.stage_sameBut (s : State) (g : Origin) (t : Nat × Nat) (q : Option Quantize) (tag : Byte) :
    SameBut [.scene, .mem, .router] s (s.stage g t q tag) := by
  intro b hb; cases b <;> first | (refine absurd ?_ hb; decide) | exact rfl

/-- An accepted scene request touches the slot, the under-copy set, the standby bank and the desk. -/
theorem State.accept_sameBut (s : State) (g : Origin) (t : Nat × Nat) (q : Option Quantize) (tag : Byte) :
    SameBut [.scene, .mem, .router, .desk] s (s.accept g t q tag) := by
  unfold State.accept
  dsimp only
  split
  · exact (s.stage_sameBut g t q tag).mono (by simp)
  · exact ((s.dropStaged_sameBut.mono (by simp)).trans
      ((State.reportSuperseded_sameBut _ _ _).mono (by simp))).trans
      ((State.stage_sameBut _ g t q tag).mono (by simp))

theorem State.cueRequest_sameBut (s : State) (ask : SceneAsk) (tag : Byte) :
    SameBut [.scene, .mem, .router, .desk] s (s.cueRequest ask tag) := by
  unfold State.cueRequest
  split
  · exact s.accept_sameBut _ _ _ _
  · exact (s.recordRefused_sameBut _ _ _ _).mono (by simp)

theorem State.modeRequest_sameBut (s : State) : SameBut [.scene, .mem, .router, .desk] s s.modeRequest := by
  unfold State.modeRequest
  split
  · exact s.accept_sameBut _ _ _ _
  · exact (s.raiseFor_sameBut _ _).mono (by simp) |>.trans
      ((State.recordRefused_sameBut _ _ _ _ _).mono (by simp))

theorem State.failPreparation_sameBut (s : State) (c : Change) (reason : Reason) (offset : Nat) :
    SameBut [.scene, .mem, .router, .desk] s (s.failPreparation c reason offset) :=
  ((s.dropStaged_sameBut.mono (by simp)).trans ((State.raiseFor_sameBut _ _ _).mono (by simp))).trans
    ((State.recordRefused_sameBut _ _ _ _ _).mono (by simp))

/-! ### The take (R109 to R112) -/

/-- The blocks that a take, and so a beat boundary, may touch. -/
abbrev takeBlocks : List Block :=
  [.desk, .outputs, .records, .table, .router, .scene, .tempo, .click]

theorem State.takeBanks_sameBut (s : State) (c : Change) : SameBut takeBlocks s (s.takeBanks c) :=
  (((s.setRig_sameBut _ (s.rig.endLegs_pedals s.moment _)).mono (by simp)).trans
    ((State.setRouter_sameBut _ _).mono (by simp))).trans ((State.setScene_sameBut _ _).mono (by simp))

theorem State.takePrograms_sameBut (s : State) (c : Change) : SameBut takeBlocks s (s.takePrograms c) :=
  (s.setRig_sameBut _ (s.rig.applySettings_pedals s.moment _ _)).mono (by simp)

theorem State.takeTempo_sameBut (s : State) (c : Change) : SameBut [.tempo, .scene] s (s.takeTempo c) := by
  intro b hb; cases b <;> first | (refine absurd ?_ hb; decide) | exact rfl

theorem State.handover_sameBut (s : State) (i : Nat) : SameBut [.tempo, .click] s (s.handover i) := by
  intro b hb; cases b <;> first | (refine absurd ?_ hb; decide) | exact rfl

theorem State.takePosition_sameBut (s : State) (h : Bool) (c : Change) :
    SameBut [.scene] s (s.takePosition h c) := s.setScene_sameBut _

theorem State.takeReport_sameBut (s : State) (c : Change) (started : Bool) :
    SameBut [.scene, .desk] s (s.takeReport c started) := by
  unfold State.takeReport
  dsimp only
  refine SameBut.trans ?_ ((State.raisePosition_sameBut _).mono (by simp))
  refine SameBut.trans ?_ ((State.report_sameBut _ _ _).mono (by simp))
  refine SameBut.trans ?_ ((State.record_sameBut _ _).mono (by simp))
  have h := SameBut.trans ((s.setScene_sameBut { s.scene with staged := none }).mono
      (l' := [.scene, .desk]) (by simp))
    ((State.raise_sameBut _ (.sceneTaken c.target.song c.target.scene
      ((s.setScene { s.scene with staged := none }).mem.song c.target.song).tag
      (s.setScene { s.scene with staged := none }).scene.generation c.origin)).mono (by simp))
  split
  · exact h.trans ((State.songStart_sameBut _).mono (by simp))
  · exact h

/-- A take keeps the set memory, the pedals, the leg numbers, the deframers, stage time, the lines and the
queue (R109 to R112). -/
theorem State.take_sameBut (s : State) (c : Change) : SameBut takeBlocks s (s.take c) := by
  unfold State.take
  dsimp only
  refine SameBut.trans ?_ ((State.takeReport_sameBut _ _ _).mono (by simp))
  refine SameBut.trans ?_ ((State.takePosition_sameBut _ _ _).mono (by simp))
  refine SameBut.trans ?_ ((State.handover_sameBut _ _).mono (by simp))
  refine SameBut.trans ?_ ((State.takeTempo_sameBut _ _).mono (by simp))
  exact (s.takeBanks_sameBut c).trans (State.takePrograms_sameBut _ c)

/-- What the slot holds when a change may be taken (R103, R108). -/
theorem SceneEngine.takeable_spec (e : SceneEngine) (f : Quantize → Bool) (c : Change) :
    e.takeable f = some c ↔
      e.staged = some c ∧ c.preparation = .ready ∧ e.frozen = false ∧ f c.quantize = true := by
  unfold SceneEngine.takeable
  cases h : e.staged with
  | none => simp
  | some d =>
    dsimp only
    split
    · rename_i hd
      simp only [Bool.and_eq_true, decide_eq_true_eq, Bool.not_eq_true'] at hd
      constructor
      · rintro ⟨⟩
        exact ⟨rfl, hd.1.1, hd.1.2, hd.2⟩
      · rintro ⟨⟨⟩, -⟩
        rfl
    · rename_i hd
      simp only [Bool.and_eq_true, decide_eq_true_eq, Bool.not_eq_true'] at hd
      constructor
      · exact fun h => nomatch h
      · rintro ⟨⟨⟩, h1, h2, h3⟩
        exact absurd ⟨⟨h1, h2⟩, h3⟩ hd

theorem State.completePreparation_sameBut (s : State) (c : Change) :
    SameBut (.mem :: takeBlocks) s (s.completePreparation c) := by
  unfold State.completePreparation
  dsimp only
  have h := (((s.setRouter_sameBut { s.router with
      standby := s.mem.run c.copy.layerFirst c.copy.layerCount, fill := .filled }).mono
      (l' := .mem :: takeBlocks) (by simp)).trans ((State.setMem_sameBut _
      { s.mem with underCopy := none }).mono (by simp))).trans
    ((State.setScene_sameBut _ { s.scene with staged := some { c with preparation := .ready } }).mono (by simp))
  have k := h.trans ((State.raiseFor_sameBut _ c.origin
    (.changeReady c.target.song c.target.scene c.origin c.quantize)).mono (by simp))
  split
  · exact k.trans ((State.take_sameBut _ _).mono (by simp))
  · exact k

theorem State.endPreparation_sameBut (s : State) :
    SameBut (.mem :: takeBlocks) s s.endPreparation := by
  unfold State.endPreparation
  split
  · exact SameBut.rfl' _ s
  · split
    · split
      · exact s.completePreparation_sameBut _
      · exact (s.failPreparation_sameBut _ _ _).mono (by simp)
    · exact SameBut.rfl' _ s

/-! ### Beat and click boundaries (R113, R123, R124) -/

theorem State.tempoBeat_sameBut (s : State) : SameBut [.tempo, .desk] s s.tempoBeat := by
  unfold State.tempoBeat
  dsimp only
  split
  · exact (s.setTempo_sameBut _).mono (by simp)
  · exact (s.setTempo_sameBut _).mono (by simp)
  · exact (s.setTempo_sameBut _).mono (by simp)
  · split
    · exact (s.setTempo_sameBut _).mono (by simp)
    · exact ((s.setTempo_sameBut _).mono (by simp)).trans ((State.reportLock_sameBut _).mono (by simp))

theorem State.handOff_sameBut (s : State) : SameBut [.click, .tempo, .desk] s s.handOff :=
  (((s.setClick_sameBut _).mono (by simp)).trans ((State.setTempo_sameBut _ _).mono (by simp))).trans
    ((State.raisePosition_sameBut _).mono (by simp))

theorem State.sceneBeat_sameBut (s : State) : SameBut takeBlocks s s.sceneBeat := by
  unfold State.sceneBeat
  dsimp only
  refine SameBut.trans ?_ ((State.handOff_sameBut _).mono (by simp))
  have h : SameBut takeBlocks s (if (decide (s.scene.position.bar = -1) &&
      decide ((s.setScene s.scene.countBeat).scene.position.bar = 0)) = true
      then (s.setScene s.scene.countBeat).songStart else s.setScene s.scene.countBeat) := by
    have h0 := (s.setScene_sameBut s.scene.countBeat).mono (l' := takeBlocks) (by simp)
    split
    · exact h0.trans ((State.songStart_sameBut _).mono (by simp))
    · exact h0
  split
  · exact h.trans (State.take_sameBut _ _)
  · exact h

/-- A beat boundary touches what a take touches (R113, R123). -/
theorem State.beat_sameBut (s : State) : SameBut takeBlocks s s.beat :=
  (s.tempoBeat_sameBut.mono (by simp)).trans (State.sceneBeat_sameBut _)

theorem State.clickIfRisen_sameBut (s : State) : SameBut [.tempo, .click] s s.clickIfRisen := by
  unfold State.clickIfRisen
  dsimp only
  split
  · exact ((s.setTempo_sameBut _).mono (by simp)).trans ((State.setClick_sameBut _ _).mono (by simp))
  · exact SameBut.rfl' _ s

theorem State.advancePhase_sameBut (s : State) (inc : Nat) : SameBut takeBlocks s (s.advancePhase inc) := by
  unfold State.advancePhase
  have h := (s.setTempo_sameBut (s.tempo.advanced inc)).mono (l' := takeBlocks) (by simp)
  split
  · exact h.trans (State.beat_sameBut _)
  · exact h.trans ((State.clickIfRisen_sameBut _).mono (by simp))

theorem State.realign_sameBut (s : State) (next : Bool) : SameBut [.scene, .desk] s (s.realign next) := by
  unfold State.realign
  dsimp only
  split
  · refine SameBut.trans ?_ ((State.raisePosition_sameBut _).mono (by simp))
    have h := (s.setScene_sameBut { s.scene with position := { s.scene.position with
      newBarOwed := true } }).mono (l' := [.scene, .desk]) (by simp)
    split
    · exact h.trans ((State.report_sameBut _ _ _).mono (by simp))
    · exact h
  · split
    · exact s.raisePosition_sameBut.mono (by simp)
    · refine SameBut.trans ?_ ((State.raisePosition_sameBut _).mono (by simp))
      have h := ((s.setScene_sameBut { s.scene with position :=
          { s.scene.position with beat := 0, bar := nextBar s.scene.position.bar, newBarOwed := false } }).mono
          (l' := [.scene, .desk]) (by simp)).trans ((State.report_sameBut _ .barSlips 0).mono (by simp))
      split
      · exact h.trans ((State.songStart_sameBut _).mono (by simp))
      · exact h

/-! ### References (R130 to R142) -/

theorem State.snap_sameBut (s : State) : SameBut takeBlocks s s.snap := by
  unfold State.snap
  have h := (s.setTempo_sameBut { s.tempo with phase := 0 }).mono (l' := takeBlocks) (by simp)
  split
  · exact h.trans (State.beat_sameBut _)
  · exact h

theorem State.setReference_sameBut (s : State) (x : Reference) : SameBut [.tempo] s (s.setReference x) :=
  s.setTempo_sameBut _

theorem State.setHoldover_sameBut (s : State) : SameBut [.tempo] s s.setHoldover := s.setTempo_sameBut _

theorem State.lock_sameBut (s : State) (m : Nat) : SameBut takeBlocks s (s.lock m) := by
  unfold State.lock
  dsimp only
  refine SameBut.trans ?_ ((State.reportLock_sameBut _).mono (by simp))
  refine SameBut.trans ?_ ((State.setHoldover_sameBut _).mono (by simp))
  refine SameBut.trans ?_ ((State.setTempo_sameBut _ _).mono (by simp))
  exact ((s.setTempo_sameBut _).mono (by simp)).trans (State.snap_sameBut _)

theorem State.acquire_sameBut (s : State) (m : Nat) : SameBut takeBlocks s (s.acquire m) := by
  unfold State.acquire
  dsimp only
  split
  · exact (s.setReference_sameBut _).mono (by simp)
  · split
    · split
      · exact (s.setReference_sameBut _).mono (by simp)
      · exact s.lock_sameBut m
    · exact (s.setReference_sameBut _).mono (by simp)

theorem State.follow_sameBut (s : State) (m : Nat) : SameBut [.tempo, .click] s (s.follow m) := by
  unfold State.follow State.correctPhase
  dsimp only
  refine SameBut.trans ?_ ((State.setReference_sameBut _ _).mono (by simp))
  refine SameBut.trans ?_ (State.clickIfRisen_sameBut _)
  exact ((s.setTempo_sameBut _).mono (by simp)).trans ((State.setTempo_sameBut _ _).mono (by simp))

theorem State.outlier_sameBut (s : State) : SameBut [.tempo, .desk] s s.outlier := by
  unfold State.outlier
  dsimp only
  have h := (s.report_sameBut .referenceOutliers 0).mono (l' := [.tempo, .desk]) (by simp)
  split
  · exact h.trans ((State.setReference_sameBut _ _).mono (by simp))
  · exact (h.trans ((State.setTempo_sameBut _ _).mono (by simp))).trans
      ((State.reportLock_sameBut _).mono (by simp))

theorem State.countRef_sameBut (s : State) : SameBut [.tempo] s s.countRef := s.setTempo_sameBut _

/-- A reference beat touches what a take touches (R131, R132, R134, R136, R138). -/
theorem State.referenceBeat_sameBut (s : State) (i : Option Nat) :
    SameBut takeBlocks s (s.referenceBeat i) := by
  have hc := s.countRef_sameBut.mono (l' := takeBlocks) (by simp)
  unfold State.referenceBeat
  split
  · exact SameBut.rfl' _ s
  · exact SameBut.rfl' _ s
  · split
    · exact s.acquire_sameBut _
    · exact ((s.setReference_sameBut _).mono (by simp)).trans ((State.report_sameBut _ _ _).mono (by simp))
  · exact hc.trans ((State.setHoldover_sameBut _).mono (by simp))
  · split
    · exact (hc.trans ((State.follow_sameBut _ _).mono (by simp))).trans
        ((State.setHoldover_sameBut _).mono (by simp))
    · dsimp only
      have h := hc.trans ((State.outlier_sameBut _).mono (by simp))
      split
      · exact h.trans ((State.setHoldover_sameBut _).mono (by simp))
      · exact h
  · exact SameBut.rfl' _ s
  · split
    · dsimp only
      have h := ((s.setTempo_sameBut { s.tempo with state := .locked }).mono (l' := takeBlocks) (by simp)).trans
        ((State.countRef_sameBut _).mono (by simp))
      exact (((h.trans ((State.follow_sameBut _ _).mono (by simp))).trans
        ((State.setReference_sameBut _ _).mono (by simp))).trans
        ((State.setHoldover_sameBut _).mono (by simp))).trans ((State.reportLock_sameBut _).mono (by simp))
    · exact s.outlier_sameBut.mono (by simp)

theorem State.pulse_sameBut (s : State) : SameBut takeBlocks s s.pulse := by
  unfold State.pulse
  dsimp only
  split
  · exact ((s.setReference_sameBut _).mono (by simp)).trans (State.referenceBeat_sameBut _ _)
  · split
    · exact (s.setReference_sameBut _).mono (by simp)
    · exact ((s.setReference_sameBut _).mono (by simp)).trans (State.referenceBeat_sameBut _ _)

theorem State.align_sameBut (s : State) : SameBut [.tempo] s s.align := s.setReference_sameBut _

theorem State.tap_sameBut (s : State) : SameBut takeBlocks s s.tap := by
  unfold State.tap State.tapNow
  dsimp only
  split
  · split
    · exact (s.setTempo_sameBut _).mono (by simp)
    · split
      · exact (s.setTempo_sameBut _).mono (by simp)
      · split
        · exact SameBut.rfl' _ s
        · exact ((s.setTempo_sameBut _).mono (by simp)).trans (State.snap_sameBut _)
  · exact SameBut.rfl' _ s

theorem State.beatMark_sameBut (s : State) (d : Bool) : SameBut takeBlocks s (s.beatMark d) := by
  unfold State.beatMark
  dsimp only
  split
  · split
    · exact s.pulse_sameBut.trans ((State.realign_sameBut _ _).mono (by simp))
    · exact s.pulse_sameBut
  · exact SameBut.rfl' _ s

theorem State.expireHoldover_sameBut (s : State) : SameBut [.tempo, .desk] s s.expireHoldover :=
  ((s.setTempo_sameBut _).mono (by simp)).trans ((State.reportLock_sameBut _).mono (by simp))

/-! ### Due events (R18, R31, R85, R105, R123, R125, R137) -/

theorem State.lineDue_sameBut (s : State) (o : Output) :
    SameBut [.desk, .outputs, .records, .table] s (s.lineDue o) := by
  unfold State.lineDue
  split
  · exact s.setRig_sameBut _ (s.rig.completeLine_pedals s.moment o)
  · exact SameBut.rfl' _ s

theorem State.beatLineDue_sameBut (s : State) : SameBut [.tempo] s s.beatLineDue := by
  unfold State.beatLineDue
  split
  · split
    · exact s.setTempo_sameBut _
    · exact SameBut.rfl' _ s
  · exact SameBut.rfl' _ s

theorem State.spillDue_sameBut (s : State) (o : Output) (c : Chan) :
    SameBut [.desk, .outputs, .records, .table] s (s.spillDue o c) := by
  unfold State.spillDue
  split
  · split
    · exact s.setRig_sameBut _ (s.rig.expireSpill_pedals s.moment o c)
    · exact SameBut.rfl' _ s
  · exact SameBut.rfl' _ s

theorem State.holdoverStep_sameBut (s : State) : SameBut [.tempo, .desk] s s.holdoverStep := by
  unfold State.holdoverStep
  split
  · exact s.expireHoldover_sameBut
  · exact SameBut.rfl' _ s

theorem State.digestDue_sameBut (s : State) : SameBut [.mem, .desk] s s.digestDue := by
  unfold State.digestDue
  split
  · split
    · exact ((s.setMem_sameBut _).mono (by simp)).trans ((State.setDesk_sameBut _ _).mono (by simp))
    · exact SameBut.rfl' _ s
  · exact SameBut.rfl' _ s

theorem State.preparationDue_sameBut (s : State) : SameBut (.mem :: takeBlocks) s s.preparationDue := by
  unfold State.preparationDue
  split
  · exact s.endPreparation_sameBut
  · exact SameBut.rfl' _ s

theorem State.phaseDue_sameBut (s : State) : SameBut takeBlocks s s.phaseDue := by
  unfold State.phaseDue
  split
  · exact ((s.setTempo_sameBut _).mono (by simp)).trans (State.advancePhase_sameBut _ _)
  · exact SameBut.rfl' _ s

theorem State.audioReturn_sameBut (s : State) : SameBut [.click] s s.audioReturn := by
  unfold State.audioReturn
  split
  · exact s.setClick_sameBut _
  · exact SameBut.rfl' _ s

theorem State.samplePeriod_sameBut (s : State) : SameBut [.click] s s.samplePeriod := by
  unfold State.samplePeriod
  split
  · exact s.setClick_sameBut _
  · exact SameBut.rfl' _ s

end Sys2Proof.Machine
end

