-- ==== Sys2Proof/WellFormed.lean ====
section
/-! DEFINITION. Which commands are well formed. The types of the operands already bound every input,
output, channel, key and value; what is left to check is the velocity of a NOTE-ON (00_scope.md: an
arriving note-on with velocity 0 is taken as a note-off). `exec` answers on every command. -/
namespace Sys2Proof

/-- A NOTE-ON is delivered with a velocity of 1 to 127 only (R21, R47). -/
def Instr.velocityFits : Instr → Bool
  | .noteOn _ _ _ v => v.val ≠ 0
  | _ => true

/-- The commands the model calls well formed. -/
def Instr.wellFormed (i : Instr) : Bool := i.velocityFits

end Sys2Proof
end

