-- ==== Sys2Proof/Laws/PerInstr.lean ====
section
/-! SUPPORT. A statement about every command, one lemma per constructor: the only command that is not well
formed is a NOTE-ON of velocity 0 (R21). -/
namespace Sys2Proof.Laws.IllFormedNoteOn

/-- A command that is not well formed is a NOTE-ON of velocity 0. -/
def Statement (i : Instr) : Prop :=
  i.wellFormed = false → ∃ (n : Input) (c : Chan) (k : Seven), i = .noteOn n c k 0

theorem setWrite (p : Port) : Statement (.setWrite p) := fun h => nomatch h
theorem setWriteSoundLength (p : Port) : Statement (.setWriteSoundLength p) := fun h => nomatch h
theorem setWriteSoundSamples (p : Port) : Statement (.setWriteSoundSamples p) := fun h => nomatch h
theorem setRead (p : Port) : Statement (.setRead p) := fun h => nomatch h
theorem setDigest (p : Port) : Statement (.setDigest p) := fun h => nomatch h
theorem enterShow (p : Port) : Statement (.enterShow p) := fun h => nomatch h
theorem enterSetup (p : Port) : Statement (.enterSetup p) := fun h => nomatch h
theorem restart (p : Port) : Statement (.restart p) := fun h => nomatch h
theorem goSong (p : Port) : Statement (.goSong p) := fun h => nomatch h
theorem goScene (p : Port) : Statement (.goScene p) := fun h => nomatch h
theorem goNext (p : Port) : Statement (.goNext p) := fun h => nomatch h
theorem goPrev (p : Port) : Statement (.goPrev p) := fun h => nomatch h
theorem cancel (p : Port) : Statement (.cancel p) := fun h => nomatch h
theorem freeze (p : Port) : Statement (.freeze p) := fun h => nomatch h
theorem thaw (p : Port) : Statement (.thaw p) := fun h => nomatch h
theorem step (p : Port) : Statement (.step p) := fun h => nomatch h
theorem tempoSource (p : Port) : Statement (.tempoSource p) := fun h => nomatch h
theorem tempoSet (p : Port) : Statement (.tempoSet p) := fun h => nomatch h
theorem trim (p : Port) : Statement (.trim p) := fun h => nomatch h
theorem tap (p : Port) : Statement (.tap p) := fun h => nomatch h
theorem beatMark : Statement .beatMark := fun h => nomatch h
theorem outputEnable (p : Port) : Statement (.outputEnable p) := fun h => nomatch h
theorem criticalLevel (p : Port) : Statement (.criticalLevel p) := fun h => nomatch h
theorem panic (p : Port) : Statement (.panic p) := fun h => nomatch h
theorem clickLevel (p : Port) : Statement (.clickLevel p) := fun h => nomatch h
theorem clickMute (p : Port) : Statement (.clickMute p) := fun h => nomatch h
theorem counterSet (p : Port) : Statement (.counterSet p) := fun h => nomatch h
theorem counterRead (p : Port) : Statement (.counterRead p) := fun h => nomatch h
theorem captureArm (p : Port) : Statement (.captureArm p) := fun h => nomatch h
theorem captureRead (p : Port) : Statement (.captureRead p) := fun h => nomatch h
theorem status (p : Port) : Statement (.status p) := fun h => nomatch h
theorem subscribe (p : Port) : Statement (.subscribe p) := fun h => nomatch h
theorem unknownRequest (p : Port) : Statement (.unknownRequest p) := fun h => nomatch h
theorem transferBegin (p : Port) : Statement (.transferBegin p) := fun h => nomatch h
theorem transferEnd (p : Port) (octets : List Byte) : Statement (.transferEnd p octets) := fun h => nomatch h
theorem noteOn (n : Input) (c : Chan) (k : Seven) (v : Seven) : Statement (.noteOn n c k v) := by
  intro h
  have hv : v = 0 := by simpa [Instr.wellFormed, Instr.velocityFits] using h
  exact ⟨n, c, k, by rw [hv]⟩

theorem noteOff (n : Input) (c : Chan) (k : Seven) (asNoteOn : Bool) : Statement (.noteOff n c k asNoteOn) := fun h => nomatch h
theorem sustainPedal (n : Input) (c : Chan) (v : Seven) : Statement (.sustainPedal n c v) := fun h => nomatch h
theorem continuousEvent (n : Input) (c : Chan) (e : ContinuousEvent) : Statement (.continuousEvent n c e) := fun h => nomatch h
theorem songSelect (n : Input) (c : Chan) (program : Seven) : Statement (.songSelect n c program) := fun h => nomatch h
theorem clock (n : Input) : Statement (.clock n) := fun h => nomatch h
theorem alignmentPoint (n : Input) (kind : AlignKind) : Statement (.alignmentPoint n kind) := fun h => nomatch h
theorem stop (n : Input) : Statement (.stop n) := fun h => nomatch h
theorem inputOctet (n : Input) (b : Byte) : Statement (.inputOctet n b) := fun h => nomatch h
theorem syncEdge : Statement .syncEdge := fun h => nomatch h
theorem panicLineEdge : Statement .panicLineEdge := fun h => nomatch h
theorem resetPinLow : Statement .resetPinLow := fun h => nomatch h
theorem resetPinRelease (panicLow : Bool) (syncHigh : Bool) : Statement (.resetPinRelease panicLow syncHigh) := fun h => nomatch h
theorem crystalStop : Statement .crystalStop := fun h => nomatch h
theorem crystalReturn : Statement .crystalReturn := fun h => nomatch h
theorem stageTick : Statement .stageTick := fun h => nomatch h
theorem beatBoundary : Statement .beatBoundary := fun h => nomatch h
theorem clickBoundary : Statement .clickBoundary := fun h => nomatch h
theorem beatLineEnd : Statement .beatLineEnd := fun h => nomatch h
theorem samplePeriod : Statement .samplePeriod := fun h => nomatch h
theorem audioClockLoss : Statement .audioClockLoss := fun h => nomatch h
theorem audioClockReturn : Statement .audioClockReturn := fun h => nomatch h
theorem spillExpiry (o : Output) (c : Chan) : Statement (.spillExpiry o c) := fun h => nomatch h
theorem holdoverExpiry : Statement .holdoverExpiry := fun h => nomatch h
theorem digestComplete : Statement .digestComplete := fun h => nomatch h
theorem preparationComplete : Statement .preparationComplete := fun h => nomatch h
theorem preparationCheckFail : Statement .preparationCheckFail := fun h => nomatch h
theorem transmissionComplete (o : Output) : Statement (.transmissionComplete o) := fun h => nomatch h
theorem panicLineRise : Statement .panicLineRise := fun h => nomatch h
theorem syncLineFall : Statement .syncLineFall := fun h => nomatch h
theorem presenceRunOpen : Statement .presenceRunOpen := fun h => nomatch h
theorem presenceRunGap : Statement .presenceRunGap := fun h => nomatch h

end Sys2Proof.Laws.IllFormedNoteOn
end

