-- ==== Sys2Proof/Laws/Store.lean ====
section
/-! SUPPORT. The laws of the sparse stores of the set memory: a read after a write, other places unchanged,
and the canonical form, which every write keeps. -/
namespace Sys2Proof.Machine

variable {α : Type}

/-- An empty store reads as the default everywhere. -/
@[simp] theorem Store.read_nil (d : α) (k : Nat) : Store.read d ([] : Store α) k = d := rfl

/-- A place below every listed place reads as the default. -/
theorem Store.read_below [DecidableEq α] (d : α) (bound lo k : Nat) (m : Store α)
    (h : Store.wfFrom d bound lo m = true) (hk : k < lo) : Store.read d m k = d := by
  induction m generalizing lo with
  | nil => rfl
  | cons e rest ih =>
    obtain ⟨j, v⟩ := e
    simp only [Store.wfFrom, Bool.and_eq_true, decide_eq_true_eq] at h
    have hj : j ≠ k := by omega
    simp only [Store.read, hj, if_false]
    exact ih (j + 1) h.2 (by omega)

/-- A store that is canonical from `lo` on is canonical from any lower place on. -/
theorem Store.wfFrom_mono [DecidableEq α] (d : α) (bound lo lo' : Nat) (m : Store α)
    (h : Store.wfFrom d bound lo m = true) (hl : lo' ≤ lo) : Store.wfFrom d bound lo' m = true := by
  cases m with
  | nil => rfl
  | cons e rest =>
    obtain ⟨j, v⟩ := e
    simp only [Store.wfFrom, Bool.and_eq_true, decide_eq_true_eq] at h ⊢
    exact ⟨⟨⟨by omega, h.1.1.2⟩, h.1.2⟩, h.2⟩

/-- A write leaves every other place as it was. -/
theorem Store.read_write_other [DecidableEq α] (d : α) (m : Store α) (k j : Nat) (v : α) (h : j ≠ k) :
    Store.read d (Store.write d m k v) j = Store.read d m j := by
  induction m with
  | nil => unfold Store.write; split <;> simp [Store.read, Ne.symm h]
  | cons e rest ih =>
    obtain ⟨i, w⟩ := e
    unfold Store.write
    split
    · simp only [Store.read]; split
      · rfl
      · exact ih
    · split
      · rename_i hi; subst hi
        split <;> simp [Store.read, Ne.symm h]
      · split <;> simp [Store.read, Ne.symm h]

/-- A read of the place just written gives the value written. -/
theorem Store.read_write_same [DecidableEq α] (d : α) (bound lo : Nat) (m : Store α) (k : Nat) (v : α)
    (hm : Store.wfFrom d bound lo m = true) : Store.read d (Store.write d m k v) k = v := by
  induction m generalizing lo with
  | nil => unfold Store.write; split <;> simp_all [Store.read]
  | cons e rest ih =>
    obtain ⟨i, w⟩ := e
    simp only [Store.wfFrom, Bool.and_eq_true, decide_eq_true_eq] at hm
    unfold Store.write
    split
    · rename_i hi
      have : i ≠ k := by omega
      simp only [Store.read, this, if_false]
      exact ih (i + 1) hm.2
    · split
      · rename_i hi; subst hi
        split
        · rename_i hv; subst hv
          exact Store.read_below v bound (i + 1) i rest hm.2 (by omega)
        · simp [Store.read]
      · split
        · rename_i hv; subst hv
          have : i ≠ k := by omega
          simp only [Store.read, this, if_false]
          exact Store.read_below v bound (i + 1) k rest hm.2 (by omega)
        · simp [Store.read]

/-- A write within the bound keeps the canonical form. -/
theorem Store.wfFrom_write [DecidableEq α] (d : α) (bound lo : Nat) (m : Store α) (k : Nat) (v : α)
    (hm : Store.wfFrom d bound lo m = true) (hlo : lo ≤ k) (hb : k < bound) :
    Store.wfFrom d bound lo (Store.write d m k v) = true := by
  induction m generalizing lo with
  | nil => unfold Store.write; split <;> simp_all [Store.wfFrom]
  | cons e rest ih =>
    obtain ⟨i, w⟩ := e
    have hm' := hm
    simp only [Store.wfFrom, Bool.and_eq_true, decide_eq_true_eq] at hm'
    obtain ⟨⟨⟨h1, h2⟩, h3⟩, h4⟩ := hm'
    unfold Store.write
    split
    · simp only [Store.wfFrom, Bool.and_eq_true, decide_eq_true_eq]
      exact ⟨⟨⟨h1, h2⟩, h3⟩, ih (i + 1) h4 (by omega)⟩
    · split
      · rename_i hi; subst hi
        split
        · exact Store.wfFrom_mono d bound (i + 1) lo rest h4 (by omega)
        · simp only [Store.wfFrom, Bool.and_eq_true, decide_eq_true_eq]
          exact ⟨⟨⟨h1, h2⟩, by assumption⟩, h4⟩
      · split
        · exact hm
        · simp only [Store.wfFrom, Bool.and_eq_true, decide_eq_true_eq]
          exact ⟨⟨⟨hlo, hb⟩, by assumption⟩, ⟨⟨by omega, h2⟩, h3⟩, h4⟩

/-- A write within the bound keeps a store canonical. -/
theorem Store.wf_write [DecidableEq α] (d : α) (bound : Nat) (m : Store α) (k : Nat) (v : α)
    (hm : Store.wf d bound m = true) (hb : k < bound) : Store.wf d bound (Store.write d m k v) = true :=
  Store.wfFrom_write d bound 0 m k v hm (Nat.zero_le k) hb

/-- Storing consecutive samples within the bound keeps the canonical form. -/
theorem wf_writeSamples (bound place : Nat) (vs : List (BitVec 16)) (m : Store (BitVec 16))
    (hm : Store.wf 0 bound m = true) (hb : place + vs.length ≤ bound) :
    Store.wf 0 bound (writeSamples place vs m) = true := by
  induction vs generalizing place m with
  | nil => exact hm
  | cons v vs ih =>
    simp only [List.length_cons] at hb
    exact ih (place + 1) _ (Store.wf_write 0 bound m place v hm (by omega)) (by omega)

/-- What a place holds after consecutive samples are stored from `place` on. -/
theorem read_writeSamples (bound place : Nat) (vs : List (BitVec 16)) (m : Store (BitVec 16))
    (hm : Store.wf 0 bound m = true) (hb : place + vs.length ≤ bound) (k : Nat) :
    Store.read 0 (writeSamples place vs m) k =
      if place ≤ k ∧ k < place + vs.length then vs.getD (k - place) 0 else Store.read 0 m k := by
  induction vs generalizing place m with
  | nil => simp [writeSamples]
  | cons v vs ih =>
    simp only [List.length_cons] at hb ⊢
    have hw := Store.wf_write 0 bound m place v hm (by omega)
    simp only [writeSamples]
    rw [ih (place + 1) _ hw (by omega)]
    by_cases hk : k = place
    · subst hk
      have h1 : ¬(k + 1 ≤ k ∧ k < k + 1 + vs.length) := by omega
      have h2 : k ≤ k ∧ k < k + (vs.length + 1) := by omega
      rw [if_neg h1, if_pos h2, Store.read_write_same 0 bound 0 m k v hm]
      simp
    · by_cases hr : place ≤ k ∧ k < place + (vs.length + 1)
      · have h1 : place + 1 ≤ k ∧ k < place + 1 + vs.length := by omega
        rw [if_pos h1, if_pos hr]
        obtain ⟨n, hn⟩ : ∃ n, k - place = n + 1 := ⟨k - place - 1, by omega⟩
        have : k - (place + 1) = n := by omega
        rw [this, hn]; simp
      · have h1 : ¬(place + 1 ≤ k ∧ k < place + 1 + vs.length) := by omega
        rw [if_neg h1, if_neg hr, Store.read_write_other 0 m place k v hk]

/-- The set memory after pin reset is canonical. -/
theorem SetMemory.pinReset_wf : SetMemory.pinReset.wf = true := by decide

end Sys2Proof.Machine
end

