-- ==== Sys2Proof/Tests/Slice0.lean ====
section
/-! SUPPORT. The model's own tests: the smoke test of WellFormed, worked examples of the manual, and for each
statement with hypotheses a concrete state and operands that meet them, clause by clause. -/
open Sys2Proof Sys2Proof.Machine
namespace Sys2Proof.Tests

/-! ### Small states -/

/-- A request frame of kind `kind` and tag 7. -/
def rq (kind : Byte) (payload : List Byte) : Request := ⟨payload.length + 3, kind, 7, payload, none⟩

/-- `s` with the one request `r` at port `p`. -/
def asked (p : Port) (r : Request) (s : State) : State := s.setPort p { s.port p with requests := [r] }

/-- The request of a live state with one request is the one being handled. -/
theorem heads {p : Port} {r : Request} {s : State} {row : RequestRow} (hl : s.live = true)
    (h : classify p r = row) : Heads (asked p r s) p row r [] := by
  cases p <;> exact ⟨hl, rfl, h⟩

/-- A layer entry of N0 and N1, channel 1, every key: ROUTE to O0 and O1 on channel 1. -/
def layerA : Layer := ⟨0b0011, 1, 0, 127, 1, 127, .route, 0b000011, 1, 0, 64, 0, true, 9⟩

/-- A scene of one layer entry and one program setting, taken at once. -/
def sceneA : Scene := ⟨0, 1, [⟨0, 0, ⟨5, some 300⟩, some 3⟩], some 14000, 256, 4, 0, .immediate, 0b0011, 8⟩

/-- A set of two songs, the first of two scenes. -/
def setA : SetMemory :=
  { SetMemory.pinReset with
    header := ⟨2, .panelSide, 1000, 64, some 3, 2⟩
    songs := [(0, ⟨0, 2, 1, 0x1234⟩), (1, ⟨1, 1, 0, 5⟩)]
    scenes := [(0, sceneA), (1, { sceneA with cueTag := 2 })]
    layers := [(0, layerA)] }

/-- SETUP with the set loaded. -/
def loaded : State := State.reset.setMem setA

/-- SHOW with song 0 scene 0 current. -/
def onStage : State :=
  { loaded with
    scene := ⟨.showMode, some ⟨0, 0, 0⟩, 1, none, false, ⟨some 0, 0, 0, false⟩, 4⟩
    router := ⟨[layerA], [], .empty, 0, 0b0011⟩ }

/-- A change to song 1 scene 0 of rank 2 from the panel. -/
def changeA (prep : Preparation) (q : Quantize) : Change :=
  ⟨⟨1, 0, 1⟩, .panelSide, 2, none, q, 2, prep, { sceneA with cueTag := 2 }, 0⟩

/-- SHOW with the change in the slot. -/
def staged (prep : Preparation) (q : Quantize) : State :=
  { onStage with
    scene := { onStage.scene with staged := some (changeA prep q) }
    mem := { setA with underCopy := if prep = .preparing then some ⟨1, 0, 1⟩ else none }
    router := { onStage.router with
      standby := if prep = .preparing then [] else [layerA]
      fill := if prep = .preparing then .filling else .filled } }

/-- The entry of key 60 on N0 with one sent leg on O0 channel 1. -/
def entryA (sustained : Bool) : Entry := ⟨0, 0, 60, sustained, 1, [⟨0, 0, 0, 60, 100, true⟩]⟩

/-- SHOW with the note sounding. -/
def sounding (sustained : Bool) : State :=
  onStage.setRig
    { (onStage.rig.setTable [entryA sustained]).setChan 0 0 { ChanRec.clear with sounding := 1 } with
      nextLeg := 1 }

/-- SHOW with one command waiting. -/
def playing : State := (sounding false).setPending [.stageTick]

/-! ### WellFormed (R21) -/

theorem test_wellformed_refuses_velocity_zero : (Instr.noteOn 0 0 60 0).wellFormed = false := by decide
theorem test_wellformed_takes_velocity_one : (Instr.noteOn 0 0 60 1).wellFormed = true := by decide

/-! ### Worked examples of the manual -/

/-- The tempo a base, ratio and trim give in FREE, with the clamped flag and the increment. -/
def tempoOf (base ratio : Nat) (trim : Int) : Nat × Bool × Nat :=
  let t := { Tempo.pinReset with base := base, ratio := ratio, trim := trim }.recompute
  (t.effective, t.clamped, t.increment)

/-- Example of 7.2: tempo arithmetic. -/
theorem test_tempo_double_time : tempoOf 12000 384 0 = (18000, false, 12885) := by decide
theorem test_tempo_half_rounds_up : tempoOf 10001 384 0 = (15002, false, 10739) := by decide
theorem test_tempo_negative_trim : tempoOf 12000 384 (-150) = (17850, false, 12778) := by decide
theorem test_tempo_clamps_high : tempoOf 25000 384 0 = (30000, true, 21475) := by decide
theorem test_tempo_clamps_low : tempoOf 2000 64 200 = (2000, true, 1432) := by decide

/-- Examples of R135: an error of a beat that is behind, and of one that is ahead. -/
theorem test_correction_behind : correctedPhase 4200000000#32 2 = 4211870912#32 := by decide
theorem test_correction_ahead : correctedPhase 1000001#32 0 = 500001#32 := by decide
theorem test_correction_minus_one : correctedPhase 0xFFFFFFFF#32 0 = 0xFFFFFFFF#32 := by decide

/-- Example of 7.7: the measurements of pulses 3 and 6, and the first follow. -/
theorem test_measure_499200 : measure 499200 = some 12019 := by decide
theorem test_measure_below_range : measure 199999 = none := by decide
theorem test_first_follow : followedBase 11976 12048 2 = 11994 := by decide

/-- Examples of 1.10: digest arithmetic. -/
theorem test_digest_example_one : foldDigest (0xFFFFFFF0 + 0x20 + 0x1) = 0xFFFFFFED#32 := by decide
theorem test_digest_example_two : foldDigest (0xFFFFFFFF + 0xFFFFFFFF + 0x1) = 0xFFFFFFFF#32 := by decide
theorem test_digest_words_of_the_set : selectedWords 0b111111 0 kindWords = 16262 := by decide

/-- 00_scope.md: round half up of -2.5 is -2, and an arithmetic shift of -5 by 1 gives -3. -/
theorem test_round_half_up_negative : roundHalfUp (-5) 2 = -2 := by decide
theorem test_arithmetic_shift_negative : (-5 : Int).fdiv 2 = -3 := by decide

/-- R192: the octets of a program with a bank, of a note-off and of an ALL-NOTES-OFF on channel 1. -/
theorem test_octets_program_with_bank :
    (Urgent.program 0 ⟨5, some 300⟩ false).octets = [0xB0, 0, 2, 0xB0, 32, 44, 0xC0, 5] := by decide
theorem test_octets_note_off : (Urgent.noteOff 0 60).octets = [0x80, 60, 64] := by decide
theorem test_octets_all_notes_off : (Urgent.allNotesOff 15).octets = [0xBF, 123, 0] := by decide

/-- R191: the classes of octets, bit by bit from the table. -/
theorem test_octet_note_on_channel_3 : octetClass 0x92 = .channel .noteOn 2 := by decide
theorem test_octet_clock : octetClass 0xF8 = .timing .clock := by decide
theorem test_octet_opening : octetClass 0xF9 = .opening := by decide

/-- R188: request frames by their kind octets and lengths. -/
theorem test_row_go_song : classify .panelPort (rq 0x07 [1, 0xFF, 0]) = .goSong := by decide
theorem test_row_go_song_short : classify .panelPort (rq 0x07 [1, 0xFF]) = .turnedAway .length := by decide
theorem test_row_beat_mark_panel :
    classify .panelPort (rq 0x13 [1]) = .turnedAway .unknown := by decide
theorem test_row_unassigned : classify .showPort (rq 0x1F []) = .turnedAway .unknown := by decide

/-- R189: the words of a layer entry, its bits written out from the table. -/
theorem test_words_layer :
    layerA.words = [0x027F0013#32, 0x0010FF81#32, 0x02404000#32] := by decide

/-- R49: a velocity scaled by 64 is kept, and one beyond 127 is clamped. -/
theorem test_velocity_unity : layerA.velocityOf 100 = 100 := by decide
theorem test_velocity_clamped : ({ layerA with scale := 127 } : Layer).velocityOf 127 = 127 := by decide

/-! ### One command each, on small states -/

/-- The state a command leaves. -/
def ran (i : Instr) (s : State) : State :=
  match exec i s with
  | .next t => t
  | .fault _ => s
  | .refused _ => s

/-- R47, R64: a note-on of a layer to O0 and O1 sounds one leg on each. -/
theorem test_note_on_layers :
    ((ran (.noteOn 0 0 60 100) onStage).rig.out 0).urgent = [.noteOn 0 60 100 0] ∧
      ((ran (.noteOn 0 0 60 100) onStage).rig.out 1).urgent = [.noteOn 0 60 100 1] := by decide

/-- R66, R68: a note-off of a SOUNDING entry with the pedal UP queues its note-off and empties the table. -/
theorem test_note_off_ends :
    (ran (.noteOff 0 0 60 false) (sounding false)).rig.table = [] ∧
      ((ran (.noteOff 0 0 60 false) (sounding false)).rig.out 0).urgent = [.noteOff 0 60] := by decide

/-- R67: the pedal going UP ends the SUSTAINED entry of its input and channel. -/
theorem test_pedal_up_ends :
    (ran (.sustainPedal 0 0 63) ((sounding true).setRig ((sounding true).rig.setPedal 0 0 true))).rig.table =
      [] := by decide

/-- R23: running kind, the second NOTE-ON of a kind octet; R24: a data octet without a kind. -/
theorem test_octet_holds_the_key :
    (ran (.inputOctet 0 60) (onStage.setDeframer 0 ⟨.channel .noteOn 0, none⟩)).deframer 0 =
      ⟨.channel .noteOn 0, some 60⟩ := by decide

/-- R97, R101: GO NEXT within a song stages the next scene. -/
theorem test_go_next_stages :
    ((ran (.goNext .panelPort) (asked .panelPort (rq 0x09 [0]) onStage)).scene.staged.map fun c => c.target) =
      some ⟨0, 1, 1⟩ := by decide

/-- R97: GO SCENE to the current scene is ALREADY. -/
theorem test_go_scene_already :
    ((ran (.goScene .panelPort) (asked .panelPort (rq 0x08 [0, 0]) onStage)).port .panelPort).outbound =
      [.response 0x08 7 .already []] := by decide

/-- R107 to R112: a READY change of quantize IMMEDIATE is taken; the generation rises by one. -/
theorem test_preparation_takes :
    (ran .preparationComplete (staged .preparing .immediate)).scene.generation = 2 ∧
      (ran .preparationComplete (staged .preparing .immediate)).scene.current = some ⟨1, 0, 1⟩ := by decide

/-- R111: a song of one count-in bar is entered at bar -1. -/
theorem test_take_counts_in :
    (((staged .ready .beat).setScene { (staged .ready .beat).scene with
        position := ⟨some 1, 3, 2, false⟩ }).take
      { changeA .ready .beat with target := ⟨0, 1, 1⟩ }).scene.position = ⟨some 0, -1, 0, false⟩ := by decide

/-- R123: at 12000 cBPM the first beat boundary comes in the 499,997th microsecond. -/
theorem test_first_beat_after_499997 :
    ({ Tempo.pinReset with phase := BitVec.ofNat 32 (499995 * 8590) } : Tempo).carries 8590 = false ∧
      ({ Tempo.pinReset with phase := BitVec.ofNat 32 (499996 * 8590) } : Tempo).carries 8590 = true := by
  decide

/-- R31: a note-on of three octets is on the line for 960 microseconds. -/
theorem test_line_time :
    ((ran (.noteOn 0 0 60 100) onStage).rig.out 0).transmit = .sending .urgent 960#32 := by decide

/-- R165: the panel port with 12 frames held drops a notice and sets its lost-notice flag. -/
theorem test_notice_dropped_at_twelve :
    (({ PortState.pinReset with outbound := List.replicate 12 (.notice (.mode .showMode)) } : PortState).offer
      (.mode .setupMode)).lostNotice = true := by decide

/-- R166: a POSITION that waits takes the newer values in place. -/
theorem test_position_coalesces :
    (({ PortState.pinReset with
        marks := 0x1FF#9, outbound := [.notice (.position (some 0) 22 1 5)] } : PortState).offer
      (.position (some 0) 22 2 5)).outbound = [.notice (.position (some 0) 22 2 5)] := by decide

/-- R152: one voice at half scale and half gain, under the master gain 16384. -/
theorem test_mix_one_voice : mixSample (16384 * 16384) 16384 = 4096 := by decide

/-- R85 with R40: a program that a spill expiry queued is offered again by the panic that purges it. -/
theorem test_panic_offers_expired_again :
    let s := (onStage.setRig (onStage.rig.setOut 0 { OutPort.pinReset with
      urgent := [.noteOff 0 60, .program 0 ⟨7, none⟩ true], transmit := .sending .urgent 960#32 }))
    ((ran .panicLineEdge s).rig.out 0).urgent.getLast? = some (.program 0 ⟨7, none⟩ false) := by
  decide +kernel

/-- R155: the audio lines are low while the audio clock is MISSING. -/
theorem test_audio_lines_low : State.reset.audioLines = .low := by decide

/-- R159: behind the octets of a queued frame the part shifts out octets of 0. -/
theorem test_shifted_out_pads :
    ({ PortState.pinReset with outbound := [.response 0x06 7 .done []] } : PortState).shiftedOut .queuedFrame 6 =
      (Frame.response 0x06 7 .done []).octets ++ List.replicate (6 - (Frame.response 0x06 7 .done []).octets.length) 0 := by
  decide

/-! ### Witnesses: the machine -/

theorem test_witness_StepRunsFront : playing.pending = [.stageTick] := rfl

theorem test_witness_step_answers : ∃ t, step playing = .next t := ⟨_, rfl⟩

theorem test_witness_SetMemoryStaysSound : playing.mem.wf = true ∧ recordsInRange playing = true := by
  decide

theorem test_witness_DeskStaysBounded :
    portsBounded playing = true ∧ positionsCoalesced playing = true ∧ captureBounded playing := by
  unfold captureBounded; decide

theorem test_witness_QueuesStayBounded : queuesBounded playing = true ∧ bulkDistinct playing := by
  unfold bulkDistinct; decide

theorem test_witness_TableStaysBounded : tableBounded playing := by unfold tableBounded; decide

theorem test_witness_CountsStayInStep : countsInStep playing := by unfold countsInStep; decide

theorem test_witness_TempoStaysInStep : tempoInStep playing := by unfold tempoInStep; decide

theorem test_witness_SlotStaysInStep :
    slotInStep playing ∧ slotInStep (staged .preparing .beat) ∧ slotInStep (staged .ready .bar) :=
  ⟨⟨rfl, rfl, rfl⟩, ⟨rfl, rfl⟩, ⟨rfl, rfl⟩⟩

theorem test_witness_SetupStaysIdle :
    (setupIdle loaded ∧ tableBounded loaded) ∧ loaded.scene.mode = .setupMode := by
  unfold setupIdle tableBounded; decide

theorem test_witness_CountersAreSilent :
    ∃ t u, exec .stageTick playing = .next t ∧
      exec .stageTick (playing.setDesk { playing.desk with
        counters := Vector.replicate 4 ⟨some .sceneTakes, 0, 1, 0, false⟩, capture := Capture.clear }) =
        .next u := ⟨_, _, rfl, rfl⟩

theorem test_witness_EveryCommandKeepsTheQueue :
    Instr.syncEdge ≠ .stageTick ∧ ∀ a b, Instr.syncEdge ≠ .resetPinRelease a b := by decide

/-! ### Witnesses: the set memory -/

/-- A click pattern within its ranges. -/
def patternA : Pattern := ⟨2, [.accent, .normal], ⟨0, 32767⟩, ⟨1, 9⟩, ⟨2, 8⟩, ⟨3, 7⟩⟩

theorem test_witness_RecordBodiesRoundTrip :
    setA.header.inRange = true ∧ (⟨255, 16, 2, 0xFFFF⟩ : Song).inRange = true ∧ sceneA.inRange = true ∧
      layerA.inRange = true ∧ patternA.inRange = true := by decide

/-- SET WRITE of a whole record. -/
def write (kind index : Nat) (body : List Byte) : Request :=
  rq 0x01 (octet kind :: (octetsLE 2 index ++ body))

theorem test_witness_SetWriteStores :
    setA.wf = true ∧
    (Heads (asked .panelPort (write 0 0 (wordOctets setA.header.words)) loaded) .panelPort .setWrite
        (write 0 0 (wordOctets setA.header.words)) [] ∧
      decodeHeader (write 0 0 (wordOctets setA.header.words)).body = some setA.header) ∧
    (Heads (asked .showPort (write 1 63 (wordOctets (Song.words ⟨255, 16, 2, 1⟩))) onStage) .showPort .setWrite
        (write 1 63 (wordOctets (Song.words ⟨255, 16, 2, 1⟩))) [] ∧
      (decodeSong (write 1 63 (wordOctets (Song.words ⟨255, 16, 2, 1⟩))).body).isSome = true) ∧
    (Heads (asked .showPort (write 2 255 sceneA.packed) onStage) .showPort .setWrite
        (write 2 255 sceneA.packed) [] ∧
      decodeScene (write 2 255 sceneA.packed).body = some sceneA ∧ setA.sceneHeld 255 = false) ∧
    (Heads (asked .showPort (write 3 1023 (wordOctets layerA.words)) onStage) .showPort .setWrite
        (write 3 1023 (wordOctets layerA.words)) [] ∧
      decodeLayer (write 3 1023 (wordOctets layerA.words)).body = some layerA ∧
      setA.layerHeld 1023 = false) ∧
    (Heads (asked .showPort (write 4 15 (wordOctets patternA.words)) onStage) .showPort .setWrite
        (write 4 15 (wordOctets patternA.words)) [] ∧
      decodePattern (write 4 15 (wordOctets patternA.words)).body = some patternA) := by
  refine ⟨by decide, ⟨heads rfl (by decide), by decide⟩, ⟨heads rfl (by decide), by decide⟩,
    ⟨heads rfl (by decide), by decide, by decide⟩, ⟨heads rfl (by decide), by decide, by decide⟩,
    ⟨heads rfl (by decide), by decide⟩⟩

theorem test_witness_SetWriteRefused :
    Heads (asked .panelPort (write 7 0 [0]) loaded) .panelPort .setWrite (write 7 0 [0]) [] ∧
    (Heads (asked .panelPort (write 1 64 [0, 1, 0, 0]) loaded) .panelPort .setWrite
      (write 1 64 [0, 1, 0, 0]) []) ∧
    (Heads (asked .panelPort (write 1 0 [0, 0, 0, 0]) loaded) .panelPort .setWrite
        (write 1 0 [0, 0, 0, 0]) [] ∧ decodeSong (write 1 0 [0, 0, 0, 0]).body = none) ∧
    (Heads (asked .panelPort (write 0 0 (wordOctets setA.header.words)) onStage) .panelPort .setWrite
        (write 0 0 (wordOctets setA.header.words)) [] ∧ onStage.scene.mode = .showMode) ∧
    (Heads (asked .panelPort (write 2 1 sceneA.packed) (staged .preparing .beat)) .panelPort .setWrite
        (write 2 1 sceneA.packed) [] ∧ (staged .preparing .beat).mem.sceneHeld 1 = true) ∧
    (Heads (asked .panelPort (write 3 0 (wordOctets layerA.words)) (staged .preparing .beat)) .panelPort
        .setWrite (write 3 0 (wordOctets layerA.words)) [] ∧
      (staged .preparing .beat).mem.layerHeld 0 = true) := by
  refine ⟨heads rfl (by decide), heads rfl (by decide), ⟨heads rfl (by decide), by decide⟩,
    ⟨heads rfl (by decide), by decide⟩, ⟨heads rfl (by decide), by decide⟩,
    ⟨heads rfl (by decide), by decide⟩⟩

theorem test_witness_SoundWriteStores :
    loaded.mem.wf = true ∧
    (Heads (asked .showPort (write 5 3 (octetsLE 4 4096)) loaded) .showPort .soundLength
        (write 5 3 (octetsLE 4 4096)) [] ∧
      decodeSoundLength (write 5 3 (octetsLE 4 4096)).body = some 4096) ∧
    (Heads (asked .showPort (write 5 3 (octetsLE 4 4097)) loaded) .showPort .soundLength
        (write 5 3 (octetsLE 4 4097)) [] ∧
      decodeSoundLength (write 5 3 (octetsLE 4 4097)).body = none) ∧
    (Heads (asked .showPort (write 6 0 ([0xFF, 0x0F, 1] ++ [7, 0])) loaded) .showPort .soundSamples
        (write 6 0 ([0xFF, 0x0F, 1] ++ [7, 0])) [] ∧
      (write 6 0 ([0xFF, 0x0F, 1] ++ [7, 0])).sampleOffset = 4095 ∧
      (write 6 0 ([0xFF, 0x0F, 1] ++ [7, 0])).sampleCount = 1) ∧
    (Heads (asked .showPort (write 6 0 ([0xFF, 0x0F, 2] ++ [7, 0, 7, 0])) loaded) .showPort .soundSamples
        (write 6 0 ([0xFF, 0x0F, 2] ++ [7, 0, 7, 0])) [] ∧
      (write 6 0 ([0xFF, 0x0F, 2] ++ [7, 0, 7, 0])).sampleCount = 2) := by
  refine ⟨by decide, ⟨heads rfl (by decide), by decide⟩, ⟨heads rfl (by decide), by decide⟩,
    ⟨heads rfl (by decide), by decide, by decide⟩, ⟨heads rfl (by decide), by decide⟩⟩

theorem test_witness_SetReadReturns :
    Heads (asked .panelPort (rq 0x02 [0, 0, 0]) loaded) .panelPort .setRead (rq 0x02 [0, 0, 0]) [] ∧
    Heads (asked .panelPort (rq 0x02 [4, 15, 0]) loaded) .panelPort .setRead (rq 0x02 [4, 15, 0]) [] ∧
    Heads (asked .panelPort (rq 0x02 [4, 16, 0]) loaded) .panelPort .setRead (rq 0x02 [4, 16, 0]) [] ∧
    (Heads (asked .panelPort (rq 0x02 [6, 3, 0, 0xFF, 0x0F, 1]) loaded) .panelPort .setRead
        (rq 0x02 [6, 3, 0, 0xFF, 0x0F, 1]) [] ∧
      (rq 0x02 [6, 3, 0, 0xFF, 0x0F, 1]).sampleOffset + (rq 0x02 [6, 3, 0, 0xFF, 0x0F, 1]).sampleCount =
        4096) := by
  refine ⟨heads rfl (by decide), heads rfl (by decide), heads rfl (by decide),
    heads rfl (by decide), by decide⟩

/-- A digest of every kind, asked for by the panel. -/
def digestA (allRead : Bool) : Digest := ⟨.panelPort, 0b111111, 5, 16262, false, allRead⟩

/-- SETUP with the digest. -/
def digesting (allRead : Bool) : State := loaded.setMem { setA with digest := some (digestA allRead) }

theorem test_witness_SetDigestRule :
    (Heads (asked .showPort (rq 0x03 [63]) (digesting false)) .showPort .setDigest (rq 0x03 [63]) [] ∧
      (digesting false).mem.digest.isSome = true) ∧
    Heads (asked .showPort (rq 0x03 [0]) loaded) .showPort .setDigest (rq 0x03 [0]) [] ∧
      loaded.mem.digest = none ∧
    ({ setA with digest := some ⟨.panelPort, 0, 0, 0, false, false⟩ } : SetMemory).digest =
      some ⟨.panelPort, 0, 0, 0, false, false⟩ := by
  refine ⟨⟨heads rfl (by decide), rfl⟩, heads rfl (by decide), rfl, rfl⟩

theorem test_witness_DigestCompletes :
    (digesting true).live = true ∧ (digesting true).mem.digest = some (digestA true) ∧
      (digesting false).mem.digest = some (digestA false) ∧
      ((digesting true).port .panelPort).framesHeld < 12 ∧
      12 ≤ (((digesting true).setPort .panelPort { PortState.pinReset with
        outbound := List.replicate 12 (.notice (.mode .showMode)) }).port .panelPort).framesHeld := by
  decide

/-! ### Witnesses: the Scene Engine and the modes -/

theorem test_witness_GoAccepted :
    (Heads (asked .panelPort (rq 0x07 [1, 0, 3]) onStage) .panelPort .goSong (rq 0x07 [1, 0, 3]) [] ∧
      GoForm .panelPort (rq 0x07 [1, 0, 3]) (.goSong .panelPort) .goSong
        (.song ((rq 0x07 [1, 0, 3]).octetAt 0) ((rq 0x07 [1, 0, 3]).octetAt 1))
        ((rq 0x07 [1, 0, 3]).octetAt 2)) ∧
    (Heads (asked .showPort (rq 0x08 [1, 0]) (staged .ready .bar)) .showPort .goScene (rq 0x08 [1, 0]) [] ∧
      Resolves (staged .ready .bar) 1 (.scene 1) 0 1) ∧
    (Heads (asked .panelPort (rq 0x09 [2]) onStage) .panelPort .goNext (rq 0x09 [2]) [] ∧
      Resolves onStage 2 .next 0 1) ∧
    onStage.scene.mode = .showMode ∧ 1 < onStage.mem.header.setlistLength ∧
    1 < (onStage.mem.song 0).sceneCount ∧ 0 < (onStage.mem.song 1).sceneCount ∧
    onStage.rank (portOrigin .panelPort) = 2 := by
  refine ⟨⟨heads rfl (by decide), .song (by decide)⟩, ⟨heads rfl (by decide), .scene ⟨0, 0, 0⟩ 1 rfl⟩,
    ⟨heads rfl (by decide), .nextWithin 0 0 (by decide) (by decide)⟩, by decide⟩

theorem test_witness_GoRefused :
    Heads (asked .panelPort (rq 0x0A [4]) onStage) .panelPort .goPrev (rq 0x0A [4]) [] ∧
    decodeQuantize 4 = none ∧ (decodeQuantize 3).isSome = true ∧ loaded.scene.mode = .setupMode ∧
    (Heads (asked .panelPort (rq 0x0A [0]) onStage) .panelPort .goPrev (rq 0x0A [0]) [] ∧
      Unresolved onStage 2 .prev .atEnd) ∧
    (Heads (asked .panelPort (rq 0x08 [2, 0]) onStage) .panelPort .goScene (rq 0x08 [2, 0]) [] ∧
      Resolves onStage 2 (.scene 2) 0 2 ∧ (onStage.mem.song 0).sceneCount ≤ 2) ∧
    (Heads (asked .panelPort (rq 0x08 [0, 0]) onStage) .panelPort .goScene (rq 0x08 [0, 0]) [] ∧
      Resolves onStage 2 (.scene 0) 0 0 ∧ onStage.scene.current = some ⟨0, 0, 0⟩) ∧
    (Heads (asked .showPort (rq 0x08 [1, 0]) (staged .ready .bar)) .showPort .goScene (rq 0x08 [1, 0]) [] ∧
      (staged .ready .bar).rank (portOrigin .showPort) < (changeA .ready .bar).rank) := by
  refine ⟨heads rfl (by decide), by decide, by decide, by decide,
    ⟨heads rfl (by decide), .prevFirst (by decide)⟩,
    ⟨heads rfl (by decide), .scene ⟨0, 0, 0⟩ 2 rfl, by decide⟩,
    ⟨heads rfl (by decide), .scene ⟨0, 0, 0⟩ 0 rfl, by decide⟩, heads rfl (by decide), by decide⟩

theorem test_witness_CancelRule :
    Heads (asked .panelPort (rq 0x0B []) loaded) .panelPort .cancel (rq 0x0B []) [] ∧
    loaded.scene.mode = .setupMode ∧
    Heads (asked .panelPort (rq 0x0B []) onStage) .panelPort .cancel (rq 0x0B []) [] ∧
    onStage.scene.mode = .showMode ∧ onStage.scene.staged = none ∧
    Heads (asked .showPort (rq 0x0B []) (staged .preparing .bar)) .showPort .cancel (rq 0x0B []) [] ∧
    (staged .preparing .bar).rank (portOrigin .showPort) < 2 ∧
    Heads (asked .panelPort (rq 0x0B []) (staged .preparing .bar)) .panelPort .cancel (rq 0x0B []) [] ∧
    2 ≤ (staged .preparing .bar).rank (portOrigin .panelPort) := by
  refine ⟨heads rfl (by decide), rfl, heads rfl (by decide), rfl, rfl, heads rfl (by decide), by decide,
    heads rfl (by decide), by decide⟩

/-- `s` with the frozen mark set. -/
def frozen (s : State) : State := s.setScene { s.scene with frozen := true }

theorem test_witness_FreezeAndThaw :
    Heads (asked .panelPort (rq 0x0C []) onStage) .panelPort .freeze (rq 0x0C []) [] ∧
    Heads (asked .panelPort (rq 0x0C []) loaded) .panelPort .freeze (rq 0x0C []) [] ∧
    Heads (asked .showPort (rq 0x0D []) onStage) .showPort .thaw (rq 0x0D []) [] ∧
    onStage.scene.frozen = false ∧
    Heads (asked .showPort (rq 0x0D []) (frozen (staged .ready .beat))) .showPort .thaw (rq 0x0D []) [] ∧
    (frozen (staged .ready .beat)).scene.frozen = true ∧ (changeA .ready .beat).quantize ≠ .immediate ∧
    Heads (asked .showPort (rq 0x0D []) (frozen (staged .ready .immediate))) .showPort .thaw (rq 0x0D []) [] ∧
    (frozen (staged .ready .immediate)).scene.staged = some (changeA .ready .immediate) := by
  refine ⟨heads rfl (by decide), heads rfl (by decide), heads rfl (by decide), rfl, heads rfl (by decide),
    rfl, by decide, heads rfl (by decide), rfl⟩

theorem test_witness_StepRule :
    Heads (asked .panelPort (rq 0x0E []) loaded) .panelPort .step (rq 0x0E []) [] ∧
    Heads (asked .panelPort (rq 0x0E []) (staged .preparing .bar)) .panelPort .step (rq 0x0E []) [] ∧
    Heads (asked .panelPort (rq 0x0E []) (staged .ready .bar)) .panelPort .step (rq 0x0E []) [] ∧
    (staged .ready .bar).scene.staged = some (changeA .ready .bar) := by
  refine ⟨heads rfl (by decide), heads rfl (by decide), heads rfl (by decide), rfl⟩

theorem test_witness_TakeEffects : tableBounded (staged .ready .beat) := by unfold tableBounded; decide

/-- The instrument side with the note of `sounding` and O0 sending. -/
def programmed (x : ChanRec) : Rig :=
  ((sounding false).rig.setOut 0 { OutPort.pinReset with
    urgent := [.noteOff 0 61], transmit := .sending .urgent 960#32 }).setChan 0 0 x

theorem test_witness_TakeEffects_settings :
    (((programmed ⟨some 5, some 300, none, 1, 0, none, false, none⟩).chan 0 0).program = some 5 ∧
      ((programmed ⟨some 5, some 300, none, 1, 0, none, false, none⟩).chan 0 0).pending = none) ∧
    (((programmed ChanRec.clear).chan 0 0).program ≠ some 5 ∧ ((programmed ChanRec.clear).chan 0 0).sounding = 0 ∧
      ((programmed ChanRec.clear).out 0).enabled = true ∧ ((programmed ChanRec.clear).out 0).urgent.length < 48 ∧
      ((programmed ChanRec.clear).out 0).transmit = .sending .urgent 960#32) ∧
    (((programmed ChanRec.clear).setOut 0 { OutPort.pinReset with enabled := false }).out 0).enabled = false ∧
    (((programmed { ChanRec.clear with sounding := 1 }).chan 0 0).sounding ≠ 0 ∧
      ((programmed { ChanRec.clear with sounding := 1 }).chan 0 3).sounding = 0) ∧
    (((programmed { ChanRec.clear with sounding := 1 }).chan 0 0).sounding =
        sentLegs (programmed { ChanRec.clear with sounding := 1 }) 0 0 ∧
      ((allLegs (programmed { ChanRec.clear with sounding := 1 })).map fun l => l.id).Nodup ∧
      ∀ e ∈ (programmed { ChanRec.clear with sounding := 1 }).table, e.generation ≠ 2) := by decide

/-- An idle line for the immediate case, and a disabled output for the flip. -/
theorem test_witness_TakeEffects_lines :
    ((onStage.rig.chan 0 0).sounding = 0 ∧ (onStage.rig.chan 0 0).program = none ∧
      (onStage.rig.out 0).enabled = true ∧ (onStage.rig.out 0).urgent.length < 48 ∧
      (onStage.rig.out 0).transmit = .idle) ∧
    ∀ r, r = (programmed { ChanRec.clear with sounding := 1 }).setOut 0 { OutPort.pinReset with enabled := false } →
      (r.out 0).enabled = false ∧ (r.chan 0 0).sounding ≠ 0 ∧ (r.chan 0 0).program = none ∧
        (r.chan 0 3).sounding = 0 := by
  refine ⟨by decide, ?_⟩
  rintro r rfl
  decide

theorem test_witness_PreparationCompletes :
    (staged .preparing .immediate).live = true ∧
      (staged .preparing .immediate).scene.staged = some (changeA .preparing .immediate) ∧
      (staged .preparing .immediate).mem.checkRun (changeA .preparing .immediate).copy = none := by decide

theorem test_witness_PreparationFails :
    1024 < ({ sceneA with layerFirst := 1023, layerCount := 2 } : Scene).layerFirst + 2 ∧
      ({ sceneA with layerFirst := 1023 } : Scene).layerFirst + 1 ≤ 1024 ∧
      setA.checkRun { sceneA with layerFirst := 1 } = some (.noInputs, 0) ∧
      ({ changeA .preparing .beat with
        copy := { sceneA with layerFirst := 1 } } : Change).preparation = .preparing := by decide

theorem test_witness_PreparationFails_reasons :
    FailsFor { setA with layers := [(0, { layerA with sourceChannel := 2 }), (1, layerA)] } 0 1 .order ∧
    FailsFor { setA with layers := [(0, { layerA with keyLow := 1 }), (1, layerA)] } 0 1 .order ∧
    FailsFor setA 1 0 .noInputs ∧
    FailsFor { setA with layers := [(0, { layerA with outputs := 0 })] } 0 0 .noOutputs ∧
    entryPasses setA 0 0 := by
  refine ⟨.order ?_, .order ?_, .noInputs ?_ (by decide), .noOutputs ?_ (by decide) (by decide) (by decide), ?_⟩
  · unfold entryDisordered; decide
  · unfold entryDisordered; decide
  · unfold entryDisordered; decide
  · unfold entryDisordered; decide
  · unfold entryPasses; decide

theorem test_witness_EnterShowRule :
    Heads (asked .panelPort (rq 0x04 []) onStage) .panelPort .enterShow (rq 0x04 []) [] ∧
    (Heads (asked .panelPort (rq 0x04 []) State.reset) .panelPort .enterShow (rq 0x04 []) [] ∧
      State.reset.mem.header.setlistLength = 0) ∧
    (Heads (asked .panelPort (rq 0x04 []) loaded) .panelPort .enterShow (rq 0x04 []) [] ∧
      setupIdle (asked .panelPort (rq 0x04 []) loaded) ∧ 0 < loaded.mem.header.setlistLength ∧
      0 < (loaded.mem.song 0).sceneCount) ∧
    (({ setA with songs := [] } : SetMemory).song 0).sceneCount = 0 := by
  refine ⟨heads rfl (by decide), ⟨heads rfl (by decide), rfl⟩,
    ⟨heads rfl (by decide), by unfold setupIdle; decide, by decide, by decide⟩, by decide⟩

theorem test_witness_EnterSetupRule :
    Heads (asked .panelPort (rq 0x05 []) loaded) .panelPort .enterSetup (rq 0x05 []) [] ∧
    Heads (asked .panelPort (rq 0x05 []) (sounding true)) .panelPort .enterSetup (rq 0x05 []) [] ∧
    tableBounded (asked .panelPort (rq 0x05 []) (sounding true)) := by
  refine ⟨heads rfl (by decide), heads rfl (by decide), by unfold tableBounded; decide⟩

theorem test_witness_RestartRule :
    Heads (asked .showPort (rq 0x06 []) (sounding true)) .showPort .restart (rq 0x06 []) [] :=
  heads rfl (by decide)

/-- `s` with a phase and an advance owed to it. -/
def owing (s : State) (phase : BitVec 32) (inc : Nat) : State :=
  s.setTempo { s.tempo with phase := phase, phaseOwed := some inc }

theorem test_witness_BeatBoundaryRule :
    (owing onStage 4294967295#32 8590).live = true ∧
      (owing onStage 4294967295#32 8590).tempo.phaseOwed = some 8590 ∧
      2 ^ 32 ≤ (owing onStage 4294967295#32 8590).tempo.phase.toNat + 8590 ∧
      (owing onStage 4294967295#32 8590).tempo.state ≠ .holdover ∧ onStage.scene.staged = none ∧
      (changeA .ready .bar).quantize = .bar ∧ onStage.scene.position.beat + 1 < onStage.scene.meter ∧
      (owing (staged .ready .beat) 4294967295#32 8590).scene.staged = some (changeA .ready .beat) := by
  decide

/-- The change of `staged` is taken at a beat, and at a bar only when one is reached. -/
theorem test_witness_BeatBoundaryRule_takes :
    TakesAt (owing (staged .ready .beat) 4294967295#32 8590) (changeA .ready .beat) ∧
      TakesAt (((staged .ready .bar).setScene { (staged .ready .bar).scene with position := ⟨some 0, 0, 3, false⟩ }))
        (changeA .ready .bar) ∧
      (∀ c, ¬TakesAt (owing onStage 4294967295#32 8590) c) ∧ ∀ c, ¬TakesAt (staged .ready .bar) c := by
  refine ⟨⟨rfl, rfl, rfl, .inl rfl⟩, ⟨rfl, rfl, rfl, .inr ⟨rfl, .inr (by decide)⟩⟩, ?_, ?_⟩
  · rintro c ⟨⟨⟩, -⟩
  · rintro c ⟨⟨⟩, -, -, h⟩
    exact absurd h (by decide)

/-- R113, R148: a song change taken at a boundary is handed off at the position it left. -/
theorem test_beat_takes :
    let t := ran .beatBoundary (owing (staged .ready .beat) 4294967295#32 8590)
    t.scene.position = ⟨some 1, 0, 0, false⟩ ∧ t.scene.staged = none ∧
      t.tempo.lineHighUntil = some 48000#32 := by decide

/-- HOLDOVER at its beat `beats` plus one, in count-in's last beat of song 0. -/
def holding (beats : Nat) : State :=
  let s := onStage.setScene { onStage.scene with position := ⟨some 0, -1, 3, false⟩ }
  owing (s.setTempo { s.tempo with
    source := .sync .one, state := .holdover, reference := { Reference.clear with holdoverBeats := beats } })
    4294967295#32 8590

theorem test_witness_BeatBoundaryRule_holdover :
    lastHoldoverBeat (holding 15) ∧ ¬lastHoldoverBeat (holding 14) ∧ (holding 14).tempo.state = .holdover ∧
      (holding 15).scene.staged = none ∧ (holding 15).scene.mode = .showMode ∧
      (holding 15).scene.position.bar = -1 ∧ (ran .beatBoundary (holding 15)).scene.position.bar = 0 ∧
      (ran .beatBoundary (holding 15)).tempo.state = .acquiring := by
  unfold lastHoldoverBeat; decide

theorem test_witness_ClickBoundaryRule :
    let s := (owing onStage 2147483640#32 8590).setClick { onStage.click with pattern := patternA }
    s.live = true ∧ s.tempo.phaseOwed = some 8590 ∧ s.tempo.phase.toNat + 8590 < 2 ^ 32 ∧
      s.tempo.clickIndex < (s.tempo.phase.toNat + 8590) * s.click.pattern.division / 2 ^ 32 := by decide

/-! ### Witnesses: the Tempo Engine and stage time -/

theorem test_witness_TempoSourceRule :
    Heads (asked .panelPort (rq 0x0F [4, 0, 255]) loaded) .panelPort .tempoSource (rq 0x0F [4, 0, 255]) [] ∧
    Heads (asked .panelPort (rq 0x0F [1, 4, 255]) loaded) .panelPort .tempoSource (rq 0x0F [1, 4, 255]) [] ∧
    Heads (asked .panelPort (rq 0x0F [0, 0, 5]) loaded) .panelPort .tempoSource (rq 0x0F [0, 0, 5]) [] ∧
    Heads (asked .panelPort (rq 0x0F [2, 24, 4]) loaded) .panelPort .tempoSource (rq 0x0F [2, 24, 4]) [] ∧
    (rq 0x0F [2, 24, 4]).octetAt 1 = PulseRate.twentyFour.perBeat ∧
    Heads (asked .panelPort (rq 0x0F [1, 3, 255]) loaded) .panelPort .tempoSource (rq 0x0F [1, 3, 255]) [] ∧
    Heads (asked .panelPort (rq 0x0F [3, 0, 0]) loaded) .panelPort .tempoSource (rq 0x0F [3, 0, 0]) [] := by
  refine ⟨heads rfl (by decide), heads rfl (by decide), heads rfl (by decide), heads rfl (by decide),
    by decide, heads rfl (by decide), heads rfl (by decide)⟩

/-- `s` with a source and a source state. -/
def sourced (s : State) (src : Source) (st : SourceState) : State :=
  s.setTempo { s.tempo with source := src, state := st }

theorem test_witness_TempoSetAndTrim :
    (Heads (asked .panelPort (rq 0x10 (octetsLE 2 1999)) loaded) .panelPort .tempoSet
        (rq 0x10 (octetsLE 2 1999)) [] ∧ fieldLE (octetsLE 2 1999) 0 2 < 2000) ∧
    (Heads (asked .panelPort (rq 0x10 (octetsLE 2 30000)) (sourced loaded .mark .acquiring)) .panelPort
        .tempoSet (rq 0x10 (octetsLE 2 30000)) [] ∧ fieldLE (octetsLE 2 30000) 0 2 = 30000) ∧
    (Heads (asked .panelPort (rq 0x10 (octetsLE 2 2000)) loaded) .panelPort .tempoSet
        (rq 0x10 (octetsLE 2 2000)) [] ∧ loaded.tempo.state = .free) ∧
    (Heads (asked .showPort (rq 0x11 (octetsLE 2 65335)) loaded) .showPort .trim
        (rq 0x11 (octetsLE 2 65335)) [] ∧ signedField (fieldLE (octetsLE 2 65335) 0 2) 16 = -201) ∧
    (Heads (asked .showPort (rq 0x11 (octetsLE 2 65336)) loaded) .showPort .trim
        (rq 0x11 (octetsLE 2 65336)) [] ∧ signedField (fieldLE (octetsLE 2 65336) 0 2) 16 = -200) := by
  refine ⟨⟨heads rfl (by decide), by decide⟩, ⟨heads rfl (by decide), by decide⟩,
    ⟨heads rfl (by decide), by decide⟩, ⟨heads rfl (by decide), by decide⟩, heads rfl (by decide),
    by decide⟩

/-- `s` with a transfer of idle fill at port `p`. -/
def transferring (p : Port) (s : State) : State :=
  s.setPort p { s.port p with transfer := .inTransfer [] .idleFill }

/-- The panel port in a transfer of its one queued notice. -/
def reading : State :=
  loaded.setPort .panelPort { PortState.pinReset with
    transfer := .inTransfer [] .queuedFrame, outbound := [.notice (.mode .showMode)] }

theorem test_witness_TimedRequestsAnswered :
    Heads (asked .panelPort ⟨3, 0x12, 7, [], some .source⟩ loaded) .panelPort .tap
      ⟨3, 0x12, 7, [], some .source⟩ [] ∧
    Heads (asked .showPort ⟨4, 0x13, 7, [1], some .done⟩ loaded) .showPort .beatMark
      ⟨4, 0x13, 7, [1], some .done⟩ [] ∧
    ((transferring .panelPort loaded).port .panelPort).transfer = .inTransfer [] .idleFill ∧
    ((reading.port .panelPort).transfer = .inTransfer [] .queuedFrame ∧
      (reading.port .panelPort).outbound = .notice (.mode .showMode) :: [] ∧
      (Frame.notice (.mode .showMode)).octets.length ≤ ([] ++ [3, 0x12, 9] : List Byte).length) ∧
    ((transferring .panelPort loaded).port .panelPort).requests.length < 4 ∧
    ([] ++ [3, 0x12, 9, 0] : List Byte) = 3 :: 0x12 :: 9 :: [0] ∧
    ([] ++ [4, 0x13, 9, 1] : List Byte) = 4 :: 0x13 :: 9 :: 1 :: [] := by
  refine ⟨heads rfl (by decide), heads rfl (by decide), rfl, ⟨rfl, rfl, by decide⟩, by decide, rfl, rfl⟩

/-- MARK in LOCKED at a phase and a position. -/
def marked (phase : BitVec 32) (position : Position) : State :=
  let s := onStage.setScene { onStage.scene with position := position }
  s.setTempo { s.tempo with source := .mark, state := .locked, phase := phase }

theorem test_witness_DownbeatRealigns :
    loaded.tempo.source ≠ .mark ∧ (marked 0 ⟨some 0, 0, 0, false⟩).tempo.source = .mark ∧
      (marked 4294967295#32 ⟨some 0, 0, 1, false⟩).pulse.tempo.phase.toInt < 0 ∧
      0 ≤ (marked 0 ⟨some 0, 0, 0, false⟩).pulse.tempo.phase.toInt ∧
      (marked 0 ⟨some 0, 0, 0, false⟩).pulse.scene.position.beat = 0 ∧
      0 ≤ (marked 2147483647#32 ⟨some 0, -1, 2, false⟩).pulse.tempo.phase.toInt ∧
      (marked 2147483647#32 ⟨some 0, -1, 2, false⟩).pulse.scene.position.beat ≠ 0 := by decide

/-- FREE at stage time `now` with a last tap at `last`. -/
def tapped (now last : StageTime) (taps : List Nat) : State :=
  (loaded.setTime now).setTempo { loaded.tempo with taps := taps, lastTap := some last }

theorem test_witness_TapCases :
    (sourced loaded .mark .locked).tempo.state ≠ .free ∧ loaded.tempo.lastTap = none ∧
      3000000 < interval 0 (tapped 3000001#32 0 []).time ∧ interval 0 (tapped 199999#32 0 []).time < 200000 ∧
      (200000 ≤ interval 0 (tapped 200000#32 0 [500000]).time ∧
        interval 0 (tapped 3000000#32 0 [500000]).time ≤ 3000000 ∧
        (tapped 200000#32 0 [500000]).tempo.taps.length ≤ 4) := by decide

/-- The joining tap with a change READY in the slot, at a phase below and at half a beat. -/
def tappedStaged (phase : BitVec 32) : State :=
  ((staged .ready .beat).setTime 500000#32).setTempo
    { loaded.tempo with taps := [500000], lastTap := some 0, phase := phase }

theorem test_witness_TapCases_snap :
    (tappedStaged 2147483647#32).tempo.phase.toNat < 2 ^ 31 ∧ 2 ^ 31 ≤ (tappedStaged 2147483648#32).tempo.phase.toNat ∧
      (tappedStaged 2147483648#32).tempo.state = .free ∧
      interval 0 (tappedStaged 2147483648#32).time = 500000 ∧
      TakesAt (tappedStaged 2147483648#32) (changeA .ready .beat) :=
  ⟨by decide, by decide, rfl, by decide, rfl, rfl, rfl, .inl rfl⟩

/-- LOCKED on the sync input at one pulse to the beat, 500,000 microseconds after a reference beat. -/
def following (base outliers : Nat) : State :=
  (loaded.setTime 500000#32).setTempo
    { loaded.tempo with
      source := .sync .one, state := .locked, base := base
      reference := ⟨some 0, some 0, none, 0, outliers, some 1000000#32, 0⟩ }

theorem test_witness_PulsesCounted :
    ((sourced loaded (.sync .four) .locked).setReference { Reference.clear with
        pulses := some 2 }).tempo.reference.pulses = some 2 ∧ 2 + 1 < PulseRate.four.perBeat ∧
      (sourced loaded (.clock 3) .acquiring).tempo.reference.pulses = none ∧
      (sourced loaded (.clock 3) .acquiring).tempo.source ≠ .clock 2 ∧
      loaded.pins.syncHigh = false ∧ (∀ rate, loaded.tempo.source ≠ .sync rate) ∧
      (sourced loaded (.clock 3) .locked).tempo.source = .clock 3 ∧
      (sourced loaded (.clock 3) .locked).tempo.state ≠ .acquiring := by
  refine ⟨rfl, by decide, rfl, by decide, rfl, fun rate h => (by cases h), rfl, by decide⟩

/-- A state `i` microseconds after a reference beat, in a source state, with a previous measurement, both runs
`run` and a phase. -/
def listening (st : SourceState) (i : BitVec 32) (previous : Option Nat) (run : Nat) (phase : BitVec 32) : State :=
  (loaded.setTime i).setTempo
    { loaded.tempo with
      source := .sync .one, state := st, phase := phase
      reference := ⟨some 0, some 0, previous, run, run, some 1000000#32, 3⟩ }

/-- The same with the pulse count AWAITING. -/
def awaiting (st : SourceState) : State :=
  loaded.setTempo { loaded.tempo with source := .sync .one, state := st, reference := Reference.clear }

theorem listening_beat (st : SourceState) (i : BitVec 32) (previous : Option Nat) (run : Nat)
    (phase : BitVec 32) : RefBeat (listening st i previous run phase) (some i.toNat) :=
  ⟨1, rfl, ⟨0, rfl, by decide⟩, 0, rfl, by simp [listening, State.setTempo, State.setTime]⟩

theorem test_witness_ReferenceBeatFollowed :
    RefBeat (awaiting .acquiring) none ∧ RefBeat (awaiting .locked) none ∧ RefBeat (awaiting .holdover) none ∧
    RefBeat (listening .acquiring 199999#32 none 0 0) (some 199999) ∧
    RefBeat (listening .holdover 3000001#32 none 2 0) (some 3000001) ∧
    RefBeat (listening .locked 200000#32 none 1 0) (some 200000) ∧
    Measures 200000 30000 ∧ Measures 3000000 2000 ∧ Measures 500000 12000 := by
  refine ⟨⟨1, rfl, rfl⟩, ⟨1, rfl, rfl⟩, ⟨1, rfl, rfl⟩, listening_beat .., listening_beat .., listening_beat .., ?_⟩
  unfold Measures; decide

/-- A state half a second after a reference beat, with `pulses` counted from the source since. -/
def clocked (src : Source) (pulses : Nat) : State :=
  (loaded.setTime 500000#32).setTempo
    { loaded.tempo with
      source := src, state := .locked, reference := ⟨some pulses, some 0, none, 0, 0, some 1000000#32, 0⟩ }

theorem test_witness_ReferenceBeatFollowed_sources :
    RefBeat (clocked (.clock 3) 23) (some 500000) ∧ RefBeat (clocked (.sync .twentyFour) 23) (some 500000) ∧
    RefBeat (clocked (.sync .two) 1) (some 500000) ∧ RefBeat (clocked .mark 0) (some 500000) ∧
    (clocked .mark 0).tempo.source = .mark ∧
    PulseArrives (clocked (.clock 3) 23) (clocked (.clock 3) 23) (.clock 3) ∧
    PulseArrives (clocked (.sync .two) 1)
      ((clocked (.sync .two) 1).setPins { (clocked (.sync .two) 1).pins with syncHigh := true }) .syncEdge :=
  ⟨⟨24, rfl, ⟨23, rfl, by decide⟩, 0, rfl, by decide⟩, ⟨24, rfl, ⟨23, rfl, by decide⟩, 0, rfl, by decide⟩,
    ⟨2, rfl, ⟨1, rfl, by decide⟩, 0, rfl, by decide⟩, ⟨1, rfl, ⟨0, rfl, by decide⟩, 0, rfl, by decide⟩, rfl,
    .inr ⟨3, rfl, rfl, rfl⟩, .inl ⟨rfl, ⟨_, rfl⟩, rfl, rfl⟩⟩

theorem test_witness_ReferenceBeatFollowed_windows :
    (Near 3 12000 11651 ∧ ¬Near 3 12000 11650) ∧ Near 12 12000 10715 ∧ ¬Near 12 12000 10714 ∧
      (listening .acquiring 500000#32 (some 11651) 2 0).tempo.reference.previous = some 11651 ∧
      (listening .acquiring 500000#32 (some 11651) 2 0).tempo.phase.toNat < 2 ^ 31 ∧
      2 ^ 31 ≤ (listening .acquiring 500000#32 (some 11651) 2 2147483648#32).tempo.phase.toNat := by
  unfold Near; decide

theorem test_witness_ReferenceBeatFollowed_outliers :
    IsOutlier 12000 199999 ∧ IsOutlier 12000 3000001 ∧ IsOutlier 10714 500000 := by
  refine ⟨.inl (.inl (by decide)), .inl (.inr (by decide)), .inr ⟨12000, ?_⟩⟩
  unfold Measures Near; decide

/-- R132, R136, R138: the third agreement locks, the third outlier returns to ACQUIRING, and a beat within the
window ends HOLDOVER. -/
theorem test_source_states :
    (ran .syncEdge (listening .acquiring 500000#32 (some 11990) 2 0)).tempo.state = .locked ∧
      (ran .syncEdge (listening .locked 400000#32 none 2 0)).tempo.state = .acquiring ∧
      (ran .syncEdge (listening .holdover 500000#32 none 1 0)).tempo.state = .locked := by decide

theorem test_witness_HoldoverExpires :
    ((following 12000 0).setTime 1000000#32).tempo.reference.holdoverDeadline = some 1000000#32 ∧
      (((following 12000 0).setTime 1000000#32).time - 1000000#32).toNat < 2 ^ 31 ∧
      2 ^ 31 ≤ (((following 12000 0).setTime 999999#32).time - 1000000#32).toNat ∧
      loaded.tempo.state ≠ .locked := by decide

/-- O0 with a note-off on the line until stage time 960. -/
def sending (now : StageTime) : State :=
  (onStage.setTime now).setRig (onStage.rig.setOut 0
    { OutPort.pinReset with
      urgent := [.noteOff 0 60, .noteOff 0 61], transmit := .sending .urgent 960#32 })

/-- At the present stage time every deadline of the part lies ahead: a line sends until 960, a preparation begun
at 0 ends at 2000, the oldest request is answered at 200, and a spill expires at 1000. -/
def underway : State :=
  let s := asked .panelPort (rq 0x1D []) ((staged .preparing .bar).setRig
    ((sending 0).rig.setChan 0 0 { ChanRec.clear with pending := some ⟨⟨7, none⟩, 2, 1000#32⟩ }))
  s.setTempo { s.tempo with lineHighUntil := some 100#32 }

theorem test_witness_StageTickAdvances :
    NothingDue (digesting false) ∧ (digesting false).live = true ∧ loaded.mem.digest = none ∧
      setA.digestWord 0b111111 0 = some setA.header.words.head! ∧
      loaded.tempo.phase.toNat + loaded.tempo.increment < 2 ^ 32 ∧
      2 ^ 32 ≤ (owing loaded 4294967295#32 0).tempo.phase.toNat + loaded.tempo.increment := by
  refine ⟨⟨?_, nofun, ?_, nofun, fun p => by cases p <;> nofun, ?_, nofun, nofun, rfl⟩, rfl, rfl, by decide,
    by decide, by decide⟩
  · intro o q last h
    have hq : ∀ o, ((digesting false).rig.out o).transmit = .idle := by decide
    rw [hq o] at h; cases h
  · intro o c x h
    have hq : ∀ o c, ((digesting false).rig.chan o c).pending = none := by decide
    rw [hq o c] at h; cases h
  · rintro d ⟨⟩; rfl

theorem test_witness_StageTickAdvances_underway :
    NothingDue underway ∧ underway.live = true ∧ (underway.rig.out 0).transmit = .sending .urgent 960#32 ∧
      (underway.rig.chan 0 0).pending.isSome = true ∧ (underway.port .panelPort).requests ≠ [] ∧
      underway.scene.staged = some (changeA .preparing .bar) := by
  refine ⟨⟨?_, ?_, ?_, ?_, ?_, nofun, nofun, nofun, rfl⟩, rfl, rfl, rfl, by decide, rfl⟩
  · intro o q last h
    have hq : ∀ o, (underway.rig.out o).transmit = .idle ∨
        (underway.rig.out o).transmit = .sending .urgent 960#32 := by decide
    rcases hq o with h' | h' <;> rw [h'] at h <;> cases h
    decide
  · rintro d ⟨⟩; decide
  · intro o c x h
    have hq : ∀ o c, (underway.rig.chan o c).pending = none ∨
        (underway.rig.chan o c).pending = some ⟨⟨7, none⟩, 2, 1000#32⟩ := by decide
    rcases hq o c with h' | h' <;> rw [h'] at h <;> cases h
    decide
  · rintro c ⟨⟩ _; decide
  · intro p r rest h
    cases p
    · decide
    · cases h

/-! ### Witnesses: outputs, records, panic -/

/-- O0 enabled with two PROGRAMs of channel 1 behind the event on its line, and O1 disabled, owing an
ALL-NOTES-OFF and a program. -/
def owingOutputs : State :=
  let r := (onStage.rig.setOut 0 { OutPort.pinReset with
    urgent := [.noteOff 0 60, .program 0 ⟨5, none⟩ false, .program 0 ⟨6, none⟩ true],
    transmit := .sending .urgent 960#32 }).setOut 1 { OutPort.pinReset with enabled := false, level := 1 }
  onStage.setRig (r.setChan 1 2 { ChanRec.clear with panicOwed := true, held := some ⟨9, none⟩ })

theorem test_witness_OutputEnableRule :
    Heads (asked .panelPort (rq 0x14 [0x3E]) owingOutputs) .panelPort .outputEnable (rq 0x14 [0x3E]) [] ∧
      (∀ o, (owingOutputs.rig.out o).enabled = false → (owingOutputs.rig.out o).urgent.length ≤ 1) ∧
      (∀ o, (owingOutputs.rig.out o).enabled = false → (owingOutputs.rig.out o).transmit = .idle →
        (owingOutputs.rig.out o).urgent = []) ∧
      ((owingOutputs.rig.out 0).enabled = true ∧ (BitVec.ofNat 6 0x3E).getLsbD 0 = false) ∧
      ((owingOutputs.rig.out 1).enabled = false ∧ (BitVec.ofNat 6 0x3E).getLsbD 1 = true) ∧
      ((owingOutputs.rig.out 2).enabled = true ∧ (BitVec.ofNat 6 0x3E).getLsbD 2 = true) ∧
      heldAfterPurge (owingOutputs.rig.out 0) (owingOutputs.rig.chan 0 0) 0 = some ⟨6, none⟩ ∧
      owedEvents owingOutputs.rig 1 = [.allNotesOff 2, .program 2 ⟨9, none⟩ false] := by
  refine ⟨heads rfl (by decide), by decide, by decide, ⟨rfl, rfl⟩, ⟨rfl, rfl⟩, ⟨rfl, rfl⟩, by decide, by decide⟩

/-- R39: of two purged PROGRAMs of one channel the one decided later is held. -/
theorem test_disable_holds_the_later :
    ((owingOutputs.rig.disable 0).chan 0 0).held = some ⟨6, none⟩ ∧
      ((owingOutputs.rig.disable 0).out 0).urgent = [.noteOff 0 60] := by decide

theorem test_witness_LevelsSet :
    Heads (asked .panelPort (rq 0x15 [6, 1]) loaded) .panelPort .criticalLevel (rq 0x15 [6, 1]) [] ∧
    Heads (asked .panelPort (rq 0x15 [5, 0]) loaded) .panelPort .criticalLevel (rq 0x15 [5, 0]) [] ∧
    Heads (asked .panelPort (rq 0x15 [5, 48]) loaded) .panelPort .criticalLevel (rq 0x15 [5, 48]) [] ∧
    Heads (asked .panelPort (rq 0x17 [0, 0x80]) loaded) .panelPort .clickLevel (rq 0x17 [0, 0x80]) [] ∧
    Heads (asked .panelPort (rq 0x17 [0xFF, 0x7F]) loaded) .panelPort .clickLevel (rq 0x17 [0xFF, 0x7F]) [] ∧
    Heads (asked .showPort (rq 0x18 [1]) loaded) .showPort .clickMute (rq 0x18 [1]) [] := by
  refine ⟨heads rfl (by decide), heads rfl (by decide), heads rfl (by decide), heads rfl (by decide),
    heads rfl (by decide), heads rfl (by decide)⟩

theorem test_witness_PanicRule :
    Heads (asked .showPort (rq 0x16 []) (sounding true)) .showPort .panic (rq 0x16 []) [] ∧
      loaded.pins.panicLow = false ∧ (loaded.setPins { loaded.pins with panicLow := true }).live = true := by
  refine ⟨heads rfl (by decide), rfl, rfl⟩

theorem test_witness_PanicRule_reports :
    (sounding true).rig.desk.panelPort.outbound = [] ∧
      (ran .panicLineEdge (sounding true)).rig.desk.showPort.outbound = [.notice (.panic .line)] ∧
      ((ran .panicLineEdge (sounding true)).rig.out 0).urgent = allChans.map Urgent.allNotesOff := by
  decide +kernel

theorem test_witness_TransmissionCompletes :
    ((sending 960#32).rig.out 0).transmit = .sending .urgent 960#32 ∧
      ((sending 960#32).time - 960#32).toNat < 2 ^ 31 ∧
      2 ^ 31 ≤ ((sending 959#32).time - 960#32).toNat ∧
      (∀ c, ((sending 960#32).rig.chan 0 c).panicOwed = false ∧ ((sending 960#32).rig.chan 0 c).held = none) ∧
      ((sending 960#32).rig.out 0).urgent = .noteOff 0 60 :: [.noteOff 0 61] := by decide

/-- `sending` with a program held and an ALL-NOTES-OFF owed on channel 1 of O0. -/
def owed : State :=
  (sending 960#32).setRig ((sending 960#32).rig.setChan 0 0
    { ChanRec.clear with panicOwed := true, held := some ⟨5, none⟩ })

theorem test_witness_TransmissionCompletes_settles :
    LineLeaves (owed.rig.out 0) .urgent [.noteOff 0 61] [] ∧ (owed.rig.out 0).enabled = true ∧
      owedEvents owed.rig 0 = [.allNotesOff 0, .program 0 ⟨5, none⟩ false] ∧
      [Urgent.noteOff 0 61].length + (owedEvents owed.rig 0).length ≤ 48 ∧
      LineLeaves { OutPort.pinReset with bulk := [⟨.pressure, 0, 5, some 7⟩] } .bulk []
        [⟨.pressure, 0, 7, none⟩] := by
  refine ⟨.inl ⟨rfl, ⟨_, rfl⟩, rfl⟩, rfl, by decide, by decide, .inr ⟨rfl, rfl, _, _, rfl, rfl⟩⟩

/-- O0 at the end of a transmission, 24 urgent events behind it, the second of them a note-on of leg 0, with an
ALL-NOTES-OFF and a program owed on every record. -/
def owingAll : State :=
  (sounding false).setTime 960#32 |>.setRig
    { (sounding false).rig.setOut 0 { OutPort.pinReset with
        urgent := .noteOff 0 1 :: .noteOff 0 2 :: .noteOn 0 60 100 0 :: List.replicate 22 (.noteOff 0 60)
        transmit := .sending .urgent 960#32 } with
      records := Vector.replicate 96 { ChanRec.clear with panicOwed := true, held := some ⟨5, none⟩ } }

theorem test_witness_TransmissionCompletes_full :
    LineLeaves (owingAll.rig.out 0) .urgent
        (.noteOff 0 2 :: .noteOn 0 60 100 0 :: List.replicate 22 (.noteOff 0 60)) [] ∧
      (owingAll.rig.out 0).enabled = true ∧ (owingAll.rig.out 0).urgent.length = 25 ∧
      (owingAll.rig.out 0).transmit = .sending .urgent 960#32 ∧ owingAll.time = 960#32 ∧
      (∀ x c, (owingAll.rig.chan x c).pending = none) ∧ ((allLegs owingAll.rig).map fun l => l.id).Nodup ∧
      noteOnsIn ((owingAll.rig.out 0).urgent.drop 2) = [(0, 0)] ∧ (owedEvents owingAll.rig 0).length = 32 := by
  refine ⟨.inl ⟨rfl, ⟨_, rfl⟩, rfl⟩, rfl, rfl, rfl, rfl, ?_, ?_, rfl, ?_⟩
  · intro x c; simp [owingAll, Rig.chan, State.setRig, ChanRec.clear]
  · decide
  · decide

/-- O0 sending, with 48 urgent events: `first`, a note-on of leg 9, and note-offs. -/
def crowded (first : Urgent) : Rig :=
  onStage.rig.setOut 0 { OutPort.pinReset with
    urgent := first :: .noteOn 0 60 100 9 :: List.replicate 46 (.noteOff 0 60)
    transmit := .sending .urgent 960#32 }

theorem test_witness_QueueOffers :
    ((crowded (.noteOff 0 1)).out 0).transmit = .sending .urgent 960#32 ∧
      (fullFor ((crowded (.noteOff 0 1)).out 0) (.noteOff 0 2) ∧ ¬fullFor ((sending 0).rig.out 0) (.noteOff 0 2) ∧
        fullFor { OutPort.pinReset with urgent := List.replicate 32 (.noteOn 0 60 100 9) } (.noteOn 0 60 100 10)) ∧
      OldestNoteOn ((crowded (.noteOn 0 1 1 8)).out 0) [.noteOn 0 1 1 8] 0 9 (List.replicate 46 (.noteOff 0 60)) ∧
      (∀ x ∈ ((crowded (.noteOn 0 1 1 8)).out 0).urgent.drop 2, x.isNoteOn = false) ∧
      ((crowded (.noteOff 0 1)).setOut 0 { OutPort.pinReset with enabled := false }).desk =
        (crowded (.noteOff 0 1)).desk := by
  refine ⟨rfl, ?_, ⟨⟨60, 100, rfl⟩, by decide, by decide⟩, by decide, rfl⟩
  unfold fullFor; decide

/-- An output that is idle and has room for a note-on. -/
theorem test_witness_QueueOffers_idle :
    (onStage.rig.out 0).enabled = true ∧ (onStage.rig.out 0).transmit = .idle ∧
      ¬fullFor (onStage.rig.out 0) (.noteOn 0 60 100 9) := by
  unfold fullFor; decide

/-- R32: a full queue discards its oldest note-on that is not on the line. -/
theorem test_full_queue_discards :
    ((crowded (.noteOn 0 1 1 8)).offerNoteOff onStage.moment 0 0 61).discarded = some 9 := by decide

/-- SHOW at stage time `now`, a program of generation 2 pending on O0 channel 1 over a note of
generation 1. -/
def spilling (now : StageTime) : State :=
  ((sounding false).setScene { onStage.scene with generation := 2 }).setTime now |>.setRig
    ((sounding false).rig.setChan 0 0
      { ChanRec.clear with pending := some ⟨⟨7, none⟩, 2, 1000#32⟩, sounding := 1, old := 1 })

theorem test_witness_SpillExpires :
    (onStage.rig.chan 0 0).pending = none ∧
      2 ^ 31 ≤ ((spilling 999#32).time - 1000#32).toNat ∧
      ((spilling 1000#32).rig.chan 0 0).pending = some ⟨⟨7, none⟩, 2, 1000#32⟩ ∧
      ((spilling 1000#32).time - 1000#32).toNat < 2 ^ 31 ∧ countsInStep (spilling 1000#32) ∧
      ((spilling 1000#32).rig.chan 0 0).old = sentOldLegs (spilling 1000#32) 0 0 := by
  unfold countsInStep; decide

/-- Legs that a discard finds: ended, unsent, sent and not old, and sent and the last old one of its record. -/
theorem test_witness_DiscardSettles :
    findLeg onStage.rig.table 0 = none ∧
      findLeg (sounding false).rig.table 0 = some (1, ⟨0, 0, 0, 60, 100, true⟩) ∧
      ((sounding false).rig.chan 0 0).isOld 1 1 = false ∧
      findLeg (spilling 0).rig.table 0 = some (1, ⟨0, 0, 0, 60, 100, true⟩) ∧
      ((spilling 0).rig.chan 0 0).isOld 2 1 = true ∧ ((spilling 0).rig.chan 0 0).old ≤ 1 ∧
      ((spilling 0).rig.chan 0 0).pending = some ⟨⟨7, none⟩, 2, 1000#32⟩ ∧
      ((spilling 0).rig.out 0).urgent.length < 48 ∧
      findLeg (markLeg (sounding false).rig.table 0 false) 0 = some (1, ⟨0, 0, 0, 60, 100, false⟩) := by decide

/-- `spilling` at its deadline with a second leg, unsent, in the entry, and O0 enabled or not. -/
def spillingTwo (enabled : Bool) : State :=
  let s := spilling 1000#32
  s.setRig ({ s.rig.setTable [{ entryA false with
      legs := [⟨0, 0, 0, 60, 100, true⟩, ⟨1, 0, 0, 62, 100, false⟩] }] with nextLeg := 2 }.setOut 0
    { OutPort.pinReset with enabled := enabled })

theorem test_witness_SpillExpires_room (b : Bool) :
    ((spillingTwo b).rig.chan 0 0).pending = some ⟨⟨7, none⟩, 2, 1000#32⟩ ∧
      ((spillingTwo b).time - 1000#32).toNat < 2 ^ 31 ∧
      0 < ((spillingTwo b).rig.chan 0 0).old ∧ tableBounded (spillingTwo b) ∧ countsInStep (spillingTwo b) ∧
      ((spillingTwo b).rig.chan 0 0).old = sentOldLegs (spillingTwo b) 0 0 ∧
      ((spillingTwo b).rig.out 0).enabled = b ∧
      ((spillingTwo b).rig.out 0).urgent.length + ((spillingTwo b).rig.chan 0 0).old + 1 ≤ 48 ∧
      spillEnds (spillingTwo b) 0 0 (entryA false) ⟨0, 0, 0, 60, 100, true⟩ = true ∧
      spillEnds (spillingTwo b) 0 0 (entryA false) ⟨1, 0, 0, 62, 100, false⟩ = false := by
  unfold tableBounded countsInStep; cases b <;> decide

theorem test_witness_CountsStayInStep_old :
    countsInStep (spilling 0) ∧ oldInStep (spilling 0) ∧ tableBounded (spilling 0) ∧
      ∃ t, step ((spilling 0).setPending [.noteOff 0 0 60 false]) = .next t := by
  refine ⟨?_, ?_, ?_, _, rfl⟩
  · unfold countsInStep; decide
  · unfold oldInStep; decide
  · unfold tableBounded; decide

/-! ### Witnesses: notes and octets -/

theorem test_witness_LegsBuilt :
    (⟨0, 0, 60, 100⟩ : LegPlan) ∈
      (onStage.rig.buildLegs onStage.moment onStage.router.echo onStage.router.active 0 0 60 100).2 := by
  decide

theorem test_witness_LegsBuilt_complete :
    candidateLegs onStage.rig onStage.moment onStage.router.echo onStage.router.active 0 0 60 100 =
        [⟨0, 0, 60, 100⟩] ++ ⟨1, 0, 60, 100⟩ :: [] ∧
      ((1, 0, 60) : Output × Chan × Seven) ∉ [((0, 0, 60) : Output × Chan × Seven)] ∧
      [((0, 0, 60) : Output × Chan × Seven)].dedup.length < 8 := by decide

theorem test_witness_NoteOnRouted :
    onStage.live = true ∧ onStage.scene.mode = .showMode ∧ loaded.scene.mode = .setupMode ∧
      onStage.rig.table.length < 128 ∧ (∀ e ∈ onStage.rig.table, ¬(e.input = 0 ∧ e.channel = 0 ∧ e.key = 60)) ∧
      (∀ e ∈ onStage.router.active, e.isMatch 0 0 60 100 = true → e.action = .route) ∧
      (onStage.rig.buildLegs onStage.moment onStage.router.echo onStage.router.active 0 0 60 100).2 ≠ [] ∧
      (∀ o, (onStage.rig.out o).urgent.length ≤ 40 ∧ (onStage.rig.out o).noteOns ≤ 24) ∧
      countsInStep onStage := by
  unfold countsInStep; decide

/-- A cue entry of the keys of `layerA`. -/
def cueEntry (action : Action) : Layer := { layerA with action := action, outputs := 0, cueTag := 3 }

/-- SHOW with cue entries behind the ROUTE entry of the bank. -/
def cueing (cues : List Layer) : State := onStage.setRouter { onStage.router with active := layerA :: cues }

theorem test_witness_NoteOnRouted_no_legs :
    (∀ e ∈ onStage.router.active, e.isMatch 0 1 60 100 = true → e.action = .route) ∧
      (onStage.rig.buildLegs onStage.moment onStage.router.echo onStage.router.active 0 1 60 100).2 = [] ∧
      (onStage.deframer 0).held = none := by decide

theorem test_witness_NoteOnRouted_cues :
    (cueing [cueEntry .prev, cueEntry .next]).router.active.find?
        (fun e => hits 0 0 60 100 e && (e.action = .next || e.action = .prev)) = some (cueEntry .prev) ∧
      (cueing [cueEntry .next, cueEntry .tap]).router.active.find?
        (fun e => hits 0 0 60 100 e && (e.action = .next || e.action = .prev)) = some (cueEntry .next) ∧
      (∃ e ∈ (cueing [cueEntry .next, cueEntry .tap]).router.active, hits 0 0 60 100 e = true ∧ e.action = .tap) ∧
      (cueing [cueEntry .tap]).router.active.find?
        (fun e => hits 0 0 60 100 e && (e.action = .next || e.action = .prev)) = none ∧
      (∀ e ∈ onStage.router.active, hits 0 0 60 100 e = true → e.action ≠ .tap) := by decide

/-- R55 to R57: a note-on of a NEXT and a TAP entry sounds, stages the next scene of the cue's tag and taps. -/
theorem test_note_on_cues :
    let t := ran (.noteOn 0 0 60 100) (cueing [cueEntry .next, cueEntry .tap])
    ((t.scene.staged.map fun c => (c.target, c.origin, c.cueTag)) = some (⟨0, 1, 1⟩, .cue, 3)) ∧
      t.rig.table.length = 1 ∧ t.tempo.lastTap = some onStage.time := by decide

/-- A table of 128 entries of N3, one unsent leg each, the first SUSTAINED or not. -/
def fullTable (sustained : Bool) : State :=
  onStage.setRig { onStage.rig.setTable ((List.range 128).map fun k =>
    ⟨3, 0, Fin.ofNat 128 k, sustained && k = 0, 1, [⟨k, 0, 0, 60, 100, false⟩]⟩) with nextLeg := 128 }

theorem fullTable_sources (b : Bool) :
    ((fullTable b).rig.table.map fun e => (e.input, e.channel, e.key)).Nodup := by
  cases b <;> decide +kernel

theorem test_witness_NoteOnRouted_retrigger :
    Displaces (sounding false) 0 0 60 (entryA false) ∧ tableBounded (sounding false) ∧
      countsInStep (sounding false) ∧ Roomy (sounding false) 16 ∧
      (∀ o, ((sounding false).rig.out o).noteOns ≤ 24) := by
  refine ⟨.inl (by decide), ?_, ?_, ⟨by decide, by decide⟩, by decide⟩
  · unfold tableBounded; decide
  · unfold countsInStep; decide

/-- A note-on of another source over a pending program, and a retrigger whose old leg is the last one. -/
theorem test_witness_NoteOnRouted_stale :
    (spilling 0).scene.mode = .showMode ∧ (∀ e ∈ (spilling 0).rig.table, ¬(e.input = 0 ∧ e.channel = 0 ∧ e.key = 61)) ∧
      ((spilling 0).rig.buildLegs (spilling 0).moment (spilling 0).router.echo (spilling 0).router.active
        0 0 61 100).2.head? = some ⟨0, 0, 61, 100⟩ ∧
      ((spilling 0).rig.chan 0 0).pending.isSome = true ∧
      Displaces (spilling 0) 0 0 60 (entryA false) ∧ tableBounded (spilling 0) ∧ countsInStep (spilling 0) ∧
      ∀ o, ((spilling 0).rig.out o).urgent.length ≤ 24 ∧ ((spilling 0).rig.out o).noteOns ≤ 24 := by
  refine ⟨rfl, by decide, by decide, by decide, .inl (by decide), ?_, ?_, by decide⟩
  · unfold tableBounded; decide
  · unfold countsInStep; decide

theorem test_witness_NoteOnRouted_steal :
    Displaces (fullTable true) 0 0 60 ⟨3, 0, 0, true, 1, [⟨0, 0, 0, 60, 100, false⟩]⟩ ∧
      tableBounded (fullTable true) ∧ Roomy (fullTable true) 16 ∧
      (∀ o, ((fullTable true).rig.out o).noteOns ≤ 24) :=
  ⟨.inr ⟨by decide +kernel, by decide +kernel, by decide +kernel⟩,
    ⟨by decide +kernel, by decide +kernel, fullTable_sources true⟩,
    ⟨by decide, by decide⟩, by decide⟩

theorem test_witness_NoteOnRouted_full :
    128 ≤ (fullTable false).rig.table.length ∧
      (∀ e ∈ (fullTable false).rig.table, e.isFrom 0 0 60 = false ∧ e.sustained = false) ∧
      ((fullTable false).deframer 0).held = none := by decide +kernel

theorem test_witness_NoteOnRouted_full_counts (b : Bool) : countsInStep (fullTable b) := by
  have hs : ∀ o c, sentLegs (fullTable b).rig o c = 0 := by cases b <;> decide +kernel
  refine ⟨fun o c => ?_, ?_, ?_⟩
  · rw [hs o c]; revert o c; cases b <;> decide +kernel
  · cases b <;> decide +kernel
  · cases b <;> decide +kernel

/-- The state with the pedal of N0 and channel 1 DOWN. -/
def pedalDown (s : State) : State := s.setRig (s.rig.setPedal 0 0 true)

theorem test_witness_KeyUpAndPedal :
    (∀ e ∈ onStage.rig.table, e.isFrom 0 0 60 = false) ∧
      (sounding true).rig.table.find? (fun e => e.isFrom 0 0 60) = some (entryA true) ∧
      (sounding false).rig.table.find? (fun e => e.isFrom 0 0 60) = some (entryA false) ∧
      (pedalDown (sounding false)).rig.pedal 0 0 = true ∧ (sounding false).rig.pedal 0 0 = false ∧
      tableBounded (pedalDown (sounding true)) ∧ countsInStep (pedalDown (sounding true)) ∧
      onStage.mem.header.sustainController ≤ 127 ∧ 64 ≤ (64 : Seven).val ∧ (63 : Seven).val < 64 := by
  unfold tableBounded countsInStep; decide

theorem test_witness_KeyUpAndPedal_ends :
    Roomy (sounding false) (entryA false).legs.length ∧
      Roomy (pedalDown (sounding true)) (entryA true).legs.length ∧
      (((spilling 0).rig.chan 0 0).pending = some ⟨⟨7, none⟩, 2, 1000#32⟩ ∧ ((spilling 0).rig.chan 0 0).old = 1 ∧
        (entryA false).legs = [⟨0, 0, 0, 60, 100, true⟩] ∧
        ((spilling 0).scene.generation - 2).toNat < ((spilling 0).scene.generation - (entryA false).generation).toNat ∧
        ((spilling 0).rig.out 0).enabled = true ∧ ((spilling 0).rig.out 0).urgent.length + 2 ≤ 48) :=
  ⟨⟨by decide, by decide⟩, ⟨by decide, by decide⟩, by decide⟩

/-- R68, R86: the release follows the note-off of the last old leg. -/
theorem test_last_old_leg_releases :
    ((ran (.noteOff 0 0 60 false) (spilling 0)).rig.out 0).urgent =
      [.noteOff 0 60, .program 0 ⟨7, none⟩ false] := by decide

theorem test_witness_ContinuousDelivered :
    loaded.scene.mode = .setupMode ∧ onStage.scene.mode = .showMode ∧
      (63 : Seven).val ≠ onStage.mem.header.sustainController ∧
      layerA ∈ onStage.router.active ∧ layerA.passContinuous = true ∧ layerA.inputs.getLsbD 0 = true ∧
      layerA.sourceChannel = (0 : Chan).val + 1 ∧ layerA.outputs.getLsbD 0 = true ∧
      ¬((0 : Output).val = (0 : Input).val ∧ onStage.router.echo.getLsbD 0 = false) ∧
      (onStage.rig.out 0).bulk.length + 16 ≤ 32 := by decide

/-- Five places of five controllers, one for each number from 70 on, on channel 1. -/
def places (count : Nat) : List BulkPlace :=
  (List.range count).map fun k => ⟨.control (Fin.ofNat 128 (70 + k)), 0, 1, none⟩

/-- O0 with `count` bulk places, its line idle or sending the first. -/
def bulky (count : Nat) (sends : Bool) : OutPort :=
  { OutPort.pinReset with
    bulk := places count, transmit := if sends then .sending .bulk 960#32 else .idle }

theorem test_witness_BulkOffers :
    ((bulky 5 true).bulk = places 2 ++ ⟨.control 72, 0, 1, none⟩ :: (places 5).drop 3 ∧ places 2 ≠ [] ∧
        ∀ x ∈ places 2 ++ (places 5).drop 3, ¬(x.kind = .control 72 ∧ x.channel = 0)) ∧
      ((bulky 5 true).bulk = ⟨.control 70, 0, 1, none⟩ :: (places 5).drop 1 ∧ (bulky 5 true).bulkOnLine = true ∧
        ∀ x ∈ (places 5).drop 1, ¬(x.kind = .control 70 ∧ x.channel = 0)) ∧
      ((∀ x ∈ (bulky 31 false).bulk, ¬(x.kind = .bend ∧ x.channel = 0)) ∧ (bulky 31 false).bulk.length < 32 ∧
        ((bulky 31 false).transmit = .idle → (bulky 31 false).urgent = [])) ∧
      ((∀ x ∈ (bulky 32 true).bulk, ¬(x.kind = .bend ∧ x.channel = 0)) ∧ 32 ≤ (bulky 32 true).bulk.length ∧
        (bulky 32 true).enabled = true) := by decide

theorem test_witness_continuousTargets :
    continuousTargets onStage 0 0 = [(0, 0), (1, 0)] ∧ (∀ d, ((2 : Output), d) ∉ continuousTargets onStage 0 0) := by
  decide

/-- R38: on a full bulk queue the oldest place behind the one on the line gives way. -/
theorem test_full_bulk_queue :
    (((onStage.rig.setOut 0 (bulky 32 true)).offerBulk onStage.moment 0 .bend 0 9).out 0).bulk =
      places 1 ++ (places 32).drop 2 ++ [⟨.bend, 0, 9, none⟩] := by decide

theorem test_witness_SongSelectRule :
    onStage.mem.header.songSelect = some ((2 : Chan).val + 1) ∧ (onStage.deframer 0).held = none ∧
      onStage.mem.header.setlistLength ≤ (2 : Seven).val ∧
      (1 : Seven).val < onStage.mem.header.setlistLength ∧ 0 < (onStage.mem.song 1).sceneCount ∧
      onStage.scene.staged = none := by decide

theorem test_witness_CueRequests :
    onStage.scene.mode = .showMode ∧ Unresolved onStage (onStage.rank .panelSide) .prev .atEnd ∧
      Resolves onStage (onStage.rank .panelSide) .next 0 1 ∧
      (Resolves onStage (onStage.rank .panelSide) (.song 1 1) 1 1 ∧ (onStage.mem.song 1).sceneCount ≤ 1) ∧
      (Resolves onStage (onStage.rank .panelSide) (.song 0 0) 0 0 ∧ onStage.scene.current = some ⟨0, 0, 0⟩) ∧
      ((staged .preparing .bar).scene.staged = some (changeA .preparing .bar) ∧
        (changeA .preparing .bar).rank ≤ (staged .preparing .bar).rank .panelSide) ∧
      (staged .preparing .bar).rank .panelSide < ({ changeA .preparing .bar with rank := 3 } : Change).rank := by
  refine ⟨rfl, .prevFirst (by decide), .nextWithin 0 0 (by decide) (by decide), ⟨.song 1 1, by decide⟩,
    ⟨.song 0 0, rfl⟩, ⟨rfl, by decide⟩, by decide⟩

/-- The deframer of N0 holding the first data octet of a NOTE-ON, of that event and of another. -/
def holdingData (s : State) : State := s.setDeframer 0 ⟨.channel .noteOn 0, some 60⟩

/-- R24: a note-on of the key held is not cut short; a note-off cuts the held data short. -/
theorem test_witness_OnlyArrives :
    arrivedDesk (holdingData loaded) 0 .noteOn 0 60 = loaded.desk ∧
      arrivedDesk (holdingData loaded) 0 .noteOff 0 60 = loaded.desk.report .framingErrors 0 ∧
      arrivedDesk loaded 0 .noteOff 0 60 = loaded.desk ∧ loaded.scene.mode = .setupMode := by
  refine ⟨?_, ?_, ?_, rfl⟩ <;> decide

theorem test_witness_pedal_as_continuous :
    (64 : Seven).val = onStage.mem.header.sustainController ∧
      exec (.continuousEvent 0 0 (.control 64 0)) (sounding true) = exec (.sustainPedal 0 0 0) (sounding true) :=
  ⟨rfl, rfl⟩

theorem test_witness_OctetsDecoded :
    (loaded.deframer 0).kind = .none ∧
      ((loaded.setDeframer 0 ⟨.skip, none⟩).deframer 0).kind = .skip ∧
      (loaded.setDeframer 0 ⟨.channel .noteOn 2, none⟩).deframer 0 = ⟨.channel .noteOn 2, none⟩ ∧
      ChannelKind.noteOn.single = false ∧ channelKindOf ((0xEF : Byte).toNat / 16) = some .bend ∧
      0xF0 ≤ (0xFF : Byte).toNat ∧
      (loaded.setDeframer 0 ⟨.channel .bend 2, some 1⟩).deframer 0 = ⟨.channel .bend 2, some 1⟩ ∧
      (loaded.setDeframer 0 ⟨.channel .keyPressure 2, some 1⟩).deframer 0 = ⟨.channel .keyPressure 2, some 1⟩ ∧
      (127 : Byte).toNat = (127 : Seven).val := by decide

/-! ### Witnesses: counters, capture list, ports, pins -/

theorem test_witness_CounterRule :
    Heads (asked .panelPort (rq 0x19 [4, 1, 1, 0, 0, 0, 0]) loaded) .panelPort .counterSet
      (rq 0x19 [4, 1, 1, 0, 0, 0, 0]) [] ∧
    Heads (asked .panelPort (rq 0x19 [0, 14, 1, 0, 0, 0, 0]) loaded) .panelPort .counterSet
      (rq 0x19 [0, 14, 1, 0, 0, 0, 0]) [] ∧
    Heads (asked .panelPort (rq 0x19 [0, 4, 16, 0, 0, 0, 0]) loaded) .panelPort .counterSet
      (rq 0x19 [0, 4, 16, 0, 0, 0, 0]) [] ∧
    Heads (asked .panelPort (rq 0x19 [3, 10, 63, 1, 0, 0, 0]) loaded) .panelPort .counterSet
      (rq 0x19 [3, 10, 63, 1, 0, 0, 0]) [] ∧
    (rq 0x19 [3, 10, 63, 1, 0, 0, 0]).octetAt 1 = CounterEvent.staleProgramNotes.code ∧
    Heads (asked .panelPort (rq 0x1A [3]) loaded) .panelPort .counterRead (rq 0x1A [3]) [] ∧
    Heads (asked .panelPort (rq 0x1A [4]) loaded) .panelPort .counterRead (rq 0x1A [4]) [] := by
  refine ⟨heads rfl (by decide), heads rfl (by decide), heads rfl (by decide), heads rfl (by decide),
    by decide, heads rfl (by decide), heads rfl (by decide)⟩

/-- A desk whose counter 2 counts scene takes up to 1. -/
def countingDesk : Desk :=
  { Desk.pinReset with counters := (Vector.replicate 4 Counter.clear).set 2 ⟨some .sceneTakes, 0, 1, 0, false⟩ }

theorem test_witness_ReportsCounted :
    (∀ i : Fin 4, (Desk.pinReset.counters[i]).threshold = 0) ∧
      ((countingDesk.report .sceneTakes 0).counters[2]).reachedMark = true ∧
      (countingDesk.counters[2]).reachedMark = false ∧
      ∀ j : Fin 4, j ≠ 2 →
        ((countingDesk.report .sceneTakes 0).counters[j]).reachedMark =
          (countingDesk.counters[j]).reachedMark := by decide

theorem test_witness_CaptureRule :
    Heads (asked .showPort (rq 0x1B [32, 1, 0]) loaded) .showPort .captureArm (rq 0x1B [32, 1, 0]) [] ∧
    Heads (asked .showPort (rq 0x1B [0, 0, 2]) loaded) .showPort .captureArm (rq 0x1B [0, 0, 2]) [] ∧
    Heads (asked .showPort (rq 0x1B [31, 0xFF, 1]) loaded) .showPort .captureArm (rq 0x1B [31, 0xFF, 1]) [] ∧
    Heads (asked .showPort (rq 0x1C [31]) loaded) .showPort .captureRead (rq 0x1C [31]) [] ∧
    Heads (asked .showPort (rq 0x1C [32]) loaded) .showPort .captureRead (rq 0x1C [32]) [] := by
  refine ⟨heads rfl (by decide), heads rfl (by decide), heads rfl (by decide), heads rfl (by decide),
    heads rfl (by decide)⟩

theorem test_witness_PortRequests :
    Heads (asked .showPort (rq 0x1D []) loaded) .showPort .status (rq 0x1D []) [] ∧
    Heads (asked .showPort (rq 0x1E [4, 0]) loaded) .showPort .subscribe (rq 0x1E [4, 0]) [] ∧
    ((asked .showPort ⟨2, 0x1D, 7, [], none⟩ loaded).port .showPort).requests = [⟨2, 0x1D, 7, [], none⟩] ∧
    ((asked .panelPort (rq 0x13 [1]) loaded).port .panelPort).requests = [rq 0x13 [1]] ∧
    ((asked .showPort (rq 0x1D [0]) loaded).port .showPort).requests = [rq 0x1D [0]] ∧
    (rq 0x1D [0]).length = 4 := by
  refine ⟨heads rfl (by decide), heads rfl (by decide), rfl, rfl, rfl, rfl⟩

theorem test_witness_PortRequests_lengths :
    lengthFits (rq 0x1D []) ∧ ¬lengthFits (rq 0x1D [0]) ∧ lengthFits (rq 0x08 [1, 0]) ∧ ¬lengthFits (rq 0x08 [1]) ∧
      (rq 0x08 [1]).payload.length + 3 = (rq 0x08 [1]).length := by
  refine ⟨rfl, ?_, rfl, ?_, rfl⟩ <;> (show ¬(_ = _); decide)

/-- R188: the status report after pin reset, from the tables: SETUP, no song or scene, record and generation 0,
slot empty. -/
theorem test_status_after_reset :
    (State.reset.statusReport .panelPort).take 7 = [0, 255, 255, 0, 0, 0, 0] := by decide

theorem test_witness_TransferRule :
    (loaded.port .panelPort).transfer = .idle ∧
      (reading.port .panelPort).transfer = .inTransfer [] .queuedFrame ∧
      (reading.port .panelPort).outbound = .notice (.mode .showMode) :: [] ∧
      (Frame.notice (.mode .showMode)).octets.length ≤ ([] ++ [0, 0, 0] : List Byte).length ∧
      ([] ++ [3, 0x1D, 7] : List Byte) = 3 :: 0x1D :: 7 :: [] ∧
      classify .panelPort ⟨3, 0x1D, 7, [], none⟩ ≠ .tap ∧
      (loaded.setPort .panelPort { PortState.pinReset with
        requests := List.replicate 4 (rq 0x1D []) }).live = true ∧
      ([] ++ [5, 0x1D] : List Byte).length < 5 := by decide

theorem test_witness_TransferRule_short :
    ([] ++ [3, 0x1D] : List Byte).length < (Frame.notice (.mode .showMode)).octets.length ∧
      AfterShort [.notice (.mode .showMode)] [.notice (.mode .showMode)] ∧
      AfterShort [.notice (.position (some 0) 1 1 5)] [.notice (.position (some 0) 1 1 5)] ∧
      AfterShort [.notice (.position (some 0) 1 1 5), .notice (.mode .showMode), .notice (.position (some 0) 1 2 5)]
        [.notice (.position (some 0) 1 2 5), .notice (.mode .showMode)] := by
  refine ⟨by decide, ⟨_, _, rfl, .inl ⟨rfl, rfl⟩⟩, ⟨_, _, rfl, .inr (.inl ⟨rfl, by decide, rfl⟩)⟩,
    ⟨_, _, rfl, .inr (.inr ⟨rfl, [.notice (.mode .showMode)], .notice (.position (some 0) 1 2 5), [], rfl, rfl,
      by decide, rfl⟩)⟩⟩

theorem test_witness_ResetAndCrystal :
    (loaded.setPins { loaded.pins with resetHeld := true }).pins.resetHeld = true ∧
      loaded.pins.resetHeld = false ∧
      (loaded.setPins { loaded.pins with crystalPresent := false }).live = false ∧
      Instr.stageTick ≠ .resetPinLow ∧ (∀ a b, Instr.stageTick ≠ .resetPinRelease a b) ∧
      Instr.stageTick ≠ .crystalStop ∧ Instr.stageTick ≠ .crystalReturn := by decide

/-- A Click Generator with the audio clock PRESENT and one voice playing. -/
def clicking : State :=
  loaded.setClick { ClickGen.pinReset with
    audio := .present, voices := (Vector.replicate 4 Voice.free).set 1 (.playing 0 16384 3 2) }

theorem test_witness_WatchedLines :
    ((loaded.setTime 100#32).setTempo { loaded.tempo with lineHighUntil := some 100#32 }).tempo.lineHighUntil =
        some 100#32 ∧
      ((100#32 : StageTime) - 100#32).toNat < 2 ^ 31 ∧ 2 ^ 31 ≤ ((99#32 : StageTime) - 100#32).toNat ∧
      clicking.click.audio = .present ∧ loaded.click.audio = .missing ∧ loaded.click.presenceRun = none ∧
      ((1005#32 : StageTime) - (5#32 + 1000#32)).toNat < 2 ^ 31 ∧
      2 ^ 31 ≤ ((1004#32 : StageTime) - (5#32 + 1000#32)).toNat := by decide

theorem test_witness_SamplePeriodMixes :
    clicking.live = true ∧ clicking.click.audio = .present ∧ voicesPlaying clicking ∧
      ∃ t, step (clicking.setPending [.samplePeriod]) = .next t := by
  refine ⟨rfl, rfl, ?_, _, rfl⟩
  unfold voicesPlaying; decide

/-- Four voices at 1/3, 2/3, 4/6 and 0/5 of their sounds. -/
def busy : Fin 4 → Voice
  | 0 => .playing 0 1 3 1
  | 1 => .playing 1 1 3 2
  | 2 => .playing 2 1 6 4
  | 3 => .playing 3 1 5 0

theorem test_witness_SamplePeriodMixes_starts :
    TakesVoice (fun i => clicking.click.voices[i]) 0 ∧ TakesVoice busy 1 := by
  refine ⟨.inl ⟨rfl, by decide⟩, .inr ⟨by decide, fun j => ?_⟩⟩
  match j with
  | 0 => exact ⟨fun _ => by show 1 * 3 < 2 * 3; decide, by show ¬(2 * 3 < 1 * 3); decide⟩
  | 1 => exact ⟨fun h => absurd h (by decide), by show ¬(2 * 3 < 2 * 3); decide⟩
  | 2 => exact ⟨fun h => absurd h (by decide), by show ¬(2 * 6 < 4 * 3); decide⟩
  | 3 => exact ⟨fun h => absurd h (by decide), by show ¬(2 * 5 < 0 * 3); decide⟩

end Sys2Proof.Tests
end

section
/-! What the instrument side tells the desk: every operation of the outputs, the note table and the
destination-channel records reaches the ports, the counters and the capture list through notices, counter
reports and capture records alone, so the requests that wait at a port stay as they are. -/
namespace Sys2Proof.Machine

/-! ### Reports to the desk -/

/-- One report reaches the desk: a notice offered to a port, a counter event, or a capture record. -/
inductive Desk.Told (d : Desk) : Desk → Prop
  | notice (p : Port) (n : Notice) : Desk.Told d (d.raiseAt p n)
  | count (ev : CounterEvent) (named : Nat) : Desk.Told d (d.report ev named)
  | capture (x : CaptureRecord) : Desk.Told d (d.record x)

/-- Reports alone lead from the desk `d` to the desk `e`. -/
abbrev Desk.Hears (d e : Desk) : Prop := Relation.ReflTransGen Desk.Told d e

/-- A notice to both ports is one to each. -/
theorem Desk.hears_raise (d : Desk) (n : Notice) : d.Hears (d.raise n) :=
  (Relation.ReflTransGen.single (.notice .panelPort n)).tail (.notice .showPort n)

theorem Desk.hears_raiseFor (d : Desk) (g : Origin) (n : Notice) : d.Hears (d.raiseFor g n) := by
  obtain ⟨p, h⟩ | ⟨-, h⟩ := d.raiseFor_cases g n <;> rw [h]
  · exact .single (.notice p n)
  · exact d.hears_raise n

/-- The requests that wait at port `p`, and the moment the oldest began to be handled, are those of `d`. -/
def Desk.sameQueue (d e : Desk) (p : Port) : Prop :=
  (e.port p).requests = (d.port p).requests ∧ (e.port p).handledSince = (d.port p).handledSince

theorem Desk.sameQueue_trans {d e f : Desk} {p : Port} (h : d.sameQueue e p) (k : e.sameQueue f p) :
    d.sameQueue f p := ⟨k.1.trans h.1, k.2.trans h.2⟩

theorem Desk.setPort_sameQueue (d : Desk) {p q : Port} (x : PortState) (h : q ≠ p) :
    d.sameQueue (d.setPort p x) q := by simp [Desk.sameQueue, h]

theorem Desk.raiseAt_sameQueue (d : Desk) (p q : Port) (n : Notice) : d.sameQueue (d.raiseAt p n) q := by
  obtain ⟨-, hr, -, -, hh⟩ := (d.port p).offer_frame n
  by_cases h : q = p
  · subst h
    simpa [Desk.sameQueue, Desk.raiseAt] using ⟨hr, hh⟩
  · exact d.setPort_sameQueue _ h

theorem Desk.raise_sameQueue (d : Desk) (q : Port) (n : Notice) : d.sameQueue (d.raise n) q :=
  Desk.sameQueue_trans (d.raiseAt_sameQueue .panelPort q n) (Desk.raiseAt_sameQueue _ .showPort q n)

theorem Desk.count_sameQueue (d : Desk) (q : Port) (ev : CounterEvent) (named : Nat) (i : Fin 4) :
    d.sameQueue (d.count ev named i) q := by
  have hd : ∀ c, d.sameQueue { d with counters := c } q := fun c => by cases q <;> exact ⟨rfl, rfl⟩
  obtain ⟨-, h⟩ | ⟨-, d', rfl, h | h⟩ := d.count_cases ev named i <;> rw [h]
  · exact ⟨rfl, rfl⟩
  · exact hd _
  · exact Desk.sameQueue_trans (hd _) (Desk.raise_sameQueue _ q _)

theorem Desk.report_sameQueue (d : Desk) (q : Port) (ev : CounterEvent) (named : Nat) :
    d.sameQueue (d.report ev named) q :=
  Desk.sameQueue_trans (Desk.sameQueue_trans (Desk.sameQueue_trans (d.count_sameQueue q ev named 0)
    (Desk.count_sameQueue _ q ev named 1)) (Desk.count_sameQueue _ q ev named 2))
    (Desk.count_sameQueue _ q ev named 3)

theorem Desk.record_sameQueue (d : Desk) (q : Port) (x : CaptureRecord) : d.sameQueue (d.record x) q := by
  have hd : ∀ l, d.sameQueue { d with capture := l } q := fun l => by cases q <;> exact ⟨rfl, rfl⟩
  obtain h | ⟨_, -, -, ⟨-, h⟩ | ⟨-, h⟩⟩ := d.record_cases x <;> rw [h]
  · exact ⟨rfl, rfl⟩
  · exact Desk.sameQueue_trans (hd _) (Desk.raise_sameQueue _ q _)
  · exact hd _

/-- Reports leave the requests of every port waiting as they are. -/
theorem Desk.Hears.sameQueue {d e : Desk} (h : d.Hears e) (q : Port) : d.sameQueue e q := by
  induction h with
  | refl => exact ⟨rfl, rfl⟩
  | tail _ told ih =>
    refine Desk.sameQueue_trans ih ?_
    cases told with
    | notice p n => exact Desk.raiseAt_sameQueue _ p q n
    | count ev named => exact Desk.report_sameQueue _ q ev named
    | capture x => exact Desk.record_sameQueue _ q x

/-! ### Outputs and offers (R31 to R38) -/

/-- The instrument side goes from `r` to `t` and tells the desk what it does by reports alone. -/
def Rig.Reports (r t : Rig) : Prop := r.desk.Hears t.desk

/-- An update that does not touch the desk. -/
theorem Rig.Reports.still {r t : Rig} (h : t.desk = r.desk) : r.Reports t := by
  rw [Rig.Reports, h]

theorem Rig.Reports.trans {r t u : Rig} (h : r.Reports t) (k : t.Reports u) : r.Reports u :=
  Relation.ReflTransGen.trans h k

/-- An operation that only reports, behind an update that does not touch the desk. -/
theorem Rig.Reports.after {r t u : Rig} (h : t.Reports u) (e : t.desk = r.desk) : r.Reports u :=
  (Rig.Reports.still e).trans h

theorem Rig.raise_reports (r : Rig) (n : Notice) : r.Reports (r.raise n) := r.desk.hears_raise n
theorem Rig.report_reports (r : Rig) (ev : CounterEvent) (named : Nat) : r.Reports (r.report ev named) :=
  Relation.ReflTransGen.single (.count ev named)
theorem Rig.record_reports (r : Rig) (x : CaptureRecord) : r.Reports (r.record x) :=
  Relation.ReflTransGen.single (.capture x)

/-- A fold of operations that only report only reports. -/
theorem Rig.reports_foldl {α : Type} (f : Rig → α → Rig) (hf : ∀ (r : Rig) (a : α), r.Reports (f r a))
    (l : List α) (r : Rig) : r.Reports (l.foldl f r) := by
  induction l generalizing r with
  | nil => exact .still rfl
  | cons a l ih => exact (hf r a).trans (ih (f r a))

theorem Rig.raiseOverflow_reports (r : Rig) (o : Output) : r.Reports (r.raiseOverflow o) := by
  obtain ⟨-, h⟩ | ⟨-, h⟩ := r.raiseOverflow_cases o <;> rw [h]
  · exact .still rfl
  · exact (Rig.raise_reports _ _).after rfl

theorem Rig.raiseCritical_reports (r : Rig) (o : Output) : r.Reports (r.raiseCritical o) := by
  obtain h | ⟨-, -, h⟩ := r.raiseCritical_cases o <;> rw [h]
  · exact .still rfl
  · exact (Rig.raise_reports _ _).after rfl

theorem Rig.reportDiscard_reports (r : Rig) (m : Moment) (o : Output) (c : Chan) :
    r.Reports (r.reportDiscard m o c) :=
  ((r.report_reports _ _).trans (Rig.record_reports _ _)).trans (Rig.raiseOverflow_reports _ o)

theorem Rig.startLine_reports (r : Rig) (m : Moment) (o : Output) : r.Reports (r.startLine m o) := by
  obtain h | ⟨q, u, -, h | h⟩ := r.startLine_cases m o <;> rw [h]
  · exact .still rfl
  · exact .still rfl
  · exact (Rig.report_reports _ _ _).after rfl

theorem Rig.dropHeld_desk (r : Rig) (o : Output) (e : Urgent) : (r.dropHeld o e).desk = r.desk := by
  cases e <;> rfl

theorem Rig.append_reports (r : Rig) (m : Moment) (o : Output) (e : Urgent) : r.Reports (r.append m o e) := by
  refine Rig.Reports.trans ?_ (Rig.startLine_reports _ m o)
  exact (Rig.raiseCritical_reports _ o).after (Rig.dropHeld_desk _ o e)

theorem Rig.replace_reports (r : Rig) (m : Moment) (o : Output) (e : Urgent) (refuse : Rig → Rig)
    (h : r.Reports (refuse r)) : r.Reports (r.replace m o e refuse).rig := by
  obtain ⟨-, hr⟩ | ⟨c, leg, rest, -, hr⟩ := r.replace_cases m o e refuse <;> rw [hr]
  · exact h
  · refine Rig.Reports.trans ?_ (Rig.startLine_reports _ m o)
    exact (Rig.reportDiscard_reports _ m o c).after (Rig.dropHeld_desk _ o e)

theorem Rig.owe_reports (r : Rig) (m : Moment) (o : Output) (c : Chan) : r.Reports (r.owe m o c) := by
  refine Rig.Reports.trans ?_ (Rig.raiseOverflow_reports _ o)
  refine Rig.Reports.trans ?_ (Rig.record_reports _ _)
  exact (Rig.report_reports _ _ _).after rfl

theorem Rig.offerNoteOn_reports (r : Rig) (m : Moment) (o : Output) (c : Chan) (k v : Seven) (leg : Nat) :
    r.Reports (r.offerNoteOn m o c k v leg).rig := by
  obtain ⟨-, h⟩ | ⟨-, -, -, h⟩ | ⟨-, -, h⟩ := r.offerNoteOn_cases m o c k v leg <;> rw [h]
  · exact .still rfl
  · exact r.append_reports m o _
  · exact r.replace_reports m o _ _ (r.reportDiscard_reports m o c)

theorem Rig.offerNoteOff_reports (r : Rig) (m : Moment) (o : Output) (c : Chan) (k : Seven) :
    r.Reports (r.offerNoteOff m o c k).rig := by
  obtain ⟨-, h⟩ | ⟨-, -, h⟩ | ⟨-, -, h⟩ := r.offerNoteOff_cases m o c k <;> rw [h]
  · exact .still rfl
  · exact r.append_reports m o _
  · exact r.replace_reports m o _ _ (r.owe_reports m o c)

theorem Rig.offerAllNotesOff_reports (r : Rig) (m : Moment) (o : Output) (c : Chan) :
    r.Reports (r.offerAllNotesOff m o c).rig := by
  obtain ⟨-, h⟩ | ⟨-, -, h⟩ | ⟨-, -, h⟩ := r.offerAllNotesOff_cases m o c <;> rw [h]
  · exact .still rfl
  · exact r.append_reports m o _
  · refine r.replace_reports m o _ _ ?_
    split
    · exact .still rfl
    · exact r.owe_reports m o c

theorem Rig.offerProgram_reports (r : Rig) (m : Moment) (o : Output) (c : Chan) (p : Program) :
    r.Reports (r.offerProgram m o c p).rig := by
  obtain ⟨-, h⟩ | ⟨-, -, h⟩ | ⟨-, -, h⟩ := r.offerProgram_cases m o c p <;> rw [h]
  · exact .still rfl
  · exact r.append_reports m o _
  · exact r.replace_reports m o _ _ (.still rfl)

theorem Rig.offerBulk_reports (r : Rig) (m : Moment) (o : Output) (k : ContinuousKind) (c : Chan)
    (v : Fourteen) : r.Reports (r.offerBulk m o k c v) := by
  unfold Rig.offerBulk
  dsimp only
  split
  · split
    · exact (Rig.report_reports _ _ _).after rfl
    · split
      · exact (Rig.report_reports _ _ _).after rfl
      · split
        · exact (Rig.startLine_reports _ m o).after rfl
        · refine Rig.Reports.trans ?_ (Rig.startLine_reports _ m o)
          exact (Rig.report_reports _ _ _).after rfl
  · exact .still rfl

/-! ### Releases, discards and ends of legs (R65 to R70) -/

theorem Rig.release_reports (r : Rig) (m : Moment) (o : Output) (c : Chan) :
    r.Reports (r.release m o c).1 := by
  unfold Rig.release
  split
  · exact .still rfl
  · exact (r.offerProgram_reports m o c _).trans (.still rfl)

theorem Rig.settleDiscard_reports (fuel : Nat) (m : Moment) (id : Option Nat) (r : Rig) :
    r.Reports (r.settleDiscard fuel m id) := by
  induction fuel generalizing id r with
  | zero => exact .still rfl
  | succ fuel ih =>
    cases id with
    | none => exact .still rfl
    | some id =>
      unfold Rig.settleDiscard
      split
      · exact .still rfl
      · dsimp only
        split
        · split
          · refine Rig.Reports.trans ?_ (ih _ _)
            exact (Rig.release_reports _ m _ _).after rfl
          · exact .still rfl
        · exact .still rfl

theorem Offer.settled_reports {r : Rig} {x : Offer} (m : Moment) (h : r.Reports x.rig) :
    r.Reports (x.settled m) := h.trans (Rig.settleDiscard_reports _ m _ _)

theorem Rig.releaseSettled_reports (r : Rig) (m : Moment) (o : Output) (c : Chan) :
    r.Reports (r.releaseSettled m o c) :=
  (r.release_reports m o c).trans (Rig.settleDiscard_reports _ m _ _)

theorem Rig.endLeg_reports (r : Rig) (m : Moment) (id : Nat) : r.Reports (r.endLeg m id) := by
  obtain ⟨-, h⟩ | ⟨g, l, -, ⟨-, h⟩ | ⟨-, a, x, ha, hx, h⟩⟩ := r.endLeg_cases m id <;> rw [h]
  · exact .still rfl
  · exact .still rfl
  · have h1 : r.Reports a := by
      rw [ha]
      exact Offer.settled_reports m ((Rig.offerNoteOff_reports _ m _ _ _).after rfl)
    have h2 : r.Reports x.1 := by
      rw [hx]
      exact h1.trans (.still rfl)
    split
    · exact h2.trans (Rig.releaseSettled_reports _ m _ _)
    · exact h2

theorem Rig.endLegs_reports (r : Rig) (m : Moment) (ids : List Nat) : r.Reports (r.endLegs m ids) :=
  Rig.reports_foldl _ (fun r id => r.endLeg_reports m id) ids r

theorem Rig.endOldLegs_reports (r : Rig) (m : Moment) (o : Output) (c : Chan) :
    r.Reports (r.endOldLegs m o c) := by
  refine Rig.reports_foldl _ (fun r id => ?_) _ r
  unfold Rig.endOldLeg
  split
  · exact .still rfl
  · split
    · exact r.endLeg_reports m id
    · exact .still rfl

theorem Rig.expireSpill_reports (r : Rig) (m : Moment) (o : Output) (c : Chan) :
    r.Reports (r.expireSpill m o c) := by
  obtain h | ⟨-, h⟩ := r.expireSpill_cases m o c <;> rw [h]
  · exact r.endOldLegs_reports m o c
  · exact (r.endOldLegs_reports m o c).trans (.still rfl)

/-! ### Notes and the pedal (R48 to R53, R62 to R67) -/

theorem Rig.markSent_reports (r : Rig) (l : Leg) : r.Reports (r.markSent l) := by
  unfold Rig.markSent
  dsimp only
  split
  · exact (Rig.report_reports _ _ _).after rfl
  · exact .still rfl

theorem Rig.soundLeg_reports (r : Rig) (m : Moment) (l : Leg) : r.Reports (r.soundLeg m l) := by
  unfold Rig.soundLeg
  dsimp only
  have h := r.offerNoteOn_reports m l.output l.channel l.key l.velocity l.id
  split
  · exact (h.trans (Rig.markSent_reports _ l)).trans (Rig.settleDiscard_reports _ m _ _)
  · exact h

theorem Rig.create_reports (r : Rig) (m : Moment) (n : Input) (c : Chan) (k : Seven)
    (plans : List LegPlan) : r.Reports (r.create m n c k plans) :=
  (Rig.reports_foldl _ (fun r l => r.soundLeg_reports m l) _ _).after rfl

theorem Rig.strike_reports (r : Rig) (m : Moment) (n : Input) (c : Chan) (k : Seven)
    (plans : List LegPlan) : r.Reports (r.strike m n c k plans) := by
  unfold Rig.strike
  split
  · exact (r.endLegs_reports m _).trans (Rig.create_reports _ m n c k plans)
  · split
    · exact r.create_reports m n c k plans
    · split
      · exact (r.endLegs_reports m _).trans (Rig.create_reports _ m n c k plans)
      · exact (Rig.report_reports _ _ _).after rfl

theorem Rig.liftKey_reports (r : Rig) (m : Moment) (n : Input) (c : Chan) (k : Seven) :
    r.Reports (r.liftKey m n c k) := by
  unfold Rig.liftKey
  split
  · exact .still rfl
  · split
    · exact .still rfl
    · split
      · exact .still rfl
      · exact r.endLegs_reports m _

theorem Rig.movePedal_reports (r : Rig) (m : Moment) (n : Input) (c : Chan) (v : Seven) :
    r.Reports (r.movePedal m n c v) := by
  unfold Rig.movePedal
  split
  · exact .still rfl
  · split
    · exact (Rig.endLegs_reports _ m _).after rfl
    · exact .still rfl

theorem Rig.candidate_reports (r : Rig) (m : Moment) (echo : BitVec 4) (n : Input) (k v : Seven) (e : Layer)
    (o : Output) : r.Reports (r.candidate m echo n k v e o).1 := by
  unfold Rig.candidate
  split
  · exact .still rfl
  · split
    · exact (Rig.report_reports _ _ _).after rfl
    · exact .still rfl

/-- A fold that builds a list beside the rig only reports when each of its rounds does. -/
theorem Rig.reports_foldl_pair {α β : Type} (f : Rig × β → α → Rig × β)
    (hf : ∀ (x : Rig × β) (a : α), x.1.Reports (f x a).1) (l : List α) (x : Rig × β) :
    x.1.Reports (l.foldl f x).1 := by
  induction l generalizing x with
  | nil => exact .still rfl
  | cons a l ih => exact (hf x a).trans (ih (f x a))

theorem Rig.entryLegs_reports (r : Rig) (m : Moment) (echo : BitVec 4) (n : Input) (c : Chan) (k v : Seven)
    (e : Layer) : r.Reports (r.entryLegs m echo n c k v e).1 := by
  unfold Rig.entryLegs
  split
  · dsimp only
    have h : r.Reports (if e.isVoid echo n then r.reportVoid m n c e else r) := by
      split
      · exact (r.report_reports _ _).trans (Rig.record_reports _ _)
      · exact .still rfl
    generalize (if e.isVoid echo n then r.reportVoid m n c e else r) = t at h ⊢
    exact h.trans (Rig.reports_foldl_pair (fun (acc : Rig × List LegPlan) o =>
      ((acc.1.candidate m echo n k v e o).1, acc.2 ++ (acc.1.candidate m echo n k v e o).2))
      (fun x o => x.1.candidate_reports m echo n k v e o) _ (t, []))
  · exact .still rfl

theorem Rig.keepLeg_reports (x : Rig × List LegPlan) (l : LegPlan) : x.1.Reports (Rig.keepLeg x l).1 := by
  unfold Rig.keepLeg
  split
  · exact .still rfl
  · split
    · exact .still rfl
    · exact (Rig.report_reports _ _ _).after rfl

theorem Rig.buildLegs_reports (r : Rig) (m : Moment) (echo : BitVec 4) (bank : List Layer) (n : Input)
    (c : Chan) (k v : Seven) : r.Reports (r.buildLegs m echo bank n c k v).1 := by
  have h := Rig.reports_foldl_pair (fun (acc : Rig × List LegPlan) e =>
    ((acc.1.entryLegs m echo n c k v e).1, acc.2 ++ (acc.1.entryLegs m echo n c k v e).2))
    (fun x e => x.1.entryLegs_reports m echo n c k v e) (bank.filter fun e => e.isMatch n c k v) (r, [])
  exact h.trans (Rig.reports_foldl_pair Rig.keepLeg Rig.keepLeg_reports _ (_, []))

theorem Rig.routeLegs_reports (r : Rig) (m : Moment) (n : Input) (c : Chan) (k : Seven)
    (plans : List LegPlan) : r.Reports (r.routeLegs m n c k plans) := by
  unfold Rig.routeLegs
  split
  · exact .still rfl
  · exact (r.report_reports _ _).trans (Rig.strike_reports _ m n c k _)

/-! ### Program settings, settlement and transmission (R31, R35, R39, R81 to R84) -/

theorem Rig.sendProgram_reports (r : Rig) (m : Moment) (o : Output) (c : Chan) (p : Program) :
    r.Reports (r.sendProgram m o c p) :=
  (r.offerProgram_reports m o c p).trans ((Rig.settleDiscard_reports _ m _ _).after rfl)

theorem Rig.applySetting_reports (r : Rig) (m : Moment) (limit : Nat) (t : Setting) :
    r.Reports (r.applySetting m limit t) := by
  obtain ⟨-, -, h⟩ | ⟨-, h⟩ | ⟨a, -, -, -, h⟩ | ⟨-, -, h⟩ := r.applySetting_cases m limit t <;> rw [h]
  · exact .still rfl
  · exact r.sendProgram_reports m _ _ _
  · exact (r.sendProgram_reports m t.output a t.program).trans (.still rfl)
  · unfold Rig.leavePending
    dsimp only
    split
    · exact (Rig.expireSpill_reports _ m _ _).after rfl
    · exact .still rfl

theorem Rig.applySettings_reports (r : Rig) (m : Moment) (limit : Nat) (ts : List Setting) :
    r.Reports (r.applySettings m limit ts) :=
  (Rig.reports_foldl _ (fun r t => r.applySetting_reports m limit t) ts _).after rfl

theorem Rig.settleChan_reports (r : Rig) (m : Moment) (o : Output) (c : Chan) :
    r.Reports (r.settleChan m o c) := by
  unfold Rig.settleChan
  dsimp only
  have h1 : r.Reports (if (r.chan o c).panicOwed = true then
      (if (r.offerAllNotesOff m o c).appended = true then
        (r.offerAllNotesOff m o c).rig.setChan o c
          { (r.offerAllNotesOff m o c).rig.chan o c with panicOwed := false }
      else (r.offerAllNotesOff m o c).rig).settleDiscard discardFuel m
        (r.offerAllNotesOff m o c).discarded else r) := by
    split
    · refine Rig.Reports.trans ?_ (Rig.settleDiscard_reports _ m _ _)
      split
      · exact (r.offerAllNotesOff_reports m o c).trans (.still rfl)
      · exact r.offerAllNotesOff_reports m o c
    · exact .still rfl
  split
  · exact h1
  · exact h1.trans (Offer.settled_reports m (Rig.offerProgram_reports _ m o c _))

theorem Rig.settle_reports (r : Rig) (m : Moment) (o : Output) : r.Reports (r.settle m o) :=
  Rig.reports_foldl _ (fun r c => r.settleChan_reports m o c) _ r

theorem Rig.completeLine_reports (r : Rig) (m : Moment) (o : Output) : r.Reports (r.completeLine m o) := by
  unfold Rig.completeLine
  split
  · exact .still rfl
  · dsimp only
    refine Rig.Reports.trans ?_ (Rig.startLine_reports _ m o)
    split
    · exact (Rig.settle_reports _ m o).after rfl
    · exact .still rfl

theorem Rig.disable_reports (r : Rig) (o : Output) : r.Reports (r.disable o) := by
  refine (Rig.reports_foldl _ (fun r e => ?_) _ _).after rfl
  unfold Rig.holdPurged
  split
  · split <;> exact .still rfl
  · exact .still rfl

theorem Rig.enableMask_reports (r : Rig) (m : Moment) (mask : BitVec 6) :
    r.Reports (r.enableMask m mask) := by
  refine Rig.reports_foldl _ (fun r o => ?_) _ r
  unfold Rig.setEnable
  split
  · exact .still rfl
  · split
    · exact (Rig.settle_reports _ m o).after rfl
    · exact r.disable_reports o

/-! ### Panic, leaving SHOW and RESTART (R40, R41, R74, R76, R77) -/

theorem Rig.silence_reports (r : Rig) (m : Moment) (o : Output) : r.Reports (r.silence m o) :=
  Rig.reports_foldl _ (fun r c => r.append_reports m o (.allNotesOff c)) _ r

theorem Rig.panicOutput_reports (r : Rig) (m : Moment) (o : Output) (purged : List Urgent) :
    r.Reports (r.panicOutput m o purged) := by
  unfold Rig.panicOutput
  split
  · refine (r.silence_reports m o).trans (Rig.reports_foldl _ (fun r c => ?_) _ _)
    unfold Rig.panicChan
    split
    · exact .still rfl
    · exact r.append_reports m o _
  · refine Rig.reports_foldl _ (fun r c => ?_) _ r
    unfold Rig.panicHold
    split <;> exact .still rfl

theorem Rig.mapRecords_reports (r : Rig) (f : ChanRec → ChanRec) : r.Reports (r.mapRecords f) := .still rfl

theorem Rig.panic_reports (r : Rig) (m : Moment) (cause : PanicCause) : r.Reports (r.panic m cause) := by
  unfold Rig.panic
  dsimp only
  refine Rig.Reports.trans ?_ (Rig.record_reports _ _)
  refine Rig.Reports.trans ?_ (Rig.raise_reports _ _)
  refine Rig.Reports.trans ?_ (Rig.mapRecords_reports _ _)
  exact (Rig.reports_foldl _ (fun t o => t.panicOutput_reports m o _) _ _).after rfl

theorem Rig.leaveShow_reports (r : Rig) (m : Moment) : r.Reports (r.leaveShow m) :=
  (r.endLegs_reports m (legIds r.table)).trans (.still rfl)

theorem Rig.restart_reports (r : Rig) (m : Moment) : r.Reports (r.restart m) := by
  refine (Rig.reports_foldl _ (fun r o => ?_) _ _).after rfl
  split
  · exact r.silence_reports m o
  · exact .still rfl

end Sys2Proof.Machine
end

section
/-! What an edit of the records does: the canonical form and the ranges of the set memory, and the writes
that keep them (R2 to R8, R10, R13). -/
namespace Sys2Proof.Machine

/-! ### Stores with records in range -/

/-- A store is canonical and every record it lists passes `ok`. -/
structure Store.Sound {α : Type} [DecidableEq α] (d : α) (bound : Nat) (ok : α → Bool) (m : Store α) :
    Prop where
  wf : Store.wf d bound m = true
  listed : m.all (fun x => ok x.2) = true

/-- A write lists nothing but what was listed and the entry written. -/
theorem Store.mem_write {α : Type} [DecidableEq α] (d : α) (m : Store α) (k : Nat) (v : α) (x : Nat × α)
    (h : x ∈ Store.write d m k v) : x ∈ m ∨ x = (k, v) := by
  induction m with
  | nil =>
    unfold Store.write at h
    split at h
    · exact .inl h
    · exact .inr (List.mem_singleton.mp h)
  | cons e rest ih =>
    obtain ⟨j, w⟩ := e
    unfold Store.write at h
    split at h
    · obtain h | h := List.mem_cons.mp h
      · exact .inl (h ▸ List.mem_cons_self)
      · exact (ih h).imp_left (List.mem_cons_of_mem _)
    · split at h
      · split at h
        · exact .inl (List.mem_cons_of_mem _ h)
        · exact (List.mem_cons.mp h).symm.imp_left (List.mem_cons_of_mem _)
      · split at h
        · exact .inl h
        · exact (List.mem_cons.mp h).symm

/-- A write within the bound of a record in range keeps a store sound. -/
theorem Store.Sound.write {α : Type} [DecidableEq α] {d : α} {bound : Nat} {ok : α → Bool} {m : Store α}
    (h : Store.Sound d bound ok m) {k : Nat} {v : α} (hk : k < bound) (hv : ok v = true) :
    Store.Sound d bound ok (Store.write d m k v) := by
  refine ⟨Store.wf_write d bound m k v h.wf hk, List.all_eq_true.mpr fun x hx => ?_⟩
  obtain hx | rfl := Store.mem_write d m k v x hx
  · exact List.all_eq_true.mp h.listed x hx
  · exact hv

/-- The set memory is canonical and its records are in range: what O4 says each step keeps. -/
structure SetMemory.Sound (m : SetMemory) : Prop where
  header : m.header.inRange = true
  songs : Store.Sound Song.empty 64 Song.inRange m.songs
  scenes : Store.Sound Scene.empty 256 Scene.inRange m.scenes
  layers : Store.Sound Layer.empty 1024 Layer.inRange m.layers
  patterns : Store.Sound Pattern.empty 16 Pattern.inRange m.patterns
  samples : Store.wf 0 (4 * Config.samplePlaces) m.samples = true
  lengths : m.soundLengths.toList.all (fun len => len ≤ 4096) = true

theorem sound_iff (s : State) : s.mem.Sound ↔ s.mem.wf = true ∧ recordsInRange s = true := by
  simp only [SetMemory.wf, recordsInRange, Bool.and_eq_true]
  constructor
  · rintro ⟨h, ⟨w1, l1⟩, ⟨w2, l2⟩, ⟨w3, l3⟩, ⟨w4, l4⟩, w5, l5⟩
    exact ⟨⟨⟨⟨⟨w1, w2⟩, w3⟩, w4⟩, w5⟩, ⟨⟨⟨⟨h, l1⟩, l2⟩, l3⟩, l4⟩, l5⟩
  · rintro ⟨⟨⟨⟨⟨w1, w2⟩, w3⟩, w4⟩, w5⟩, ⟨⟨⟨⟨h, l1⟩, l2⟩, l3⟩, l4⟩, l5⟩
    exact ⟨h, ⟨w1, l1⟩, ⟨w2, l2⟩, ⟨w3, l3⟩, ⟨w4, l4⟩, w5, l5⟩

theorem SetMemory.pinReset_sound : SetMemory.pinReset.Sound :=
  (sound_iff State.reset).mpr ⟨SetMemory.pinReset_wf, by decide⟩

/-! ### Edits -/

/-- One edit of the set memory apart from its under-copy set: a record in range is written within its table,
or a part of a click sound, or the digest state changes. -/
inductive SetMemory.Edit (m : SetMemory) : SetMemory → Prop
  | header (h : Header) : h.inRange = true → m.Edit { m with header := h }
  | song (i : Nat) (r : Song) : i < 64 → r.inRange = true →
      m.Edit { m with songs := Store.write Song.empty m.songs i r }
  | scene (i : Nat) (r : Scene) : i < 256 → r.inRange = true →
      m.Edit { m with scenes := Store.write Scene.empty m.scenes i r }
  | layer (i : Nat) (r : Layer) : i < 1024 → r.inRange = true →
      m.Edit { m with layers := Store.write Layer.empty m.layers i r }
  | pattern (i : Nat) (r : Pattern) : i < 16 → r.inRange = true →
      m.Edit { m with patterns := Store.write Pattern.empty m.patterns i r }
  | soundLength (i : Fin 4) (len : Nat) : len ≤ 4096 →
      m.Edit { m with soundLengths := m.soundLengths.set i len }
  | samples (place : Nat) (vs : List (BitVec 16)) : place + vs.length ≤ 4 * Config.samplePlaces →
      m.Edit { m with samples := writeSamples place vs m.samples }
  | digest (d : Option Digest) : m.Edit { m with digest := d }

theorem SetMemory.Edit.sound {m n : SetMemory} (e : m.Edit n) (h : m.Sound) : n.Sound := by
  cases e with
  | header x hx => exact { h with header := hx }
  | song i r hi hr => exact { h with songs := h.songs.write hi hr }
  | scene i r hi hr => exact { h with scenes := h.scenes.write hi hr }
  | layer i r hi hr => exact { h with layers := h.layers.write hi hr }
  | pattern i r hi hr => exact { h with patterns := h.patterns.write hi hr }
  | soundLength i len hl =>
    refine { h with lengths := List.all_eq_true.mpr fun x hx => ?_ }
    rw [Vector.toList_set] at hx
    obtain hx | rfl := List.mem_or_eq_of_mem_set hx
    · exact List.all_eq_true.mp h.lengths x hx
    · simpa using hl
  | samples place vs hb => exact { h with samples := wf_writeSamples _ place vs _ h.samples hb }
  | digest d => exact { h with }

theorem SetMemory.Edit.underCopy {m n : SetMemory} (e : m.Edit n) : n.underCopy = m.underCopy := by
  cases e <;> rfl

/-- Only the under-copy set differs. -/
theorem SetMemory.Sound.setUnderCopy {m : SetMemory} (h : m.Sound) (u : Option UnderCopy) :
    SetMemory.Sound { m with underCopy := u } := { h with }

/-! ### Bodies in range (R10) -/

/-- What passes a check passes it. -/
theorem passes_of_checked {α : Type} {ok : α → Bool} {r x : α}
    (h : (if ok r = true then some r else none) = some x) : ok x = true := by
  obtain ⟨hr, hx⟩ := Option.ite_none_right_eq_some.mp h
  cases hx
  exact hr

theorem decodeHeader_inRange {body : List Byte} {h : Header} (hd : decodeHeader body = some h) :
    h.inRange = true := passes_of_checked hd

theorem decodeSong_inRange {body : List Byte} {r : Song} (hd : decodeSong body = some r) :
    r.inRange = true := passes_of_checked hd

theorem decodeLayer_inRange {body : List Byte} {r : Layer} (hd : decodeLayer body = some r) :
    r.inRange = true := passes_of_checked hd

theorem decodeScene_inRange {body : List Byte} {r : Scene} (hd : decodeScene body = some r) :
    r.inRange = true := by
  unfold decodeScene at hd
  dsimp only at hd
  split at hd
  · split at hd
    · exact passes_of_checked hd
    · cases hd
  · cases hd

theorem decodePattern_inRange {body : List Byte} {r : Pattern} (hd : decodePattern body = some r) :
    r.inRange = true := by
  unfold decodePattern at hd
  dsimp only at hd
  split at hd
  · cases hd
  · exact passes_of_checked hd

theorem decodeSoundLength_le {body : List Byte} {len : Nat} (hd : decodeSoundLength body = some len) :
    len ≤ 4096 := by
  unfold decodeSoundLength at hd
  dsimp only at hd
  split at hd
  · next hr => cases hd; exact hr
  · cases hd

@[simp] theorem decodeSamples_length (n : Nat) (bs : List Byte) : (decodeSamples n bs).length = n := by
  induction n generalizing bs with
  | zero => rfl
  | succ n ih => simp [decodeSamples, ih]

theorem decodeIndex_eq_some {n v : Nat} {i : Fin n} : decodeIndex n v = some i ↔ v = i.val := by
  unfold decodeIndex
  split
  · next h => simp [Fin.ext_iff]
  · next h => simp; omega

theorem decodeIndex_eq_none {n v : Nat} : decodeIndex n v = none ↔ n ≤ v := by
  unfold decodeIndex
  split
  · next h => simpa using h
  · next h => simpa using h

theorem samplesFit_iff (offset count : Nat) :
    samplesFit offset count = true ↔ 1 ≤ count ∧ count ≤ 24 ∧ offset + count ≤ 4096 := by
  simp only [samplesFit, Config.samplePlaces, Bool.and_eq_true, decide_eq_true_eq]
  omega

/-! ### SET WRITE and the digest as edits (R10, R11, R13, R16, R17) -/

/-- A whole-record write that is not refused is an edit. -/
theorem SetMemory.writeRecord_edit {m n : SetMemory} {mode : Mode} {kind i : Nat} {body : List Byte}
    (h : m.writeRecord mode kind i body = .ok n) : m.Edit n := by
  unfold SetMemory.writeRecord at h
  split at h
  · split at h
    · split at h
      · cases h
      · next hd =>
        split at h
        · cases h
        · cases h; exact .header _ (decodeHeader_inRange hd)
    · cases h
  · split at h
    · next hi =>
      split at h
      · cases h
      · next hd => cases h; exact .song i _ hi (decodeSong_inRange hd)
    · cases h
  · split at h
    · next hi =>
      split at h
      · cases h
      · next hd =>
        split at h
        · cases h
        · cases h; exact .scene i _ hi (decodeScene_inRange hd)
    · cases h
  · split at h
    · next hi =>
      split at h
      · cases h
      · next hd =>
        split at h
        · cases h
        · cases h; exact .layer i _ hi (decodeLayer_inRange hd)
    · cases h
  · split at h
    · next hi =>
      split at h
      · cases h
      · next hd => cases h; exact .pattern i _ hi (decodePattern_inRange hd)
    · cases h
  · cases h

/-- Marking the digest is an edit of the digest state. -/
theorem SetMemory.disturb_edit (m : SetMemory) (kind : Nat) : m.Edit (m.disturb kind) := .digest _

/-- Reading a word changes at most the digest state (R17). -/
theorem SetMemory.readDigest_edit (m : SetMemory) : m.readDigest = m ∨ m.Edit m.readDigest := by
  unfold SetMemory.readDigest
  split
  · exact .inl rfl
  · split
    · exact .inl rfl
    · split
      · exact .inr (.digest _)
      · exact .inr (.digest _)

end Sys2Proof.Machine
end

section
/-! What the operations of the part do to the set memory, the staged slot and the standby bank: one relation
for the moves of the three, and one for what every operation between two requests does to the state. -/
namespace Sys2Proof.Machine

/-! ### Moves of the set memory, the slot and the standby bank (R11, R44, R95, R105 to R109) -/

/-- One move of the set memory, the staged slot and the standby bank. -/
inductive SlotMove (s t : State) : Prop
  /-- Nothing of the three changes. -/
  | still (mem : t.mem = s.mem) (slot : t.scene.staged = s.scene.staged) (bank : t.router = s.router)
  /-- An edit of the records or of the digest. -/
  | edited (mem : s.mem.Edit t.mem) (slot : t.scene.staged = s.scene.staged) (bank : t.router = s.router)
  /-- The slot is emptied, and with it the under-copy set and the standby bank. -/
  | emptied (mem : t.mem = { s.mem with underCopy := none }) (slot : t.scene.staged = none)
      (fill : t.router.fill = .empty) (bank : t.router.standby = [])
  /-- A change enters the slot and its records are under copy. -/
  | entered (c : Change) (prep : c.preparation = .preparing)
      (mem : t.mem =
        { s.mem with underCopy := some ⟨c.target.record, c.copy.layerFirst, c.copy.layerCount⟩ })
      (slot : t.scene.staged = some c) (fill : t.router.fill = .filling)
  /-- A preparation completes. -/
  | filled (c : Change) (prep : c.preparation = .ready) (mem : t.mem = { s.mem with underCopy := none })
      (slot : t.scene.staged = some c) (fill : t.router.fill = .filled)
  /-- A READY change is taken. -/
  | taken (c : Change) (held : s.scene.staged = some c) (prep : c.preparation = .ready)
      (mem : t.mem = s.mem) (slot : t.scene.staged = none) (fill : t.router.fill = .empty)
      (bank : t.router.standby = [])
  /-- Pin reset. -/
  | reset (mem : t.mem = SetMemory.pinReset) (slot : t.scene.staged = none) (bank : t.router = Router.clear)

/-- Moves one after another. -/
abbrev SlotMoves : State → State → Prop := Relation.ReflTransGen SlotMove

/-- Every move keeps the set memory sound. -/
theorem SlotMove.sound {s t : State} (h : SlotMove s t) (k : s.mem.Sound) : t.mem.Sound := by
  cases h with
  | still mem => exact mem ▸ k
  | edited mem => exact mem.sound k
  | emptied mem => exact mem ▸ k.setUnderCopy _
  | entered c _ mem => exact mem ▸ k.setUnderCopy _
  | filled c _ mem => exact mem ▸ k.setUnderCopy _
  | taken c _ _ mem => exact mem ▸ k
  | reset mem => exact mem ▸ SetMemory.pinReset_sound

theorem SlotMoves.sound {s t : State} (h : SlotMoves s t) (k : s.mem.Sound) : t.mem.Sound := by
  induction h with
  | refl => exact k
  | tail _ move ih => exact move.sound ih

/-! What agreement says of a slot that is empty, PREPARING or READY. -/

theorem slotInStep_none {s : State} (h : s.scene.staged = none) :
    slotInStep s ↔ s.mem.underCopy = none ∧ s.router.fill = .empty ∧ s.router.standby = [] := by
  simp [slotInStep, h]

theorem slotInStep_preparing {s : State} {c : Change} (h : s.scene.staged = some c)
    (hp : c.preparation = .preparing) :
    slotInStep s ↔ s.mem.underCopy = some ⟨c.target.record, c.copy.layerFirst, c.copy.layerCount⟩ ∧
      s.router.fill = .filling := by
  simp [slotInStep, h, hp]

theorem slotInStep_ready {s : State} {c : Change} (h : s.scene.staged = some c)
    (hp : c.preparation = .ready) :
    slotInStep s ↔ s.mem.underCopy = none ∧ s.router.fill = .filled := by
  simp [slotInStep, h, hp]

/-- Agreement rests on the under-copy set, the slot and the bank alone. -/
theorem slotInStep_congr {s t : State} (hu : t.mem.underCopy = s.mem.underCopy)
    (hs : t.scene.staged = s.scene.staged) (hr : t.router = s.router) (k : slotInStep s) : slotInStep t := by
  unfold slotInStep at k ⊢
  rw [hu, hs, hr]
  exact k

/-- Every move keeps the slot, the under-copy set and the standby bank in agreement. -/
theorem SlotMove.slotInStep {s t : State} (h : SlotMove s t) (k : slotInStep s) : slotInStep t := by
  cases h with
  | still mem slot bank => exact slotInStep_congr (by rw [mem]) slot bank k
  | edited mem slot bank => exact slotInStep_congr mem.underCopy slot bank k
  | emptied mem slot fill bank => exact (slotInStep_none slot).mpr ⟨by rw [mem], fill, bank⟩
  | entered c prep mem slot fill => exact (slotInStep_preparing slot prep).mpr ⟨by rw [mem], fill⟩
  | filled c prep mem slot fill => exact (slotInStep_ready slot prep).mpr ⟨by rw [mem], fill⟩
  | taken c held prep mem slot fill bank =>
    obtain ⟨hu, -⟩ := (slotInStep_ready held prep).mp k
    exact (slotInStep_none slot).mpr ⟨by rw [mem, hu], fill, bank⟩
  | reset mem slot bank =>
    exact (slotInStep_none slot).mpr ⟨by rw [mem]; rfl, by rw [bank]; rfl, by rw [bank]; rfl⟩

theorem SlotMoves.slotInStep {s t : State} (h : SlotMoves s t) (k : slotInStep s) : slotInStep t := by
  induction h with
  | refl => exact k
  | tail _ move ih => exact move.slotInStep ih

/-! ### Deeds: what an operation does that answers no request -/

/-- An operation of the part that answers no request: the set memory, the slot and the bank move, the desk
hears reports, and stage time, the sampled lines, the queue of commands and the phase owed stay. -/
structure Deeds (s t : State) : Prop where
  slot : SlotMoves s t
  desk : s.desk.Hears t.desk
  time : t.time = s.time
  pins : t.pins = s.pins
  pending : t.pending = s.pending
  owed : t.tempo.phaseOwed = s.tempo.phaseOwed

theorem Deeds.refl (s : State) : Deeds s s := ⟨.refl, .refl, rfl, rfl, rfl, rfl⟩

theorem Deeds.trans {s t u : State} (h : Deeds s t) (k : Deeds t u) : Deeds s u :=
  ⟨h.slot.trans k.slot, h.desk.trans k.desk, k.time.trans h.time, k.pins.trans h.pins,
    k.pending.trans h.pending, k.owed.trans h.owed⟩

/-- The blocks that no move of the slot, no report, no clock and no line is in. -/
abbrev quietBlocks : List Block := [.outputs, .records, .table, .pedals, .legs, .inputs, .tempo, .click]

/-- An operation on quiet blocks that leaves the phase owed. -/
theorem Deeds.of_sameBut {s t : State} (h : SameBut quietBlocks s t)
    (ho : t.tempo.phaseOwed = s.tempo.phaseOwed) : Deeds s t := by
  have hm : t.mem = s.mem := h .mem (by decide)
  have hd : t.desk = s.desk := h .desk (by decide)
  have hr : t.router = s.router := h .router (by decide)
  have hs : t.scene = s.scene := h .scene (by decide)
  exact ⟨.single (.still hm (by rw [hs]) hr), by rw [hd], h .time (by decide), h .pins (by decide),
    h .pending (by decide), ho⟩

/-! ### Setters and reports -/

theorem State.setTempo_deeds (s : State) (x : Tempo) (h : x.phaseOwed = s.tempo.phaseOwed) :
    Deeds s (s.setTempo x) := .of_sameBut ((s.setTempo_sameBut x).mono (by simp)) h

theorem State.setClick_deeds (s : State) (x : ClickGen) : Deeds s (s.setClick x) :=
  .of_sameBut ((s.setClick_sameBut x).mono (by simp)) rfl

theorem State.setInputs_deeds (s : State) (x : Vector Deframer 4) : Deeds s (s.setInputs x) :=
  .of_sameBut ((s.setInputs_sameBut x).mono (by simp)) rfl

theorem State.setScene_deeds (s : State) (x : SceneEngine) (h : x.staged = s.scene.staged) :
    Deeds s (s.setScene x) := ⟨.single (.still rfl h rfl), .refl, rfl, rfl, rfl, rfl⟩

theorem State.setRig_deeds (s : State) (r : Rig) (h : s.rig.Reports r) : Deeds s (s.setRig r) :=
  ⟨.single (.still rfl rfl rfl), h, rfl, rfl, rfl, rfl⟩

/-- A desk that hears reports. -/
theorem State.setDesk_deeds (s : State) (d : Desk) (h : s.desk.Hears d) : Deeds s (s.setDesk d) :=
  ⟨.single (.still rfl rfl rfl), h, rfl, rfl, rfl, rfl⟩

theorem State.raise_deeds (s : State) (n : Notice) : Deeds s (s.raise n) :=
  s.setDesk_deeds _ (s.desk.hears_raise n)

theorem State.raiseFor_deeds (s : State) (g : Origin) (n : Notice) : Deeds s (s.raiseFor g n) :=
  s.setDesk_deeds _ (s.desk.hears_raiseFor g n)

theorem State.report_deeds (s : State) (ev : CounterEvent) (named : Nat) : Deeds s (s.report ev named) :=
  s.setDesk_deeds _ (.single (.count ev named))

theorem State.record_deeds (s : State) (x : CaptureRecord) : Deeds s (s.record x) :=
  s.setDesk_deeds _ (.single (.capture x))

theorem State.raisePosition_deeds (s : State) : Deeds s s.raisePosition := s.raise_deeds _

theorem State.reportLock_deeds (s : State) : Deeds s s.reportLock :=
  (s.raise_deeds _).trans (State.record_deeds _ _)

theorem State.songStart_deeds (s : State) : Deeds s s.songStart := by
  unfold State.songStart
  split
  · exact s.raise_deeds _
  · exact .refl s

/-! ### The staged slot (R95 to R98, R105 to R107) -/

theorem State.reportSuperseded_deeds (s : State) (c : Change) (cause : SupersedeCause) :
    Deeds s (s.reportSuperseded c cause) := (s.raiseFor_deeds _ _).trans (State.record_deeds _ _)

theorem State.dropStaged_deeds (s : State) : Deeds s s.dropStaged :=
  ⟨.single (.emptied rfl rfl rfl rfl), .refl, rfl, rfl, rfl, rfl⟩

theorem State.stage_deeds (s : State) (g : Origin) (t : Nat × Nat) (q : Option Quantize) (tag : Byte) :
    Deeds s (s.stage g t q tag) := ⟨.single (.entered _ rfl rfl rfl rfl), .refl, rfl, rfl, rfl, rfl⟩

theorem State.accept_deeds (s : State) (g : Origin) (t : Nat × Nat) (q : Option Quantize) (tag : Byte) :
    Deeds s (s.accept g t q tag) := by
  unfold State.accept
  dsimp only
  refine Deeds.trans ?_ (State.stage_deeds _ g t q tag)
  split
  · exact .refl s
  · exact s.dropStaged_deeds.trans (State.reportSuperseded_deeds _ _ _)

theorem State.cueRequest_deeds (s : State) (ask : SceneAsk) (tag : Byte) : Deeds s (s.cueRequest ask tag) := by
  unfold State.cueRequest
  split
  · exact s.accept_deeds _ _ _ _
  · exact s.record_deeds _

theorem State.modeRequest_deeds (s : State) : Deeds s s.modeRequest := by
  unfold State.modeRequest
  split
  · exact s.accept_deeds _ _ _ _
  · exact (s.raiseFor_deeds _ _).trans (State.record_deeds _ _)

theorem State.failPreparation_deeds (s : State) (c : Change) (reason : Reason) (offset : Nat) :
    Deeds s (s.failPreparation c reason offset) :=
  (s.dropStaged_deeds.trans (State.raiseFor_deeds _ _ _)).trans (State.record_deeds _ _)

/-! ### The take (R109 to R112) -/

theorem State.takeReport_desk (s : State) (c : Change) (started : Bool) :
    s.desk.Hears (s.takeReport c started).desk := by
  unfold State.takeReport
  dsimp only
  refine Relation.ReflTransGen.trans ?_ (State.raisePosition_deeds _).desk
  refine Relation.ReflTransGen.trans ?_ (State.report_deeds _ .sceneTakes 0).desk
  refine Relation.ReflTransGen.trans ?_ (State.record_deeds _ _).desk
  have h := (State.raise_deeds (s.setScene { s.scene with staged := none }) (.sceneTaken c.target.song
    c.target.scene (s.mem.song c.target.song).tag s.scene.generation c.origin)).desk
  split
  · exact h.trans (State.songStart_deeds _).desk
  · exact h

theorem State.takeReport_scene (s : State) (c : Change) (started : Bool) :
    (s.takeReport c started).scene = { s.scene with staged := none } := by
  have hs : ∀ t : State, t.songStart.scene = t.scene := fun t => t.songStart_sameBut .scene (by decide)
  simp only [State.takeReport, State.raisePosition, State.raise, State.report, State.record,
    State.setDesk_scene]
  split
  · simp only [hs, State.setDesk_scene, State.setScene_scene]
  · simp only [State.setDesk_scene, State.setScene_scene]

/-- A take empties the slot and makes the standby bank the active one (R45, R109, R112). -/
theorem State.take_slot (s : State) (c : Change) :
    (s.take c).scene.staged = none ∧
      (s.take c).router = ⟨s.router.standby, [], .empty, 0, s.router.standbyEcho⟩ := by
  unfold State.take
  dsimp only
  refine ⟨?_, ?_⟩
  · rw [State.takeReport_scene]
  · rw [State.takeReport_sameBut _ c _ .router (by decide)]
    rfl

theorem State.take_owed (s : State) (c : Change) : (s.take c).tempo.phaseOwed = s.tempo.phaseOwed := by
  have hh : ∀ (t : State) (i : Nat), (t.handover i).tempo.phaseOwed = t.tempo.phaseOwed := fun t i => by
    simp only [State.handover, State.setTempo_tempo, Tempo.newDivision]
    split <;> rfl
  unfold State.take
  dsimp only
  rw [State.takeReport_sameBut _ c _ .tempo (by decide)]
  exact hh _ _

theorem State.takeBanks_desk (s : State) (c : Change) : s.desk.Hears (s.takeBanks c).desk :=
  s.rig.endLegs_reports s.moment _

theorem State.takePrograms_desk (s : State) (c : Change) : s.desk.Hears (s.takePrograms c).desk :=
  s.rig.applySettings_reports s.moment _ _

theorem State.take_desk (s : State) (c : Change) : s.desk.Hears (s.take c).desk := by
  have hd : ∀ (t : State) (i : Nat) (h : Bool), (((t.takeTempo c).handover i).takePosition h c).desk = t.desk :=
    fun _ _ _ => rfl
  unfold State.take
  dsimp only
  refine Relation.ReflTransGen.trans ?_ (State.takeReport_desk _ c _)
  rw [hd]
  exact (s.takeBanks_desk c).trans (State.takePrograms_desk _ c)

/-- The take of the READY change of the slot. -/
theorem State.take_deeds (s : State) (c : Change) (h : s.scene.staged = some c)
    (hp : c.preparation = .ready) : Deeds s (s.take c) := by
  have hf := s.take_sameBut c
  obtain ⟨hs, hr⟩ := s.take_slot c
  exact ⟨.single (.taken c h hp (hf .mem (by decide)) hs (by rw [hr]) (by rw [hr])), s.take_desk c,
    hf .time (by decide), hf .pins (by decide), hf .pending (by decide), s.take_owed c⟩

/-- The take of what may be taken, if anything may. -/
theorem State.takeable_deeds (s : State) (f : Quantize → Bool) :
    Deeds s (match s.scene.takeable f with
      | some c => s.take c
      | none => s) := by
  split
  · next c h =>
    obtain ⟨hs, hp, -, -⟩ := (s.scene.takeable_spec f c).mp h
    exact s.take_deeds c hs hp
  · exact .refl s

end Sys2Proof.Machine
end

section
/-! What preparation, beat boundaries, references, due events and the instrument lines do, as deeds. -/
namespace Sys2Proof.Machine

/-! ### Preparation (R105 to R107) -/

theorem State.completePreparation_deeds (s : State) (c : Change) : Deeds s (s.completePreparation c) := by
  unfold State.completePreparation
  dsimp only
  refine Deeds.trans ?_ (State.takeable_deeds _ _)
  refine Deeds.trans ?_ (State.raiseFor_deeds _ _ _)
  exact ⟨.single (.filled { c with preparation := .ready } rfl rfl rfl rfl), .refl, rfl, rfl, rfl, rfl⟩

theorem State.endPreparation_deeds (s : State) : Deeds s s.endPreparation := by
  unfold State.endPreparation
  split
  · exact .refl s
  · split
    · split
      · exact s.completePreparation_deeds _
      · exact s.failPreparation_deeds _ _ _
    · exact .refl s

theorem State.preparationDue_deeds (s : State) : Deeds s s.preparationDue := by
  unfold State.preparationDue
  split
  · exact s.endPreparation_deeds
  · exact .refl s

theorem State.preparationEnds_deeds (s : State) (passes : Bool) : Deeds s (s.preparationEnds passes) := by
  unfold State.preparationEnds
  split
  · exact .refl s
  · split
    · exact s.endPreparation_deeds
    · exact .refl s

/-! ### Beat and click boundaries (R113, R115, R123, R124) -/

theorem State.tempoBeat_deeds (s : State) : Deeds s s.tempoBeat := by
  unfold State.tempoBeat
  dsimp only
  split
  · exact s.setTempo_deeds _ rfl
  · exact s.setTempo_deeds _ rfl
  · exact s.setTempo_deeds _ rfl
  · split
    · exact s.setTempo_deeds _ rfl
    · refine Deeds.trans ?_ (State.reportLock_deeds _)
      exact s.setTempo_deeds _ rfl

theorem State.handOff_deeds (s : State) : Deeds s s.handOff := by
  refine Deeds.trans ?_ (State.raisePosition_deeds _)
  refine Deeds.trans ?_ (State.setTempo_deeds _ _ rfl)
  exact s.setClick_deeds _

theorem SceneEngine.countBeat_staged (e : SceneEngine) : e.countBeat.staged = e.staged := by
  unfold SceneEngine.countBeat
  split <;> rfl

theorem State.sceneBeat_deeds (s : State) : Deeds s s.sceneBeat := by
  unfold State.sceneBeat
  dsimp only
  refine Deeds.trans ?_ (State.handOff_deeds _)
  refine Deeds.trans ?_ (State.takeable_deeds _ _)
  have h := s.setScene_deeds s.scene.countBeat s.scene.countBeat_staged
  split
  · exact h.trans (State.songStart_deeds _)
  · exact h

theorem State.beat_deeds (s : State) : Deeds s s.beat := s.tempoBeat_deeds.trans (State.sceneBeat_deeds _)

theorem State.clickIfRisen_deeds (s : State) : Deeds s s.clickIfRisen := by
  unfold State.clickIfRisen
  dsimp only
  split
  · refine Deeds.trans ?_ (State.setClick_deeds _ _)
    exact s.setTempo_deeds _ rfl
  · exact .refl s

theorem State.advancePhase_deeds (s : State) (inc : Nat) : Deeds s (s.advancePhase inc) := by
  have h := s.setTempo_deeds (s.tempo.advanced inc) rfl
  unfold State.advancePhase
  split
  · exact h.trans (State.beat_deeds _)
  · exact h.trans (State.clickIfRisen_deeds _)

theorem State.realign_deeds (s : State) (next : Bool) : Deeds s (s.realign next) := by
  have h : ∀ x : Position, Deeds s (s.setScene { s.scene with position := x }) := fun x =>
    s.setScene_deeds _ rfl
  unfold State.realign
  dsimp only
  split
  · refine Deeds.trans ?_ (State.raisePosition_deeds _)
    split
    · exact (h _).trans (State.report_deeds _ _ _)
    · exact h _
  · split
    · exact s.raisePosition_deeds
    · refine Deeds.trans ?_ (State.raisePosition_deeds _)
      have k := (h { s.scene.position with
        beat := 0, bar := nextBar s.scene.position.bar, newBarOwed := false }).trans
          (State.report_deeds _ .barSlips 0)
      split
      · exact k.trans (State.songStart_deeds _)
      · exact k

/-! ### References, taps and marks (R130 to R142) -/

theorem State.setReference_deeds (s : State) (x : Reference) : Deeds s (s.setReference x) :=
  s.setTempo_deeds _ rfl

theorem State.setHoldover_deeds (s : State) : Deeds s s.setHoldover := s.setReference_deeds _

theorem State.snap_deeds (s : State) : Deeds s s.snap := by
  have h := s.setTempo_deeds { s.tempo with phase := 0 } rfl
  unfold State.snap
  split
  · exact h.trans (State.beat_deeds _)
  · exact h

theorem State.lock_deeds (s : State) (m : Nat) : Deeds s (s.lock m) := by
  unfold State.lock
  dsimp only
  refine Deeds.trans ?_ (State.reportLock_deeds _)
  refine Deeds.trans ?_ (State.setHoldover_deeds _)
  refine Deeds.trans ?_ (State.setTempo_deeds _ _ rfl)
  refine Deeds.trans ?_ (State.snap_deeds _)
  exact s.setTempo_deeds _ rfl

theorem State.acquire_deeds (s : State) (m : Nat) : Deeds s (s.acquire m) := by
  unfold State.acquire
  dsimp only
  split
  · exact s.setReference_deeds _
  · split
    · split
      · exact s.setReference_deeds _
      · exact s.lock_deeds m
    · exact s.setReference_deeds _

theorem State.follow_deeds (s : State) (m : Nat) : Deeds s (s.follow m) := by
  unfold State.follow State.correctPhase
  dsimp only
  refine Deeds.trans ?_ (State.setReference_deeds _ _)
  refine Deeds.trans ?_ (State.clickIfRisen_deeds _)
  refine Deeds.trans ?_ (State.setTempo_deeds _ _ rfl)
  exact s.setTempo_deeds _ rfl

theorem State.outlier_deeds (s : State) : Deeds s s.outlier := by
  have h := s.report_deeds .referenceOutliers 0
  unfold State.outlier
  dsimp only
  split
  · exact h.trans (State.setReference_deeds _ _)
  · refine Deeds.trans ?_ (State.reportLock_deeds _)
    refine Deeds.trans ?_ (State.setTempo_deeds _ _ rfl)
    exact h

theorem State.countRef_deeds (s : State) : Deeds s s.countRef := s.setTempo_deeds _ rfl

theorem State.referenceBeat_deeds (s : State) (i : Option Nat) : Deeds s (s.referenceBeat i) := by
  have hc := s.countRef_deeds
  unfold State.referenceBeat
  split
  · exact .refl s
  · exact .refl s
  · split
    · exact s.acquire_deeds _
    · exact (s.setReference_deeds _).trans (State.report_deeds _ _ _)
  · exact hc.trans (State.setHoldover_deeds _)
  · split
    · exact (hc.trans (State.follow_deeds _ _)).trans (State.setHoldover_deeds _)
    · dsimp only
      have h := hc.trans (State.outlier_deeds _)
      split
      · exact h.trans (State.setHoldover_deeds _)
      · exact h
  · exact .refl s
  · split
    · dsimp only
      refine Deeds.trans ?_ (State.reportLock_deeds _)
      refine Deeds.trans ?_ (State.setHoldover_deeds _)
      refine Deeds.trans ?_ (State.setReference_deeds _ _)
      refine Deeds.trans ?_ (State.follow_deeds _ _)
      refine Deeds.trans ?_ (State.countRef_deeds _)
      exact s.setTempo_deeds _ rfl
    · exact s.outlier_deeds

theorem State.pulse_deeds (s : State) : Deeds s s.pulse := by
  unfold State.pulse
  dsimp only
  split
  · exact (s.setReference_deeds _).trans (State.referenceBeat_deeds _ _)
  · split
    · exact s.setReference_deeds _
    · exact (s.setReference_deeds _).trans (State.referenceBeat_deeds _ _)

theorem State.align_deeds (s : State) : Deeds s s.align := s.setReference_deeds _

theorem State.tap_deeds (s : State) : Deeds s s.tap := by
  unfold State.tap State.tapNow
  dsimp only
  split
  · split
    · exact s.setTempo_deeds _ rfl
    · split
      · exact s.setTempo_deeds _ rfl
      · split
        · exact .refl s
        · refine Deeds.trans ?_ (State.snap_deeds _)
          exact s.setTempo_deeds _ rfl
  · exact .refl s

theorem State.beatMark_deeds (s : State) (downbeat : Bool) : Deeds s (s.beatMark downbeat) := by
  unfold State.beatMark
  dsimp only
  split
  · split
    · exact s.pulse_deeds.trans (State.realign_deeds _ _)
    · exact s.pulse_deeds
  · exact .refl s

theorem State.expireHoldover_deeds (s : State) : Deeds s s.expireHoldover := by
  refine Deeds.trans ?_ (State.reportLock_deeds _)
  exact s.setTempo_deeds _ rfl

/-! ### Due events (R18, R31, R85, R125, R137, R155) -/

theorem State.lineDue_deeds (s : State) (o : Output) : Deeds s (s.lineDue o) := by
  unfold State.lineDue
  split
  · exact s.setRig_deeds _ (s.rig.completeLine_reports s.moment o)
  · exact .refl s

theorem State.beatLineDue_deeds (s : State) : Deeds s s.beatLineDue := by
  unfold State.beatLineDue
  split
  · split
    · exact s.setTempo_deeds _ rfl
    · exact .refl s
  · exact .refl s

theorem State.spillDue_deeds (s : State) (o : Output) (c : Chan) : Deeds s (s.spillDue o c) := by
  unfold State.spillDue
  split
  · split
    · exact s.setRig_deeds _ (s.rig.expireSpill_reports s.moment o c)
    · exact .refl s
  · exact .refl s

theorem State.holdoverStep_deeds (s : State) : Deeds s s.holdoverStep := by
  unfold State.holdoverStep
  split
  · exact s.expireHoldover_deeds
  · exact .refl s

theorem State.audioReturn_deeds (s : State) : Deeds s s.audioReturn := by
  unfold State.audioReturn
  split
  · exact s.setClick_deeds _
  · exact .refl s

/-- An edit of the set memory is a deed. -/
theorem State.setMem_deeds (s : State) (m : SetMemory) (h : s.mem.Edit m) : Deeds s (s.setMem m) :=
  ⟨.single (.edited h rfl rfl), .refl, rfl, rfl, rfl, rfl⟩

theorem State.digestDue_deeds (s : State) : Deeds s s.digestDue := by
  unfold State.digestDue
  split
  · split
    · exact (s.setMem_deeds _ (.digest none)).trans (State.setDesk_deeds _ _ (.single (.notice _ _)))
    · exact .refl s
  · exact .refl s

/-! ### The instrument lines (R20 to R28, R47 to R58) -/

theorem State.routeNoteOn_deeds (s : State) (n : Input) (c : Chan) (k v : Seven) :
    Deeds s (s.routeNoteOn n c k v) := by
  have h : Deeds s (s.setRig ((s.rig.buildLegs s.moment s.router.echo s.router.active n c k v).1.routeLegs
      s.moment n c k (s.rig.buildLegs s.moment s.router.echo s.router.active n c k v).2)) :=
    s.setRig_deeds _ ((s.rig.buildLegs_reports _ _ _ _ _ _ _).trans (Rig.routeLegs_reports _ _ _ _ _ _))
  unfold State.routeNoteOn
  dsimp only
  generalize s.setRig _ = t at h ⊢
  have k : Deeds s (match sceneCue (s.router.active.filter fun e => e.isMatch n c k v) with
      | some e => t.cueRequest e.cueAsk e.cueTag
      | none => t) := by
    split
    · exact h.trans (t.cueRequest_deeds _ _)
    · exact h
  split
  · exact k.trans (State.tap_deeds _)
  · exact k

theorem State.routeContinuous_deeds (s : State) (n : Input) (c : Chan) (e : ContinuousEvent) :
    Deeds s (s.routeContinuous n c e) :=
  s.setRig_deeds _ (Rig.reports_foldl _ (fun r _ => r.offerBulk_reports _ _ _ _ _) _ _)

theorem State.songSelect_deeds (s : State) (program : Seven) : Deeds s (s.songSelect program) := by
  unfold State.songSelect
  split
  · exact s.record_deeds _
  · exact s.cueRequest_deeds _ _

theorem State.deliver_deeds (s : State) (n : Input) (c : Chan) (e : LineEvent) :
    Deeds s (s.deliver n c e) := by
  unfold State.deliver
  split
  · cases e with
    | noteOn k v => exact s.routeNoteOn_deeds n c k v
    | noteOff k => exact s.setRig_deeds _ (s.rig.liftKey_reports _ _ _ _)
    | continuous e =>
      unfold State.deliverShow
      dsimp only
      split
      · exact s.setRig_deeds _ (s.rig.movePedal_reports _ _ _ _)
      · exact s.routeContinuous_deeds n c e
    | program p =>
      unfold State.deliverShow
      dsimp only
      split
      · exact s.songSelect_deeds p
      · exact .refl s
    | unused => exact .refl s
  · exact .refl s

theorem State.timing_deeds (s : State) (n : Input) (t : TimingOctet) : Deeds s (s.timing n t) := by
  unfold State.timing
  split
  · cases t with
    | clock => exact s.pulse_deeds
    | align => exact s.align_deeds
    | stop => exact .refl s
  · exact .refl s

theorem State.setDeframer_deeds (s : State) (n : Input) (d : Deframer) : Deeds s (s.setDeframer n d) :=
  s.setInputs_deeds _

theorem State.framingErrorIf_deeds (s : State) (b : Bool) (n : Input) : Deeds s (s.framingErrorIf b n) := by
  unfold State.framingErrorIf
  split
  · exact s.report_deeds _ _
  · exact .refl s

theorem State.dataOctet_deeds (s : State) (n : Input) (v : Seven) : Deeds s (s.dataOctet n v) := by
  unfold State.dataOctet
  dsimp only
  split
  · exact s.report_deeds _ _
  · exact .refl s
  · split
    · exact s.deliver_deeds _ _ _
    · split
      · exact s.setDeframer_deeds _ _
      · exact (s.setDeframer_deeds _ _).trans (State.deliver_deeds _ _ _ _)

theorem State.octetArrives_deeds (s : State) (n : Input) (b : Byte) : Deeds s (s.octetArrives n b) := by
  unfold State.octetArrives
  dsimp only
  split
  · exact s.dataOctet_deeds n _
  · exact (s.setDeframer_deeds _ _).trans (State.framingErrorIf_deeds _ _ _)
  · exact (s.setDeframer_deeds _ _).trans (State.framingErrorIf_deeds _ _ _)
  · exact s.timing_deeds n _

theorem State.eventArrives_deeds (s : State) (n : Input) (kind : ChannelKind) (c : Chan) (x y : Seven) :
    Deeds s (s.eventArrives n kind c x y) :=
  ((s.setDeframer_deeds _ _).trans (State.framingErrorIf_deeds _ _ _)).trans (State.deliver_deeds _ _ _ _)

theorem State.continuousArrives_deeds (s : State) (n : Input) (c : Chan) (e : ContinuousEvent) :
    Deeds s (s.continuousArrives n c e) := by
  cases e <;> exact s.eventArrives_deeds _ _ _ _ _

/-! ### Panic, clocks and the audio lines (R73, R74, R152, R155) -/

theorem State.panic_deeds (s : State) (cause : PanicCause) : Deeds s (s.panic cause) :=
  s.setRig_deeds _ (s.rig.panic_reports s.moment cause)

theorem State.samplePeriod_deeds (s : State) : Deeds s s.samplePeriod := by
  unfold State.samplePeriod
  split
  · exact s.setClick_deeds _
  · exact .refl s

theorem State.audioLoss_deeds (s : State) : Deeds s s.audioLoss := by
  unfold State.audioLoss
  split
  · exact s.setClick_deeds _
  · exact .refl s

theorem State.openRun_deeds (s : State) : Deeds s s.openRun := by
  unfold State.openRun
  split
  · exact s.setClick_deeds _
  · exact .refl s

theorem State.endRun_deeds (s : State) : Deeds s s.endRun := by
  unfold State.endRun
  split
  · exact s.setClick_deeds _
  · exact .refl s

end Sys2Proof.Machine
end

section
/-! What the handling of a request does: the answer at its port, the deeds of its row, and the requests that
wait at the other port left as they are. -/
namespace Sys2Proof.Machine

/-! ### Handled requests -/

/-- A request of port `p` is handled: the set memory, the slot and the bank move, and stage time, the sampled
lines, the queue of commands and the requests of the other port stay. -/
structure Handled (p : Port) (s t : State) : Prop where
  slot : SlotMoves s t
  others : ∀ q, q ≠ p → s.desk.sameQueue t.desk q
  time : t.time = s.time
  pins : t.pins = s.pins
  pending : t.pending = s.pending

theorem Handled.trans {p : Port} {s t u : State} (h : Handled p s t) (k : Handled p t u) : Handled p s u :=
  ⟨h.slot.trans k.slot, fun q hq => Desk.sameQueue_trans (h.others q hq) (k.others q hq),
    k.time.trans h.time, k.pins.trans h.pins, k.pending.trans h.pending⟩

/-- Deeds are part of the handling of any request. -/
theorem Deeds.handled {s t : State} (h : Deeds s t) (p : Port) : Handled p s t :=
  ⟨h.slot, fun q _ => h.desk.sameQueue q, h.time, h.pins, h.pending⟩

/-- Deeds follow what was handled. -/
theorem Handled.and {p : Port} {s t u : State} (h : Handled p s t) (k : Deeds t u) : Handled p s u :=
  h.trans (k.handled p)

/-- An update of the desk that leaves the requests of the other port waiting. -/
theorem State.setDesk_handled (s : State) (p : Port) (d : Desk)
    (h : ∀ q, q ≠ p → s.desk.sameQueue d q) : Handled p s (s.setDesk d) :=
  ⟨.single (.still rfl rfl rfl), h, rfl, rfl, rfl⟩

theorem State.setPort_handled (s : State) (p : Port) (x : PortState) : Handled p s (s.setPort p x) :=
  s.setDesk_handled p _ fun _ hq => s.desk.setPort_sameQueue x hq

theorem State.answer_handled (s : State) (p : Port) (st : Status) (payload : List Byte) :
    Handled p s (s.answer p st payload) := s.setPort_handled p _

/-- Any update of the Tempo Engine, which may drop the phase owed. -/
theorem State.setTempo_handled (s : State) (p : Port) (x : Tempo) : Handled p s (s.setTempo x) :=
  ⟨.single (.still rfl rfl rfl), fun _ _ => ⟨rfl, rfl⟩, rfl, rfl, rfl⟩

/-! ### The set memory (R10 to R17) -/

section
variable (p : Port) (r : Request) (s : State)

theorem State.setWriteRequest_handled : Handled p s (s.setWriteRequest p r) := by
  unfold State.setWriteRequest
  split
  · exact s.answer_handled p _ _
  · next m h =>
    refine Handled.and (t := (s.answer p .done []).setMem m) ?_ (State.setMem_deeds _ _ (m.disturb_edit _))
    exact (s.answer_handled p _ _).and (State.setMem_deeds _ m (SetMemory.writeRecord_edit h))

/-- The part of a click sound is stored, the digest marked and the voices stopped. -/
theorem State.storeSound_deeds (m : SetMemory) (i : Fin 4) (h : s.mem.Edit m) :
    Deeds s (s.storeSound m i) := by
  refine Deeds.trans ?_ (State.setClick_deeds _ _)
  exact (s.setMem_deeds m h).trans (State.setMem_deeds (s.setMem m) _ (m.disturb_edit 5))

theorem State.soundLengthRequest_handled : Handled p s (s.soundLengthRequest p r) := by
  unfold State.soundLengthRequest
  split
  · next i len _ hl =>
    exact (s.answer_handled p _ _).and (State.storeSound_deeds _ _ i (.soundLength i len (decodeSoundLength_le hl)))
  · exact s.answer_handled p _ _

theorem State.soundSamplesRequest_handled : Handled p s (s.soundSamplesRequest p r) := by
  unfold State.soundSamplesRequest
  split
  · exact s.answer_handled p _ _
  · next i _ =>
    split
    · next hf =>
      refine (s.answer_handled p _ _).and (State.storeSound_deeds _ _ i (.samples _ _ ?_))
      obtain ⟨-, -, hb⟩ := (samplesFit_iff _ _).mp hf
      have := i.isLt
      simp only [decodeSamples_length, Config.samplePlaces]
      omega
    · exact s.answer_handled p _ _

theorem State.setReadRequest_handled : Handled p s (s.setReadRequest p r) := by
  unfold State.setReadRequest
  split <;> exact s.answer_handled p _ _

theorem State.setDigestRequest_handled : Handled p s (s.setDigestRequest p r) := by
  unfold State.setDigestRequest
  split
  · exact s.answer_handled p _ _
  · exact (s.answer_handled p _ _).and (State.setMem_deeds _ _ (.digest _))

/-! ### The modes (R117 to R119, R182 to R184) -/

theorem State.reportMode_deeds : Deeds s s.reportMode := (s.raise_deeds _).trans (State.record_deeds _ _)

theorem State.setMode_deeds (m : Mode) : Deeds s (s.setMode m) := s.setScene_deeds _ rfl

theorem State.enterShowRequest_handled : Handled p s (s.enterShowRequest p r) := by
  unfold State.enterShowRequest
  split
  · exact s.answer_handled p _ _
  · split
    · exact s.answer_handled p _ _
    · refine Handled.and ?_ (State.modeRequest_deeds _)
      refine Handled.and ?_ (State.reportMode_deeds _)
      refine Handled.trans ?_ (State.answer_handled _ p _ _)
      exact (s.setMode_deeds .showMode).handled p

/-- ENTER SETUP empties the slot, and ends every note (R118). -/
theorem State.leaveShow_deeds : Deeds s s.leaveShow :=
  ⟨.single (.emptied rfl rfl rfl rfl), s.rig.leaveShow_reports s.moment, rfl, rfl, rfl, rfl⟩

theorem State.enterSetupRequest_handled : Handled p s (s.enterSetupRequest p r) := by
  unfold State.enterSetupRequest
  split
  · exact s.answer_handled p _ _
  · exact ((s.leaveShow_deeds.handled p).trans (State.answer_handled _ p _ _)).and (State.reportMode_deeds _)

theorem State.restartScene_deeds : Deeds s s.restartScene :=
  ⟨.single (.emptied rfl rfl rfl rfl), .refl, rfl, rfl, rfl, rfl⟩

theorem State.restartNotes_deeds : Deeds s s.restartNotes :=
  (s.setInputs_deeds _).trans (State.setRig_deeds _ _ (s.rig.restart_reports s.moment))

theorem State.restartRest_handled : Handled p s s.restartRest := by
  unfold State.restartRest
  refine Handled.trans ?_ (State.setDesk_handled _ p _ fun q _ => by cases q <;> exact ⟨rfl, rfl⟩)
  exact (s.setTempo_handled p _).and (State.setClick_deeds _ _)

theorem State.restartRequest_handled : Handled p s (s.restartRequest p r) := by
  unfold State.restartRequest
  dsimp only
  refine Handled.and ?_ (State.raise_deeds _ _)
  refine Handled.trans ?_ (State.answer_handled _ p _ _)
  exact ((s.restartScene_deeds.trans (State.restartNotes_deeds _)).handled p).trans
    (State.restartRest_handled p _)

/-! ### The Scene Engine (R97 to R104) -/

theorem State.portRequest_handled (ask : SceneAsk) (quantize : Nat) :
    Handled p s (s.portRequest p ask quantize) := by
  unfold State.portRequest
  split
  · exact s.answer_handled p _ _
  · split
    · exact s.answer_handled p _ _
    · exact (s.answer_handled p _ _).and (State.accept_deeds _ _ _ _ _)

theorem State.cancelRequest_handled : Handled p s (s.cancelRequest p r) := by
  unfold State.cancelRequest
  split
  · exact s.answer_handled p _ _
  · split
    · exact s.answer_handled p _ _
    · split
      · exact s.answer_handled p _ _
      · exact ((s.answer_handled p _ _).and (State.dropStaged_deeds _)).and (State.reportSuperseded_deeds _ _ _)

theorem State.setFrozen_deeds (b : Bool) : Deeds s (s.setFrozen b) := s.setScene_deeds _ rfl

theorem State.freezeRequest_handled : Handled p s (s.freezeRequest p r) := by
  unfold State.freezeRequest
  split
  · exact s.answer_handled p _ _
  · exact (s.answer_handled p _ _).and (State.setFrozen_deeds _ _)

theorem State.thaw_deeds : Deeds s s.thaw :=
  (s.setFrozen_deeds false).trans (State.takeable_deeds _ _)

theorem State.thawRequest_handled : Handled p s (s.thawRequest p r) := by
  unfold State.thawRequest
  split
  · exact s.answer_handled p _ _
  · split
    · exact (s.answer_handled p _ _).and (State.thaw_deeds _)
    · exact s.answer_handled p _ _

theorem State.stepRequest_handled : Handled p s (s.stepRequest p r) := by
  unfold State.stepRequest
  split
  · exact s.answer_handled p _ _
  · split
    · exact s.answer_handled p _ _
    · next c hc =>
      split
      · next hp => exact ((s.take_deeds c hc hp).handled p).trans (State.answer_handled _ p _ _)
      · exact s.answer_handled p _ _

/-! ### Tempo, outputs and clicks (R37, R39, R74, R126, R127, R129, R141, R142, R153) -/

theorem State.selectSource_deeds (src : Source) (shift : Option Nat) : Deeds s (s.selectSource src shift) := by
  have h : Deeds s (s.setTempo (s.tempo.select src shift)) := s.setTempo_deeds _ rfl
  unfold State.selectSource
  dsimp only
  split
  · exact h.trans (State.raise_deeds _ _)
  · exact h.trans (State.reportLock_deeds _)

theorem State.tempoSourceRequest_handled : Handled p s (s.tempoSourceRequest p r) := by
  unfold State.tempoSourceRequest
  split
  · exact (s.answer_handled p _ _).and (State.selectSource_deeds _ _ _)
  · exact s.answer_handled p _ _

theorem State.tempoSetRequest_handled : Handled p s (s.tempoSetRequest p r) := by
  unfold State.tempoSetRequest
  dsimp only
  split
  · exact s.answer_handled p _ _
  · split
    · exact s.answer_handled p _ _
    · exact (s.answer_handled p _ _).trans (State.setTempo_handled _ p _)

theorem State.trimRequest_handled : Handled p s (s.trimRequest p r) := by
  unfold State.trimRequest
  dsimp only
  split
  · exact s.answer_handled p _ _
  · exact (s.answer_handled p _ _).trans (State.setTempo_handled _ p _)

theorem State.outputEnableRequest_handled : Handled p s (s.outputEnableRequest p r) :=
  (s.answer_handled p _ _).and (State.setRig_deeds _ _ (Rig.enableMask_reports _ _ _))

theorem State.criticalLevelRequest_handled : Handled p s (s.criticalLevelRequest p r) := by
  unfold State.criticalLevelRequest
  split
  · exact s.answer_handled p _ _
  · split
    · exact s.answer_handled p _ _
    · exact (s.answer_handled p _ _).and (State.setRig_deeds _ _ (.still rfl))

theorem State.panicRequest_handled : Handled p s (s.panicRequest p r) :=
  (s.answer_handled p _ _).and (State.panic_deeds _ _)

theorem State.clickLevelRequest_handled : Handled p s (s.clickLevelRequest p r) := by
  unfold State.clickLevelRequest
  dsimp only
  split
  · exact s.answer_handled p _ _
  · exact (s.answer_handled p _ _).and (State.setClick_deeds _ _)

theorem State.clickMuteRequest_handled : Handled p s (s.clickMuteRequest p r) :=
  (s.answer_handled p _ _).and (State.setClick_deeds _ _)

/-! ### Counters, capture list and ports (R167, R171, R176, R179, R180) -/

theorem State.counterSetRequest_handled : Handled p s (s.counterSetRequest p r) := by
  unfold State.counterSetRequest
  split
  · exact (s.answer_handled p _ _).trans
      (State.setDesk_handled _ p _ fun q _ => by cases q <;> exact ⟨rfl, rfl⟩)
  · exact s.answer_handled p _ _

theorem State.counterReadRequest_handled : Handled p s (s.counterReadRequest p r) := by
  unfold State.counterReadRequest
  split <;> exact s.answer_handled p _ _

theorem State.captureArmRequest_handled : Handled p s (s.captureArmRequest p r) := by
  unfold State.captureArmRequest
  dsimp only
  split
  · exact s.answer_handled p _ _
  · exact (s.answer_handled p _ _).trans
      (State.setDesk_handled _ p _ fun q _ => by cases q <;> exact ⟨rfl, rfl⟩)

theorem State.captureReadRequest_handled : Handled p s (s.captureReadRequest p r) := by
  unfold State.captureReadRequest
  split <;> exact s.answer_handled p _ _

theorem State.statusRequest_handled : Handled p s (s.statusRequest p r) :=
  (s.answer_handled p _ _).trans (State.setPort_handled _ p _)

theorem State.subscribeRequest_handled : Handled p s (s.subscribeRequest p r) :=
  (s.answer_handled p _ _).trans (State.setPort_handled _ p _)

/-- Every request is handled at its port (R163). -/
theorem handle_handled : Handled p s (handle p r s) := by
  unfold handle
  split
  · exact s.setWriteRequest_handled p r
  · exact s.soundLengthRequest_handled p r
  · exact s.soundSamplesRequest_handled p r
  · exact s.setReadRequest_handled p r
  · exact s.setDigestRequest_handled p r
  · exact s.enterShowRequest_handled p r
  · exact s.enterSetupRequest_handled p r
  · exact s.restartRequest_handled p r
  · exact s.portRequest_handled p _ _
  · exact s.portRequest_handled p _ _
  · exact s.portRequest_handled p _ _
  · exact s.portRequest_handled p _ _
  · exact s.cancelRequest_handled p r
  · exact s.freezeRequest_handled p r
  · exact s.thawRequest_handled p r
  · exact s.stepRequest_handled p r
  · exact s.tempoSourceRequest_handled p r
  · exact s.tempoSetRequest_handled p r
  · exact s.trimRequest_handled p r
  · exact s.answer_handled p _ _
  · exact s.answer_handled p _ _
  · exact s.outputEnableRequest_handled p r
  · exact s.criticalLevelRequest_handled p r
  · exact s.panicRequest_handled p r
  · exact s.clickLevelRequest_handled p r
  · exact s.clickMuteRequest_handled p r
  · exact s.counterSetRequest_handled p r
  · exact s.counterReadRequest_handled p r
  · exact s.captureArmRequest_handled p r
  · exact s.captureReadRequest_handled p r
  · exact s.statusRequest_handled p r
  · exact s.subscribeRequest_handled p r
  · exact s.answer_handled p _ _

end

end Sys2Proof.Machine
end

section
/-! Every step as moves of the set memory, the slot and the standby bank, and the two invariants that every
move keeps (O4, O10). -/
namespace Sys2Proof.Machine

/-! ### Transfers (R159 to R162) -/

/-- An update outside the set memory, the Scene Engine and the router. -/
theorem SlotMoves.still {s t : State} (hm : t.mem = s.mem) (hs : t.scene = s.scene)
    (hr : t.router = s.router) : SlotMoves s t := .single (.still hm (by rw [hs]) hr)

theorem State.setPort_slotMoves (s : State) (p : Port) (x : PortState) : SlotMoves s (s.setPort p x) :=
  .still rfl rfl rfl

theorem State.placeRequest_slotMoves (s : State) (p : Port) (r : Request) :
    SlotMoves s (s.placeRequest p r) := by
  unfold State.placeRequest
  dsimp only
  split
  · split
    · exact (s.setPort_slotMoves p _).trans (State.tap_deeds _).slot
    · exact (s.setPort_slotMoves p _).trans (State.beatMark_deeds _ _).slot
    · exact s.setPort_slotMoves p _
  · exact s.setPort_slotMoves p _

theorem State.endTransfer_slotMoves (s : State) (p : Port) (side : OutboundSide) (all : List Byte) :
    SlotMoves s (s.endTransfer p side all) := by
  unfold State.endTransfer
  dsimp only
  split
  · split
    · split
      · exact (s.setPort_slotMoves p _).trans (State.placeRequest_slotMoves _ p _)
      · exact s.setPort_slotMoves p _
    · exact s.setPort_slotMoves p _
  · exact s.setPort_slotMoves p _

/-! ### Stage time (R17, R123, R163) -/

theorem State.requestDue_handled (s : State) (p : Port) : Handled p s (s.requestDue p) := by
  unfold State.requestDue
  split
  · exact (Deeds.refl s).handled p
  · split
    · exact handle_handled p _ s
    · exact (Deeds.refl s).handled p

theorem State.phaseDue_slotMoves (s : State) : SlotMoves s s.phaseDue := by
  unfold State.phaseDue
  split
  · refine Relation.ReflTransGen.trans ?_ (State.advancePhase_deeds _ _).slot
    exact SlotMoves.still rfl rfl rfl
  · exact .refl

/-- A fold of deeds is deeds. -/
theorem Deeds.foldl {α : Type} (f : State → α → State) (hf : ∀ (s : State) (a : α), Deeds s (f s a))
    (l : List α) (s : State) : Deeds s (l.foldl f s) := by
  induction l generalizing s with
  | nil => exact .refl s
  | cons a l ih => exact (hf s a).trans (ih (f s a))

/-- The timed events that a tick makes before the preparation and the requests: the lines, the beat line, the
spills, the holdover, the audio clock and the digest. -/
def State.settleTimed (s : State) : State :=
  (allOutputs.foldl (fun s o => allChans.foldl (fun s c => s.spillDue o c) s)
    (allOutputs.foldl (fun s o => s.lineDue o) s).beatLineDue).holdoverStep.audioReturn.digestDue

theorem State.settleDue_eq (s : State) : s.settleDue =
    ((s.settleTimed.preparationDue.requestDue .panelPort).requestDue .showPort).phaseDue := rfl

theorem State.settleTimed_deeds (s : State) : Deeds s s.settleTimed := by
  unfold State.settleTimed
  refine Deeds.trans ?_ (State.digestDue_deeds _)
  refine Deeds.trans ?_ (State.audioReturn_deeds _)
  refine Deeds.trans ?_ (State.holdoverStep_deeds _)
  refine Deeds.trans ?_
    (Deeds.foldl _ (fun s o => Deeds.foldl _ (fun s c => s.spillDue_deeds o c) _ s) _ _)
  exact (Deeds.foldl _ (fun s o => s.lineDue_deeds o) _ s).trans (State.beatLineDue_deeds _)

theorem State.settleDue_slotMoves (s : State) : SlotMoves s s.settleDue := by
  rw [State.settleDue_eq]
  refine Relation.ReflTransGen.trans ?_ (State.phaseDue_slotMoves _)
  refine Relation.ReflTransGen.trans ?_ (State.requestDue_handled _ _).slot
  refine Relation.ReflTransGen.trans ?_ (State.requestDue_handled _ _).slot
  exact (s.settleTimed_deeds.trans (State.preparationDue_deeds _)).slot

theorem State.tickPhase_slotMoves (s : State) : SlotMoves s s.tickPhase := by
  unfold State.tickPhase
  dsimp only
  split <;> exact .still rfl rfl rfl

theorem State.readDigest_slotMoves (s : State) (now : StageTime) :
    SlotMoves s ((s.setTime now).setMem s.mem.readDigest) := by
  obtain h | h := s.mem.readDigest_edit
  · exact .still h rfl rfl
  · exact .single (.edited h rfl rfl)

theorem State.tick_slotMoves (s : State) : SlotMoves s s.tick := by
  unfold State.tick
  dsimp only
  refine Relation.ReflTransGen.trans ?_ (State.tickPhase_slotMoves _)
  exact s.settleDue_slotMoves.trans (State.readDigest_slotMoves _ _)

theorem State.boundary_slotMoves (s : State) (beat : Bool) : SlotMoves s (s.boundary beat) := by
  unfold State.boundary
  split
  · exact .refl
  · split
    · exact s.phaseDue_slotMoves
    · exact .refl

/-! ### The pins (R73, R130, R185, R186) -/

theorem State.setPins_slotMoves (s : State) (x : Pins) : SlotMoves s (s.setPins x) := .still rfl rfl rfl

theorem State.syncRise_slotMoves (s : State) : SlotMoves s s.syncRise := by
  unfold State.syncRise
  split
  · exact .refl
  · refine (s.setPins_slotMoves { s.pins with syncHigh := true }).trans ?_
    dsimp only
    split
    · exact (State.pulse_deeds _).slot
    · exact .refl
    · exact .refl
    · exact .refl

theorem State.panicFall_slotMoves (s : State) : SlotMoves s s.panicFall := by
  unfold State.panicFall
  split
  · exact .refl
  · exact (s.setPins_slotMoves _).trans (State.panic_deeds _ _).slot

theorem State.releaseReset_slotMoves (s : State) (panicLow syncHigh : Bool) :
    SlotMoves s (s.releaseReset panicLow syncHigh) := .single (.reset rfl rfl rfl)

/-! ### Commands -/

/-- A command of a live part. -/
theorem whenLive_slotMoves {f : State → State} (hf : ∀ s, SlotMoves s (f s)) {s t : State}
    (h : whenLive f s = .next t) : SlotMoves s t := by
  obtain ⟨-, hw⟩ | ⟨-, hw⟩ := whenLive_eq f s
  · cases hw.symm.trans h; exact hf s
  · cases hw.symm.trans h; exact .refl

/-- A command of deeds alone. -/
theorem whenLive_deeds {f : State → State} (hf : ∀ s, Deeds s (f s)) {s t : State}
    (h : whenLive f s = .next t) : SlotMoves s t := whenLive_slotMoves (fun s => (hf s).slot) h

/-- A command that answers a request. -/
theorem serve_slotMoves {p : Port} {row : RequestRow} {f : Request → State → State}
    (hf : ∀ r s, Handled p s (f r s)) {s t : State} (h : whenLive (fun s => s.serve p row f) s = .next t) :
    SlotMoves s t := by
  refine whenLive_slotMoves (fun s => ?_) h
  obtain ⟨r, -, -, -, hr⟩ | ⟨-, hr⟩ := s.serve_cases p row f <;> rw [hr]
  exact (hf r s).slot

theorem State.turnAway_slotMoves (s : State) (p : Port) : SlotMoves s (s.turnAway p) := by
  unfold State.turnAway
  split
  · exact .refl
  · split
    · exact (s.answer_handled p _ _).slot
    · exact .refl

theorem execTransferEnd_slotMoves {p : Port} {octets : List Byte} {s t : State}
    (h : execTransferEnd p octets s = .next t) : SlotMoves s t := by
  unfold execTransferEnd at h
  refine whenLive_slotMoves (fun s => ?_) h
  split
  · exact .refl
  · exact s.endTransfer_slotMoves p _ _

/-- Every command is made of moves of the set memory, the slot and the standby bank. -/
theorem exec_slotMoves {i : Instr} {s t : State} (h : exec i s = .next t) : SlotMoves s t := by
  cases i with
  | setWrite p => exact serve_slotMoves (State.setWriteRequest_handled p) h
  | setWriteSoundLength p => exact serve_slotMoves (State.soundLengthRequest_handled p) h
  | setWriteSoundSamples p => exact serve_slotMoves (State.soundSamplesRequest_handled p) h
  | setRead p => exact serve_slotMoves (State.setReadRequest_handled p) h
  | setDigest p => exact serve_slotMoves (State.setDigestRequest_handled p) h
  | enterShow p => exact serve_slotMoves (State.enterShowRequest_handled p) h
  | enterSetup p => exact serve_slotMoves (State.enterSetupRequest_handled p) h
  | restart p => exact serve_slotMoves (State.restartRequest_handled p) h
  | goSong p => exact serve_slotMoves (fun _ s => State.portRequest_handled p s _ _) h
  | goScene p => exact serve_slotMoves (fun _ s => State.portRequest_handled p s _ _) h
  | goNext p => exact serve_slotMoves (fun _ s => State.portRequest_handled p s _ _) h
  | goPrev p => exact serve_slotMoves (fun _ s => State.portRequest_handled p s _ _) h
  | cancel p => exact serve_slotMoves (State.cancelRequest_handled p) h
  | freeze p => exact serve_slotMoves (State.freezeRequest_handled p) h
  | thaw p => exact serve_slotMoves (State.thawRequest_handled p) h
  | step p => exact serve_slotMoves (State.stepRequest_handled p) h
  | tempoSource p => exact serve_slotMoves (State.tempoSourceRequest_handled p) h
  | tempoSet p => exact serve_slotMoves (State.tempoSetRequest_handled p) h
  | trim p => exact serve_slotMoves (State.trimRequest_handled p) h
  | tap p => exact serve_slotMoves (fun _ s => s.answer_handled p _ _) h
  | beatMark => exact serve_slotMoves (fun _ s => s.answer_handled .showPort _ _) h
  | outputEnable p => exact serve_slotMoves (State.outputEnableRequest_handled p) h
  | criticalLevel p => exact serve_slotMoves (State.criticalLevelRequest_handled p) h
  | panic p => exact serve_slotMoves (State.panicRequest_handled p) h
  | clickLevel p => exact serve_slotMoves (State.clickLevelRequest_handled p) h
  | clickMute p => exact serve_slotMoves (State.clickMuteRequest_handled p) h
  | counterSet p => exact serve_slotMoves (State.counterSetRequest_handled p) h
  | counterRead p => exact serve_slotMoves (State.counterReadRequest_handled p) h
  | captureArm p => exact serve_slotMoves (State.captureArmRequest_handled p) h
  | captureRead p => exact serve_slotMoves (State.captureReadRequest_handled p) h
  | status p => exact serve_slotMoves (State.statusRequest_handled p) h
  | subscribe p => exact serve_slotMoves (State.subscribeRequest_handled p) h
  | unknownRequest p => exact whenLive_slotMoves (fun s => s.turnAway_slotMoves p) h
  | transferBegin p => exact whenLive_slotMoves (fun s => s.setPort_slotMoves p _) h
  | transferEnd p octets => exact execTransferEnd_slotMoves h
  | noteOn n c k v => exact whenLive_deeds (fun s => s.eventArrives_deeds _ _ _ _ _) h
  | noteOff n c k asNoteOn => exact whenLive_deeds (fun s => s.eventArrives_deeds _ _ _ _ _) h
  | sustainPedal n c v => exact whenLive_deeds (fun s => s.eventArrives_deeds _ _ _ _ _) h
  | continuousEvent n c e => exact whenLive_deeds (fun s => s.continuousArrives_deeds n c e) h
  | songSelect n c program => exact whenLive_deeds (fun s => s.eventArrives_deeds _ _ _ _ _) h
  | clock n => exact whenLive_deeds (fun s => s.timing_deeds n .clock) h
  | alignmentPoint n kind =>
    cases kind with
    | startOctet => exact whenLive_deeds (fun s => s.timing_deeds n .align) h
    | continueOctet => exact whenLive_deeds (fun s => s.timing_deeds n .align) h
  | stop n => exact whenLive_deeds (fun s => s.timing_deeds n .stop) h
  | inputOctet n b => exact whenLive_deeds (fun s => s.octetArrives_deeds n b) h
  | syncEdge => exact whenLive_slotMoves State.syncRise_slotMoves h
  | panicLineEdge => exact whenLive_slotMoves State.panicFall_slotMoves h
  | resetPinLow => cases h; exact .still rfl rfl rfl
  | resetPinRelease a b =>
    simp only [exec, execResetPinRelease, Host.Outcome.next.injEq] at h
    subst h
    split
    · exact s.releaseReset_slotMoves a b
    · exact .refl
  | crystalStop => cases h; exact s.setPins_slotMoves _
  | crystalReturn => cases h; exact s.setPins_slotMoves _
  | stageTick => exact whenLive_slotMoves State.tick_slotMoves h
  | beatBoundary => exact whenLive_slotMoves (fun s => s.boundary_slotMoves true) h
  | clickBoundary => exact whenLive_slotMoves (fun s => s.boundary_slotMoves false) h
  | beatLineEnd => exact whenLive_deeds State.beatLineDue_deeds h
  | samplePeriod => exact whenLive_deeds State.samplePeriod_deeds h
  | audioClockLoss => exact whenLive_deeds State.audioLoss_deeds h
  | audioClockReturn => exact whenLive_deeds State.audioReturn_deeds h
  | spillExpiry o c => exact whenLive_deeds (fun s => s.spillDue_deeds o c) h
  | holdoverExpiry => exact whenLive_deeds State.holdoverStep_deeds h
  | digestComplete => exact whenLive_deeds State.digestDue_deeds h
  | preparationComplete => exact whenLive_deeds (fun s => s.preparationEnds_deeds true) h
  | preparationCheckFail => exact whenLive_deeds (fun s => s.preparationEnds_deeds false) h
  | transmissionComplete o => exact whenLive_deeds (fun s => s.lineDue_deeds o) h
  | panicLineRise => exact whenLive_slotMoves (fun s => s.setPins_slotMoves _) h
  | syncLineFall => exact whenLive_slotMoves (fun s => s.setPins_slotMoves _) h
  | presenceRunOpen => exact whenLive_deeds State.openRun_deeds h
  | presenceRunGap => exact whenLive_deeds State.endRun_deeds h

/-- Every step is made of moves of the set memory, the slot and the standby bank. -/
theorem step_slotMoves {s t : State} (h : step s = .next t) : SlotMoves s t := by
  unfold step at h
  split at h
  · cases h; exact .refl
  · next i rest _ =>
    have h0 : SlotMoves s (s.setPending rest) := .still rfl rfl rfl
    exact h0.trans (exec_slotMoves h)

/-! ### The two invariants -/

/-- Settles O4: every edit keeps the stores canonical and the records in range, and every step is made of
moves that edit the set memory or change its under-copy set. -/
theorem setMemoryStaysSound : Obligations.SetMemoryStaysSound := fun s t h hstep =>
  (sound_iff t).mp ((step_slotMoves hstep).sound ((sound_iff s).mpr h))

/-- Settles O10: every move keeps the slot, the under-copy set and the standby bank in agreement, and every
step is made of moves. -/
theorem slotStaysInStep : Obligations.SlotStaysInStep := fun _ _ h hstep =>
  (step_slotMoves hstep).slotInStep h

end Sys2Proof.Machine
end

section
/-! The requests of the set memory: what SET WRITE, SET READ and SET DIGEST answer and store, and the
completion of a digest (R10 to R18). -/
namespace Sys2Proof.Machine

/-! ### Stores and vectors -/

/-- Reading a canonical store after a write. -/
theorem Store.read_write {α : Type} [DecidableEq α] (d : α) (bound : Nat) (m : Store α) (k : Nat) (v : α)
    (hm : Store.wf d bound m = true) (j : Nat) :
    Store.read d (Store.write d m k v) j = if j = k then v else Store.read d m j := by
  by_cases h : j = k
  · rw [if_pos h, h, Store.read_write_same d bound 0 m k v hm]
  · rw [if_neg h, Store.read_write_other d m k j v h]

theorem SetMemory.wf_iff (m : SetMemory) : m.wf = true ↔
    Store.wf Song.empty 64 m.songs = true ∧ Store.wf Scene.empty 256 m.scenes = true ∧
      Store.wf Layer.empty 1024 m.layers = true ∧ Store.wf Pattern.empty 16 m.patterns = true ∧
      Store.wf 0 (4 * Config.samplePlaces) m.samples = true := by
  simp only [SetMemory.wf, Bool.and_eq_true, and_assoc]

@[simp] theorem getElem_mapAll {α β : Type} {n : Nat} (f : α → β) (v : Vector α n) (i : Fin n) :
    (mapAll f v)[i] = f v[i] := by
  simp [mapAll]

/-! ### Answers -/

/-- A command that only answers the oldest request. -/
theorem onlyAnswers_answer {s : State} {p : Port} {row : RequestRow} {r : Request} {rest : List Request}
    (h : Heads s p row r rest) (st : Status) (payload : List Byte) :
    OnlyAnswers s (.next (s.answer p st payload)) p r rest st payload := by
  obtain ⟨-, hr, -⟩ := h
  exact ⟨_, rfl, s.answer_desk p r rest st payload hr, s.answer_sameBut p st payload⟩

section
variable {s : State} {p : Port} {r : Request} {rest : List Request}

theorem exec_setWrite (h : Heads s p .setWrite r rest) :
    exec (.setWrite p) s = .next (s.setWriteRequest p r) := whenLive_serve_of_heads h _

theorem exec_setWriteSoundLength (h : Heads s p .soundLength r rest) :
    exec (.setWriteSoundLength p) s = .next (s.soundLengthRequest p r) := whenLive_serve_of_heads h _

theorem exec_setWriteSoundSamples (h : Heads s p .soundSamples r rest) :
    exec (.setWriteSoundSamples p) s = .next (s.soundSamplesRequest p r) := whenLive_serve_of_heads h _

theorem exec_setRead (h : Heads s p .setRead r rest) :
    exec (.setRead p) s = .next (s.setReadRequest p r) := whenLive_serve_of_heads h _

theorem exec_setDigest (h : Heads s p .setDigest r rest) :
    exec (.setDigest p) s = .next (s.setDigestRequest p r) := whenLive_serve_of_heads h _

end

/-! ### SET WRITE of a whole record (R10, R11) -/

section
variable {s : State} {p : Port} {r : Request} {rest : List Request}

/-- A write that the checks let pass stores `m`, which has the sounds, the under-copy set and the digest of
before. -/
theorem setWrite_stored (h : Heads s p .setWrite r rest) {m : SetMemory}
    (hw : s.mem.writeRecord s.scene.mode r.recordKind r.recordIndex r.body = .ok m)
    (hm : m.soundLengths = s.mem.soundLengths ∧ m.samples = s.mem.samples ∧
      m.underCopy = s.mem.underCopy ∧ m.digest = s.mem.digest) :
    ∃ t, exec (.setWrite p) s = .next t ∧ StoredWrite s t p r rest ∧ t.mem = m.disturb r.recordKind := by
  obtain ⟨hl, hs, hu, hd⟩ := hm
  refine ⟨(s.answer p .done []).setMem (m.disturb r.recordKind), ?_, ⟨?_, ?_, hl, hs, hu, ?_⟩, rfl⟩
  · rw [exec_setWrite h, State.setWriteRequest, hw]
  · exact s.answer_desk p r rest .done [] h.2.1
  · exact ((s.answer_sameBut p .done []).mono (by simp)).trans ((State.setMem_sameBut _ _).mono (by simp))
  · rw [State.setMem_mem, SetMemory.disturb, hd]

/-- A write that the checks refuse is answered with the status they give, and does nothing. -/
theorem setWrite_refused (h : Heads s p .setWrite r rest) {st : Status}
    (hw : s.mem.writeRecord s.scene.mode r.recordKind r.recordIndex r.body = .error st) :
    OnlyAnswers s (exec (.setWrite p) s) p r rest st [] := by
  rw [exec_setWrite h, State.setWriteRequest, hw]
  exact onlyAnswers_answer h st []

end

/-- A record kind above those of whole records is out of range (R10). -/
theorem SetMemory.writeRecord_otherKind (m : SetMemory) (mode : Mode) {kind : Nat} (hk : 5 ≤ kind) (i : Nat)
    (body : List Byte) : m.writeRecord mode kind i body = .error .range := by
  obtain ⟨k, rfl⟩ := Nat.exists_eq_add_of_le hk
  rw [Nat.add_comm]
  rfl

/-- Settles O15: each kind of record that passes the checks is written at its index, and a canonical store
reads back the write there and what it held elsewhere. -/
theorem setWriteStores : Obligations.SetWriteStores := by
  intro s p r rest h hwf
  obtain ⟨hsongs, hscenes, hlayers, hpatterns, -⟩ := s.mem.wf_iff.mp hwf
  refine ⟨fun v hk hi hd hmode => ?_, fun v hk hi hd => ?_, fun v hk hi hd hheld => ?_,
    fun v hk hi hd hheld => ?_, fun v hk hi hd => ?_⟩
  · obtain ⟨t, he, hst, hm⟩ := setWrite_stored h (m := { s.mem with header := v })
      (by simp [SetMemory.writeRecord, hk, hi, hd, hmode]) ⟨rfl, rfl, rfl, rfl⟩
    refine ⟨t, he, hst, ?_⟩
    rw [hm]
    exact ⟨rfl, rfl, rfl, rfl, rfl⟩
  · obtain ⟨t, he, hst, hm⟩ := setWrite_stored h
      (m := { s.mem with songs := Store.write Song.empty s.mem.songs r.recordIndex v })
      (by simp [SetMemory.writeRecord, hk, hi, hd]) ⟨rfl, rfl, rfl, rfl⟩
    refine ⟨t, he, hst, ?_⟩
    rw [hm]
    exact ⟨Store.read_write _ _ _ _ v hsongs, rfl, rfl, rfl, rfl⟩
  · obtain ⟨t, he, hst, hm⟩ := setWrite_stored h
      (m := { s.mem with scenes := Store.write Scene.empty s.mem.scenes r.recordIndex v })
      (by simp [SetMemory.writeRecord, hk, hi, hd, hheld]) ⟨rfl, rfl, rfl, rfl⟩
    refine ⟨t, he, hst, ?_⟩
    rw [hm]
    exact ⟨Store.read_write _ _ _ _ v hscenes, rfl, rfl, rfl, rfl⟩
  · obtain ⟨t, he, hst, hm⟩ := setWrite_stored h
      (m := { s.mem with layers := Store.write Layer.empty s.mem.layers r.recordIndex v })
      (by simp [SetMemory.writeRecord, hk, hi, hd, hheld]) ⟨rfl, rfl, rfl, rfl⟩
    refine ⟨t, he, hst, ?_⟩
    rw [hm]
    exact ⟨Store.read_write _ _ _ _ v hlayers, rfl, rfl, rfl, rfl⟩
  · obtain ⟨t, he, hst, hm⟩ := setWrite_stored h
      (m := { s.mem with patterns := Store.write Pattern.empty s.mem.patterns r.recordIndex v })
      (by simp [SetMemory.writeRecord, hk, hi, hd]) ⟨rfl, rfl, rfl, rfl⟩
    refine ⟨t, he, hst, ?_⟩
    rw [hm]
    exact ⟨Store.read_write _ _ _ _ v hpatterns, rfl, rfl, rfl, rfl⟩

/-- What R10 refuses RANGE. -/
theorem SetMemory.writeRecord_range (m : SetMemory) (mode : Mode) (kind i : Nat) (body : List Byte)
    (h : 6 < kind ∨ (kind = 0 ∧ i ≠ 0) ∨ (kind = 1 ∧ 64 ≤ i) ∨ (kind = 2 ∧ 256 ≤ i) ∨
      (kind = 3 ∧ 1024 ≤ i) ∨ (kind = 4 ∧ 16 ≤ i) ∨ (kind = 0 ∧ decodeHeader body = none) ∨
      (kind = 1 ∧ decodeSong body = none) ∨ (kind = 2 ∧ decodeScene body = none) ∨
      (kind = 3 ∧ decodeLayer body = none) ∨ (kind = 4 ∧ decodePattern body = none)) :
    m.writeRecord mode kind i body = .error .range := by
  obtain h | h | h | h | h | h | h | h | h | h | h := h
  · exact m.writeRecord_otherKind mode (by omega) i body
  all_goals
    obtain ⟨rfl, h⟩ := h
    simp [SetMemory.writeRecord, h]

/-- What R11 refuses IN USE of what R10 lets pass. -/
theorem SetMemory.writeRecord_inUse (m : SetMemory) (mode : Mode) (kind i : Nat) (body : List Byte)
    (h : (kind = 0 ∧ i = 0 ∧ (decodeHeader body).isSome = true ∧ mode = .showMode) ∨
      (kind = 2 ∧ i < 256 ∧ (decodeScene body).isSome = true ∧ m.sceneHeld i = true) ∨
      (kind = 3 ∧ i < 1024 ∧ (decodeLayer body).isSome = true ∧ m.layerHeld i = true)) :
    m.writeRecord mode kind i body = .error .inUse := by
  obtain ⟨rfl, hi, hd, hu⟩ | ⟨rfl, hi, hd, hu⟩ | ⟨rfl, hi, hd, hu⟩ := h <;>
    obtain ⟨v, hv⟩ := Option.isSome_iff_exists.mp hd <;>
    simp [SetMemory.writeRecord, hi, hv, hu]

/-- Settles O16: the refusals of R10 come before those of R11, and a refused write only answers. -/
theorem setWriteRefused : Obligations.SetWriteRefused := fun s _ _ _ h =>
  ⟨fun hc => setWrite_refused h (s.mem.writeRecord_range s.scene.mode _ _ _ hc),
    fun hc => setWrite_refused h (s.mem.writeRecord_inUse s.scene.mode _ _ _ hc)⟩

/-! ### SET WRITE of a click sound (R13) -/

/-- Sample `k` of a block. -/
theorem decodeSamples_getD (n k : Nat) (bs : List Byte) (h : k < n) :
    (decodeSamples n bs).getD k 0 = BitVec.ofNat 16 (fieldLE bs (2 * k) 2) := by
  induction n generalizing k bs with
  | zero => omega
  | succ n ih =>
    cases k with
    | zero => rfl
    | succ k =>
      have hf : fieldLE (bs.drop 2) (2 * k) 2 = fieldLE bs (2 * (k + 1)) 2 := by
        simp only [fieldLE, List.drop_drop]
        rw [show 2 + 2 * k = 2 * (k + 1) by omega]
      simp only [decodeSamples, List.getD_cons_succ]
      rw [ih k (bs.drop 2) (by omega), hf]

/-- A voice that plays another sound, or none, goes on. -/
theorem Voice.stopSound_other {v : Voice} {i : Fin 4}
    (h : ∀ gain length position, v ≠ .playing i gain length position) : v.stopSound i = v := by
  cases v with
  | free => rfl
  | playing sound gain length position =>
    have hs : sound ≠ i := fun e => h gain length position (by rw [e])
    simp [Voice.stopSound, hs]

/-- What every stored part of click sound `i` leaves (R13, R17). -/
theorem storedSound_storeSound {s : State} {p : Port} {row : RequestRow} {r : Request} {rest : List Request}
    (h : Heads s p row r rest) {m : SetMemory} (i : Fin 4)
    (hm : m.header = s.mem.header ∧ m.songs = s.mem.songs ∧ m.scenes = s.mem.scenes ∧
      m.layers = s.mem.layers ∧ m.patterns = s.mem.patterns ∧ m.underCopy = s.mem.underCopy ∧
      m.digest = s.mem.digest) :
    StoredSound s ((s.answer p .done []).storeSound m i) p r rest i := by
  obtain ⟨hh, hs, hc, hl, hp, hu, hd⟩ := hm
  have hv : ∀ k : Fin 4, ((s.answer p .done []).storeSound m i).click.voices[k] =
      (s.click.voices[k]).stopSound i := fun k => getElem_mapAll _ _ k
  refine ⟨?_, ?_, hh, hs, hc, hl, hp, hu, ?_, fun k hk => ?_, fun k gain len pos hk => ?_, rfl⟩
  · exact s.answer_desk p r rest .done [] h.2.1
  · refine SameBut.trans ?_ ((State.setClick_sameBut _ _).mono (by simp))
    exact ((s.answer_sameBut p .done []).mono (by simp)).trans ((State.setMem_sameBut _ _).mono (by simp))
  · show (m.disturb 5).digest = _
    rw [SetMemory.disturb, hd]
  · rw [hv, Voice.stopSound_other hk]
  · rw [hv, hk]
    simp [Voice.stopSound]

theorem State.soundLengthRequest_stores (s : State) (p : Port) {r : Request} {i : Fin 4} {len : Nat}
    (hi : r.recordIndex = i.val) (hd : decodeSoundLength r.body = some len) :
    s.soundLengthRequest p r = (s.answer p .done []).storeSound
      { s.mem with soundLengths := s.mem.soundLengths.set i len } i := by
  rw [State.soundLengthRequest, decodeIndex_eq_some.mpr hi, hd]

theorem State.soundLengthRequest_refuses (s : State) (p : Port) {r : Request}
    (h : 4 ≤ r.recordIndex ∨ decodeSoundLength r.body = none) :
    s.soundLengthRequest p r = s.answer p .range [] := by
  unfold State.soundLengthRequest
  split
  · next i len hi hd =>
    obtain hc | hc := h
    · exact absurd (decodeIndex_eq_none.mpr hc) (by simp [hi])
    · exact absurd hc (by simp [hd])
  · rfl

theorem State.soundSamplesRequest_stores (s : State) (p : Port) {r : Request} {i : Fin 4}
    (hi : r.recordIndex = i.val) (hf : samplesFit r.sampleOffset r.sampleCount = true) :
    s.soundSamplesRequest p r = (s.answer p .done []).storeSound
      { s.mem with samples := writeSamples (Config.samplePlaces * i.val + r.sampleOffset)
                     (decodeSamples r.sampleCount (r.payload.drop 6)) s.mem.samples } i := by
  rw [State.soundSamplesRequest, decodeIndex_eq_some.mpr hi]
  simp only [hf, if_true]

theorem State.soundSamplesRequest_refuses (s : State) (p : Port) {r : Request}
    (h : 4 ≤ r.recordIndex ∨ ¬samplesFit r.sampleOffset r.sampleCount = true) :
    s.soundSamplesRequest p r = s.answer p .range [] := by
  unfold State.soundSamplesRequest
  split
  · rfl
  · next i hi =>
    obtain hc | hc := h
    · exact absurd (decodeIndex_eq_none.mpr hc) (by simp [hi])
    · exact if_neg hc

/-- The length of each sound after one is written. -/
theorem SetMemory.soundLength_set (m : SetMemory) (i j : Fin 4) (len : Nat) :
    SetMemory.soundLength { m with soundLengths := m.soundLengths.set i len } j =
      if j = i then len else m.soundLength j := by
  by_cases h : j = i
  · subst h; simp [SetMemory.soundLength]
  · have h' : i.val ≠ j.val := fun e => h (Fin.ext e.symm)
    simp [SetMemory.soundLength, h, h']

/-- The samples of each sound after a block of sound `i` is written: the blocks of the four sounds lie apart. -/
theorem SetMemory.sample_writeSamples (m : SetMemory)
    (hm : Store.wf 0 (4 * Config.samplePlaces) m.samples = true) (i j : Fin 4) (offset k : Nat)
    (vs : List (BitVec 16)) (hv : offset + vs.length ≤ 4096) (hk : k < 4096) :
    SetMemory.sample
        { m with samples := writeSamples (Config.samplePlaces * i.val + offset) vs m.samples } j k =
      if j = i ∧ offset ≤ k ∧ k < offset + vs.length then vs.getD (k - offset) 0 else m.sample j k := by
  have hi := i.isLt
  have hj := j.isLt
  have hb : Config.samplePlaces * i.val + offset + vs.length ≤ 4 * Config.samplePlaces := by
    simp only [Config.samplePlaces]
    omega
  refine (read_writeSamples _ _ vs _ hm hb (Config.samplePlaces * j.val + k)).trans ?_
  simp only [Config.samplePlaces]
  by_cases hc : j = i ∧ offset ≤ k ∧ k < offset + vs.length
  · obtain ⟨rfl, ho, hl⟩ := hc
    rw [if_pos (by omega), if_pos ⟨rfl, ho, hl⟩]
    congr 1
    omega
  · rw [if_neg hc, if_neg]
    · rfl
    · rintro ⟨hlo, hhi⟩
      exact hc ⟨Fin.ext (by omega), by omega, by omega⟩

/-- Settles O17: the length, or the samples from the offset on, are the only part of the sounds that is
written, and a write outside the ranges of R13 only answers. -/
theorem soundWriteStores : Obligations.SoundWriteStores := by
  intro s p r rest hwf
  obtain ⟨-, -, -, -, hsamples⟩ := s.mem.wf_iff.mp hwf
  refine ⟨fun h => ⟨fun i len hi hd => ?_, fun hc => ?_⟩, fun h => ⟨fun i hi h1 h2 h3 => ?_, fun hc => ?_⟩⟩
  · refine ⟨_, exec_setWriteSoundLength h, ?_⟩
    rw [s.soundLengthRequest_stores p hi hd]
    exact ⟨storedSound_storeSound h i ⟨rfl, rfl, rfl, rfl, rfl, rfl, rfl⟩, rfl,
      fun j => s.mem.soundLength_set i j len⟩
  · rw [exec_setWriteSoundLength h, s.soundLengthRequest_refuses p hc]
    exact onlyAnswers_answer h _ _
  · refine ⟨_, exec_setWriteSoundSamples h, ?_⟩
    rw [s.soundSamplesRequest_stores p hi ((samplesFit_iff _ _).mpr ⟨h1, h2, h3⟩)]
    refine ⟨storedSound_storeSound h i ⟨rfl, rfl, rfl, rfl, rfl, rfl, rfl⟩, rfl, fun j k hk => ?_⟩
    refine (s.mem.sample_writeSamples hsamples i j r.sampleOffset k _ (by simpa using h3) hk).trans ?_
    rw [decodeSamples_length]
    refine if_ctx_congr Iff.rfl (fun hin => ?_) fun _ => rfl
    rw [decodeSamples_getD _ _ _ (by omega)]
    simp only [fieldLE, List.drop_drop]
  · rw [exec_setWriteSoundSamples h, s.soundSamplesRequest_refuses p]
    · exact onlyAnswers_answer h _ _
    · rw [samplesFit_iff]
      omega

/-! ### SET READ (R14) -/

/-- The body of each kind of record within the table of R1. -/
theorem SetMemory.readBody_some (m : SetMemory) (r : Request) (body : List Byte)
    (h : (r.recordKind = 0 ∧ r.recordIndex = 0 ∧ body = wordOctets m.header.words) ∨
      (r.recordKind = 1 ∧ r.recordIndex < 64 ∧ body = wordOctets (m.song r.recordIndex).words) ∨
      (r.recordKind = 2 ∧ r.recordIndex < 256 ∧ body = (m.scene r.recordIndex).packed) ∨
      (r.recordKind = 3 ∧ r.recordIndex < 1024 ∧ body = wordOctets (m.layer r.recordIndex).words) ∨
      (r.recordKind = 4 ∧ r.recordIndex < 16 ∧ body = wordOctets (m.pattern r.recordIndex).words) ∨
      (r.recordKind = 5 ∧ ∃ i : Fin 4, r.recordIndex = i.val ∧
        body = wordOctets [lengthWord (m.soundLength i)]) ∨
      (r.recordKind = 6 ∧ samplesFit r.sampleOffset r.sampleCount = true ∧
        ∃ i : Fin 4, r.recordIndex = i.val ∧ body = m.samplesBody i r.sampleOffset r.sampleCount)) :
    m.readBody r = some body := by
  obtain ⟨hk, hi, rfl⟩ | ⟨hk, hi, rfl⟩ | ⟨hk, hi, rfl⟩ | ⟨hk, hi, rfl⟩ | ⟨hk, hi, rfl⟩ | ⟨hk, i, hi, rfl⟩ |
    ⟨hk, hf, i, hi, rfl⟩ := h
  case inr.inr.inr.inr.inr.inl => simp [SetMemory.readBody, hk, decodeIndex_eq_some.mpr hi]
  case inr.inr.inr.inr.inr.inr => simp [SetMemory.readBody, hk, decodeIndex_eq_some.mpr hi, hf]
  all_goals simp [SetMemory.readBody, hk, hi]

/-- Outside the table of R1 there is no body. -/
theorem SetMemory.readBody_none (m : SetMemory) (r : Request)
    (h : 6 < r.recordKind ∨ (r.recordKind = 0 ∧ r.recordIndex ≠ 0) ∨
      (r.recordKind = 1 ∧ 64 ≤ r.recordIndex) ∨ (r.recordKind = 2 ∧ 256 ≤ r.recordIndex) ∨
      (r.recordKind = 3 ∧ 1024 ≤ r.recordIndex) ∨ (r.recordKind = 4 ∧ 16 ≤ r.recordIndex) ∨
      (r.recordKind = 5 ∧ 4 ≤ r.recordIndex) ∨ (r.recordKind = 6 ∧
        (4 ≤ r.recordIndex ∨ ¬samplesFit r.sampleOffset r.sampleCount = true))) :
    m.readBody r = none := by
  obtain hk | ⟨hk, hi⟩ | ⟨hk, hi⟩ | ⟨hk, hi⟩ | ⟨hk, hi⟩ | ⟨hk, hi⟩ | ⟨hk, hi⟩ | ⟨hk, hi | hf⟩ := h
  · obtain ⟨k, hk⟩ := Nat.exists_eq_add_of_le' (show 7 ≤ r.recordKind from hk)
    simp [SetMemory.readBody, hk]
  case inr.inr.inr.inr.inr.inr.inr.inr =>
    simp only [SetMemory.readBody, hk, hf]
    split <;> rfl
  case inr.inr.inr.inr.inr.inr.inl => simp [SetMemory.readBody, hk, decodeIndex_eq_none.mpr hi]
  case inr.inr.inr.inr.inr.inr.inr.inl => simp [SetMemory.readBody, hk, decodeIndex_eq_none.mpr hi]
  all_goals simp [SetMemory.readBody, hk, hi]

/-- Settles O18: the body read is that of the record of the kind and index, and outside the table there is
none. -/
theorem setReadReturns : Obligations.SetReadReturns := by
  intro s p r rest h
  rw [exec_setRead h]
  refine ⟨fun body hc => ?_, fun hc => ?_⟩
  · have hb : s.mem.readBody r = some body := by
      refine s.mem.readBody_some r body (hc.imp_right <| Or.imp_right <| Or.imp_right <| Or.imp_right <|
        Or.imp_right <| Or.imp_right ?_)
      rintro ⟨hk, h1, h2, h3, hi⟩
      exact ⟨hk, (samplesFit_iff _ _).mpr ⟨h1, h2, h3⟩, hi⟩
    have ha : s.setReadRequest p r =
        s.answer p .done ([octet r.recordKind] ++ octetsLE 2 r.recordIndex ++ body) := by
      simp [State.setReadRequest, hb]
    rw [ha]
    exact onlyAnswers_answer h _ _
  · have hb : s.mem.readBody r = none := by
      refine s.mem.readBody_none r (hc.imp_right <| Or.imp_right <| Or.imp_right <| Or.imp_right <|
        Or.imp_right <| Or.imp_right <| Or.imp_right <| And.imp_right fun hb => ?_)
      rw [samplesFit_iff]
      omega
    rw [State.setReadRequest, hb]
    exact onlyAnswers_answer h _ _

/-! ### SET DIGEST (R16, R17) -/

/-- A digest over no kind has no word to read. -/
theorem SetMemory.digestWord_noKinds (m : SetMemory) (i : Nat) : m.digestWord 0 i = none := by
  simp [SetMemory.digestWord, kindWords, locateWord]

/-- Settles O19: a running digest refuses another one; otherwise one starts, and one over no kind has read
everything in the first microsecond. -/
theorem setDigestRule : Obligations.SetDigestRule := by
  refine ⟨fun s p r rest h => ⟨fun hd => ?_, fun hd => ?_⟩, fun m p hd => ?_⟩
  · obtain ⟨d, hd⟩ := Option.isSome_iff_exists.mp hd
    rw [exec_setDigest h, State.setDigestRequest, hd]
    exact onlyAnswers_answer h _ _
  · refine ⟨_, exec_setDigest h, ?_⟩
    rw [State.setDigestRequest, hd]
    refine ⟨s.answer_desk p r rest .done [] h.2.1, ?_, rfl⟩
    exact ((s.answer_sameBut p .done []).mono (by simp)).trans ((State.setMem_sameBut _ _).mono (by simp))
  · have hw : m.digestWord 0 0 = none := m.digestWord_noKinds 0
    simp only [SetMemory.readDigest, hd, hw]
    rfl

/-! ### The completion of a digest (R18) -/

/-- A DIGEST notice is directed, so it is judged for admission alone (R165, R168). -/
theorem PortState.offer_digest (x : PortState) (value : Word32) (kinds : BitVec 6) (disturbed : Bool) :
    x.offer (.digest value kinds disturbed) = x.admitNotice (.digest value kinds disturbed) := rfl

/-- Settles O20: the completion raises the DIGEST notice of the folded sum at the requesting port alone. -/
theorem digestCompletes : Obligations.DigestCompletes := by
  intro s d hl hd
  have hx : exec .digestComplete s = .next s.digestDue := by
    show whenLive _ s = _
    rw [whenLive, hl, if_pos rfl]
  refine ⟨fun ha => ?_, fun ha => ?_⟩
  · rw [hx]
    simp [State.digestDue, hd, ha]
  · have he : s.digestDue = (s.setMem { s.mem with digest := none }).setDesk
        (s.desk.raiseAt d.requester (.digest (foldDigest d.sum) d.kinds d.disturbed)) := by
      simp [State.digestDue, hd, ha]
    have hp : s.digestDue.port d.requester = (s.port d.requester).admitNotice
        (.digest (foldDigest d.sum) d.kinds d.disturbed) := by
      rw [he, ← PortState.offer_digest]
      simp [State.port, Desk.raiseAt]
    refine ⟨_, hx, by rw [he]; rfl, s.digestDue_sameBut, ?_, fun hf => ?_, fun hf => ?_⟩
    · rw [hp, ← PortState.offer_digest, he]
      rfl
    · rw [hp]
      exact if_pos hf
    · rw [hp]
      exact if_neg (by simpa [Config.noticeLimit] using hf)

end Sys2Proof.Machine
end

section
/-! The state after pin reset: the values that the chapters give, and the bounds and agreements that every
step keeps (R8, R41, R46, R77, R92, R119, R143, R157, R172, R181, R185). -/
namespace Sys2Proof.Machine

/-! ### Each place of a block after pin reset -/

@[simp] theorem State.reset_pedal (n : Input) (c : Chan) : State.reset.rig.pedal n c = false := by
  simp [Rig.pedal, State.reset, Rig.pinReset]

@[simp] theorem State.reset_chan (o : Output) (c : Chan) : State.reset.rig.chan o c = ChanRec.clear := by
  simp [Rig.chan, State.reset, Rig.pinReset]

@[simp] theorem State.reset_out (o : Output) : State.reset.rig.out o = OutPort.pinReset := by
  simp [Rig.out, State.reset, Rig.pinReset]

@[simp] theorem State.reset_deframer (n : Input) : State.reset.deframer n = Deframer.clear := by
  simp [State.deframer, State.reset]

@[simp] theorem State.reset_voice (i : Fin 4) : State.reset.click.voices[i] = .free := by
  simp [State.reset, ClickGen.pinReset]

@[simp] theorem State.reset_port (p : Port) : State.reset.port p = PortState.pinReset := by
  cases p <;> rfl

@[simp] theorem State.reset_counter (i : Fin 4) : State.reset.desk.counters[i] = Counter.clear := by
  simp [State.desk, State.reset, Rig.pinReset, Desk.pinReset]

@[simp] theorem State.reset_place (i : Fin 32) : State.reset.desk.capture.places[i] = none := by
  simp [State.desk, State.reset, Rig.pinReset, Desk.pinReset, Capture.clear]

theorem SetMemory.pinReset_soundLength (i : Fin 4) : SetMemory.pinReset.soundLength i = 0 := by
  simp [SetMemory.soundLength, SetMemory.pinReset]

/-- Settles O2: the places of the vectors by their lemmas, everything else by the definition of pin reset. -/
theorem resetValues : Obligations.ResetValues := by
  refine ⟨rfl, rfl, fun i => ⟨rfl, rfl, rfl, rfl⟩, fun i k => ⟨SetMemory.pinReset_soundLength i, rfl⟩, rfl, rfl,
    rfl, rfl, rfl, State.reset_pedal, State.reset_chan, State.reset_out, State.reset_deframer,
    rfl, rfl, rfl, rfl, rfl, rfl, rfl, rfl, rfl, rfl, rfl, rfl, rfl, rfl, rfl, rfl, rfl, rfl,
    State.reset_voice, rfl, rfl, rfl, rfl, rfl, fun p => ?_, State.reset_counter, rfl, rfl, rfl,
    State.reset_place⟩
  rw [State.reset_port]
  exact ⟨rfl, rfl, rfl, rfl, rfl, by cases p <;> rfl, by decide⟩

/-! ### Bounds and agreements -/

theorem State.reset_queuesBounded : queuesBounded State.reset = true := by
  simp only [queuesBounded, List.all_eq_true, State.reset_out]
  exact fun _ _ => rfl

theorem State.reset_bulkDistinct : bulkDistinct State.reset := fun o => by
  rw [State.reset_out]
  exact List.nodup_nil

theorem State.reset_tableBounded : tableBounded State.reset :=
  ⟨Nat.zero_le _, fun _ h => absurd h List.not_mem_nil, List.nodup_nil⟩

theorem State.reset_countsInStep : countsInStep State.reset := by
  refine ⟨fun o c => ?_, List.nodup_nil, fun _ h => absurd h List.not_mem_nil⟩
  rw [State.reset_chan]
  rfl

theorem State.reset_oldInStep : oldInStep State.reset := fun o c => by
  rw [State.reset_chan]
  exact ⟨fun _ => rfl, fun h => absurd rfl h⟩

theorem State.reset_tempoInStep : tempoInStep State.reset := by
  unfold tempoInStep
  decide

theorem State.reset_captureBounded : captureBounded State.reset := by
  unfold captureBounded
  decide

theorem State.reset_slotInStep : slotInStep State.reset := (slotInStep_none rfl).mpr ⟨rfl, rfl, rfl⟩

theorem State.reset_setupIdle : setupIdle State.reset := fun _ =>
  ⟨rfl, rfl, rfl, rfl, rfl, le_refl _, rfl, rfl, rfl, rfl⟩

theorem State.reset_voicesPlaying : voicesPlaying State.reset := fun i => by
  rw [State.reset_voice]
  rfl

/-- Settles O3: each bound and agreement of the state after pin reset. -/
theorem resetMeetsInvariants : Obligations.ResetMeetsInvariants := by
  obtain ⟨hw, hr⟩ := (sound_iff State.reset).mp SetMemory.pinReset_sound
  exact ⟨hw, hr, by decide, by decide, State.reset_queuesBounded, State.reset_bulkDistinct,
    State.reset_tableBounded, State.reset_countsInStep, State.reset_oldInStep, State.reset_tempoInStep,
    State.reset_captureBounded, State.reset_slotInStep, State.reset_setupIdle, State.reset_voicesPlaying⟩

end Sys2Proof.Machine
end

section
/-! A tick of stage time (O41): what is due runs as the commands of its own events, and the microsecond itself
is one word of a digest and one advance of the phase (R17, R123, R124). -/
namespace Sys2Proof.Machine

/-! ### The microsecond itself -/

/-- One microsecond passes in which nothing falls due any more. -/
def State.microsecond (s : State) : State :=
  ((s.setTime (s.time + 1)).setMem s.mem.readDigest).tickPhase

/-- The phase of a microsecond: owed to its boundary's command, or advanced. -/
theorem State.microsecond_eq (s : State) : s.microsecond =
    ((s.setTime (s.time + 1)).setMem s.mem.readDigest).setTempo
      (if s.tempo.carries s.tempo.increment || s.clickRises s.tempo.increment
        then { s.tempo with phaseOwed := some s.tempo.increment } else s.tempo.advanced s.tempo.increment) := by
  unfold State.microsecond State.tickPhase
  dsimp only
  exact (apply_ite _ _ _ _).symm

theorem Tempo.carries_iff (t : Tempo) (inc : Nat) : t.carries inc = true ↔ 2 ^ 32 ≤ t.phase.toNat + inc := by
  simp [Tempo.carries]

/-- Without a carry the subdivision reached is that of the sum. -/
theorem State.clickRises_iff (s : State) (inc : Nat) (h : s.tempo.phase.toNat + inc < 2 ^ 32) :
    s.clickRises inc = true ↔
      s.tempo.clickIndex < (s.tempo.phase.toNat + inc) * s.click.pattern.division / 2 ^ 32 := by
  have hp : (s.tempo.advanced inc).phase.toNat = s.tempo.phase.toNat + inc := by
    simp only [Tempo.advanced, BitVec.toNat_add, BitVec.toNat_ofNat]
    omega
  rw [State.clickRises, decide_eq_true_iff, subdivisionAt, hp]

/-- A digest with no word left, or one word more read (R17). -/
theorem SetMemory.readDigest_running {m : SetMemory} {d : Digest} (hd : m.digest = some d)
    (ha : d.allRead = false) :
    (m.digestWord d.kinds d.point = none →
      m.readDigest = { m with digest := some { d with allRead := true } }) ∧
    ∀ w, m.digestWord d.kinds d.point = some w →
      m.readDigest = { m with digest := some { d with
        sum := d.sum + w.toNat, point := d.point + 1
        allRead := d.point + 1 = selectedWords d.kinds 0 kindWords } } := by
  refine ⟨fun hw => ?_, fun w hw => ?_⟩ <;> simp [SetMemory.readDigest, hd, ha, hw]

/-- The microsecond is what O41 says of it. -/
theorem State.microsecond_ticksFrom (s : State) : TicksFrom s s.microsecond := by
  rw [State.microsecond_eq]
  refine ⟨?_, rfl, fun hd => ?_, fun d hd ha => ?_, fun d hd ha => (SetMemory.readDigest_running hd ha).1,
    fun d w hd ha => (SetMemory.readDigest_running hd ha).2 w, fun hp hc => ?_, fun hb _ => ?_⟩
  · intro b hb
    cases b with
    | mem | time | tempo => exact absurd (by decide) hb
    | _ => rfl
  · simp [SetMemory.readDigest, hd]
  · simp [SetMemory.readDigest, hd, ha]
  · rw [State.setTempo_tempo, if_neg]
    · rfl
    · rw [Bool.or_eq_true, Tempo.carries_iff, s.clickRises_iff _ hp]
      omega
  · rw [State.setTempo_tempo, if_pos]
    rw [Bool.or_eq_true, Tempo.carries_iff]
    by_cases hp : s.tempo.phase.toNat + s.tempo.increment < 2 ^ 32
    · rw [s.clickRises_iff _ hp]
      exact hb
    · exact .inl (by omega)

/-! ### When nothing is due -/

/-- A deadline that lies ahead is not reached. -/
theorem not_reached {now t : StageTime} (h : 2 ^ 31 ≤ (now - t).toNat) : reached now t = false := by
  exact decide_eq_false (Nat.not_lt.mpr h)

/-- What has nothing due settles to itself. -/
theorem State.settleDue_of_nothingDue {s : State} (h : NothingDue s) : s.settleDue = s := by
  obtain ⟨hline, hbeat, hspill, hprep, hreq, hdigest, haudio, hhold, howed⟩ := h
  have h1 : ∀ o, s.lineDue o = s := fun o => by
    unfold State.lineDue Rig.lineDue
    cases ht : (s.rig.out o).transmit with
    | idle => rfl
    | sending q last => simp [not_reached (hline o q last ht)]
  have h2 : s.beatLineDue = s := by
    unfold State.beatLineDue
    cases hd : s.tempo.lineHighUntil with
    | none => rfl
    | some d => simp [not_reached (hbeat d hd)]
  have h3 : ∀ o c, s.spillDue o c = s := fun o c => by
    unfold State.spillDue
    cases hp : (s.rig.chan o c).pending with
    | none => rfl
    | some x => simp [not_reached (hspill o c x hp)]
  have h4 : s.holdoverStep = s := by
    refine if_neg ?_
    unfold State.holdoverDue
    split
    · next d hs hd => simp [not_reached (hhold d hs hd)]
    · exact Bool.false_ne_true
  have h5 : s.audioReturn = s := by
    refine if_neg ?_
    unfold ClickGen.returnDue
    split
    · next d hm hd => simpa using not_reached (t := after d Config.presenceMicros) (haudio d hm hd)
    · exact Bool.false_ne_true
  have h6 : s.digestDue = s := by
    unfold State.digestDue
    cases hd : s.mem.digest with
    | none => rfl
    | some d => simp [hdigest d hd]
  have h7 : s.preparationDue = s := by
    refine if_neg ?_
    unfold State.preparationOverdue
    split
    · exact Bool.false_ne_true
    · next c hc =>
      rw [Bool.and_eq_true, decide_eq_true_iff]
      rintro ⟨hp, hr⟩
      have := not_reached (t := after c.startedAt Config.preparationMicros) (hprep c hc hp)
      rw [hr] at this
      cases this
  have h8 : ∀ p, s.requestDue p = s := fun p => by
    unfold State.requestDue
    split
    · rfl
    · next r rest hr =>
      refine if_neg ?_
      simpa using not_reached (t := after (s.port p).handledSince Config.answerMicros) (hreq p r rest hr)
  have h9 : s.phaseDue = s := by
    rw [State.phaseDue, howed]
  have ht : s.settleTimed = s := by
    unfold State.settleTimed
    rw [List.foldl_fixed' h1, h2, List.foldl_fixed' fun o => List.foldl_fixed' (h3 o) allChans, h4, h5, h6]
  rw [State.settleDue_eq, ht, h7, h8, h8, h9]

/-! ### Runs of commands -/

theorem runsTo_append {l k : List Instr} {s t u : State} (h : RunsTo l s t) (g : RunsTo k t u) :
    RunsTo (l ++ k) s u := by
  induction h with
  | done s => exact g
  | next i more s t v he _ ih => exact .next i (more ++ k) s t u he (ih g)

theorem runsTo_single {i : Instr} {s t : State} (h : exec i s = .next t) : RunsTo [i] s t :=
  .next i [] s t t h (.done t)

/-- A command of a live part is its effect. -/
theorem whenLive_of_live {s : State} (f : State → State) (h : s.live = true) : whenLive f s = .next (f s) := by
  rw [whenLive, if_pos h]

theorem State.live_congr {s t : State} (h : t.pins = s.pins) (hl : s.live = true) : t.live = true := by
  rw [State.live, h]
  exact hl

theorem Deeds.live {s t : State} (h : Deeds s t) (hl : s.live = true) : t.live = true :=
  State.live_congr h.pins hl

/-- Commands of one shape run as the fold of their effects. -/
theorem runsTo_foldl {α : Type} {cmd : α → Instr} {f : State → α → State}
    (hf : ∀ (s : State) (a : α), Deeds s (f s a))
    (he : ∀ (s : State) (a : α), s.live = true → exec (cmd a) s = .next (f s a)) (l : List α) {s : State}
    (hl : s.live = true) : RunsTo (l.map cmd) s (l.foldl f s) := by
  induction l generalizing s with
  | nil => exact .done s
  | cons a l ih => exact .next _ _ _ _ _ (he s a hl) (ih ((hf s a).live hl))

/-- Commands of one shape with two operands. -/
theorem runsTo_foldl_foldl {α β : Type} {cmd : α → β → Instr} {f : State → α → β → State}
    (hf : ∀ (s : State) (a : α) (b : β), Deeds s (f s a b))
    (he : ∀ (s : State) (a : α) (b : β), s.live = true → exec (cmd a b) s = .next (f s a b))
    (l : List α) (k : List β) {s : State} (hl : s.live = true) :
    RunsTo (l.flatMap fun a => k.map (cmd a)) s (l.foldl (fun s a => k.foldl (fun s b => f s a b) s) s) := by
  induction l generalizing s with
  | nil => exact .done s
  | cons a l ih =>
    have hrow : RunsTo (k.map (cmd a)) s (k.foldl (fun s b => f s a b) s) :=
      runsTo_foldl (fun s b => hf s a b) (fun s b => he s a b) k hl
    exact runsTo_append hrow (ih ((Deeds.foldl _ (fun s b => hf s a b) k s).live hl))

/-! ### The timed events -/

/-- The commands of the timed events, in the order of a tick. -/
def timedCommands : List Instr :=
  allOutputs.map Instr.transmissionComplete ++ [Instr.beatLineEnd] ++
    (allOutputs.flatMap fun o => allChans.map fun c => Instr.spillExpiry o c) ++
    [Instr.holdoverExpiry, Instr.audioClockReturn, Instr.digestComplete]

theorem runsTo_settleTimed {s : State} (hl : s.live = true) : RunsTo timedCommands s s.settleTimed := by
  have d1 : Deeds s (allOutputs.foldl (fun s o => s.lineDue o) s) :=
    Deeds.foldl _ (fun s o => s.lineDue_deeds o) _ s
  have r1 : RunsTo (allOutputs.map Instr.transmissionComplete) s (allOutputs.foldl (fun s o => s.lineDue o) s) :=
    runsTo_foldl (fun s o => s.lineDue_deeds o)
      (fun _ o => whenLive_of_live fun s => s.lineDue o) _ hl
  unfold timedCommands State.settleTimed
  generalize allOutputs.foldl (fun s o => s.lineDue o) s = a at d1 r1 ⊢
  have d2 := d1.trans a.beatLineDue_deeds
  have r2 : RunsTo [.beatLineEnd] a a.beatLineDue :=
    runsTo_single (whenLive_of_live State.beatLineDue (d1.live hl))
  generalize a.beatLineDue = b at d2 r2 ⊢
  have d3 := d2.trans (Deeds.foldl (fun s o => allChans.foldl (fun s c => s.spillDue o c) s)
    (fun s o => Deeds.foldl _ (fun s c => s.spillDue_deeds o c) _ s) allOutputs b)
  have r3 : RunsTo (allOutputs.flatMap fun o => allChans.map fun c => Instr.spillExpiry o c) b
      (allOutputs.foldl (fun s o => allChans.foldl (fun s c => s.spillDue o c) s) b) :=
    runsTo_foldl_foldl (fun s o c => s.spillDue_deeds o c)
      (fun _ o c => whenLive_of_live fun s => s.spillDue o c) _ _ (d2.live hl)
  generalize allOutputs.foldl (fun s o => allChans.foldl (fun s c => s.spillDue o c) s) b = c at d3 r3 ⊢
  have d4 := d3.trans c.holdoverStep_deeds
  have d5 := d4.trans (State.audioReturn_deeds _)
  have r4 : RunsTo [.holdoverExpiry, .audioClockReturn, .digestComplete] c
      c.holdoverStep.audioReturn.digestDue :=
    .next _ _ _ _ _ (whenLive_of_live State.holdoverStep (d3.live hl))
      (.next _ _ _ _ _ (whenLive_of_live State.audioReturn (d4.live hl))
        (runsTo_single (whenLive_of_live State.digestDue (d5.live hl))))
  exact runsTo_append (runsTo_append (runsTo_append r1 r2) r3) r4

/-- Nothing outside the blocks `l` changes over a fold. -/
theorem SameBut.foldl {α : Type} {l : List Block} (f : State → α → State)
    (hf : ∀ (s : State) (a : α), SameBut l s (f s a)) (k : List α) (s : State) :
    SameBut l s (k.foldl f s) := by
  induction k generalizing s with
  | nil => exact SameBut.rfl' l s
  | cons a k ih => exact (hf s a).trans (ih (f s a))

/-- The timed events leave the Scene Engine as it is. -/
theorem State.settleTimed_scene (s : State) : s.settleTimed.scene = s.scene := by
  have h : SameBut [.mem, .desk, .outputs, .records, .table, .tempo, .click] s s.settleTimed := by
    unfold State.settleTimed
    refine SameBut.trans ?_ ((State.digestDue_sameBut _).mono (by simp))
    refine SameBut.trans ?_ ((State.audioReturn_sameBut _).mono (by simp))
    refine SameBut.trans ?_ ((State.holdoverStep_sameBut _).mono (by simp))
    refine SameBut.trans ?_ (SameBut.foldl _
      (fun s o => SameBut.foldl _ (fun s c => (s.spillDue_sameBut o c).mono (by simp)) _ s) _ _)
    refine SameBut.trans ?_ ((State.beatLineDue_sameBut _).mono (by simp))
    exact SameBut.foldl _ (fun s o => (s.lineDue_sameBut o).mono (by simp)) _ s
  exact h .scene (by decide)

/-! ### The end of a preparation -/

/-- A slot without a change PREPARING ends no preparation. -/
theorem State.preparationEnds_idle {s : State} (passes : Bool)
    (h : ∀ c, s.scene.staged = some c → c.preparation = .ready) : s.preparationEnds passes = s := by
  unfold State.preparationEnds State.endPreparation
  cases hs : s.scene.staged with
  | none => rfl
  | some c => simp [h c hs]

/-- A preparation that completes leaves no change PREPARING. -/
theorem State.completePreparation_ready (s : State) (c d : Change)
    (h : (s.completePreparation c).scene.staged = some d) : d.preparation = .ready := by
  unfold State.completePreparation at h
  dsimp only at h
  split at h
  · next e _ =>
    rw [(State.take_slot _ e).1] at h
    cases h
  · cases h
    rfl

/-- The two commands that end a preparation, one after the other, end it as a tick does. -/
theorem runsTo_endPreparation {s : State} (hl : s.live = true) :
    RunsTo [.preparationComplete, .preparationCheckFail] s s.endPreparation := by
  have hc : exec .preparationComplete s = .next (s.preparationEnds true) :=
    whenLive_of_live (fun s => s.preparationEnds true) hl
  have hf : exec .preparationCheckFail (s.preparationEnds true) =
      .next ((s.preparationEnds true).preparationEnds false) :=
    whenLive_of_live (fun s => s.preparationEnds false) ((s.preparationEnds_deeds true).live hl)
  suffices h : (s.preparationEnds true).preparationEnds false = s.endPreparation by
    exact .next _ _ _ _ _ hc (runsTo_single (h ▸ hf))
  by_cases hi : ∀ c, s.scene.staged = some c → c.preparation = .ready
  · have he : s.endPreparation = s := by
      unfold State.endPreparation
      cases hs : s.scene.staged with
      | none => rfl
      | some c => simp [hi c hs]
    rw [State.preparationEnds_idle true hi, State.preparationEnds_idle false hi, he]
  · obtain ⟨c, hs, hp⟩ : ∃ c, s.scene.staged = some c ∧ c.preparation ≠ .ready := by
      simpa only [not_forall, exists_prop] using hi
    have hp : c.preparation = .preparing := by
      cases h : c.preparation with
      | preparing => rfl
      | ready => exact absurd h hp
    cases hr : s.mem.checkRun c.copy with
    | none =>
      have h1 : s.endPreparation = s.completePreparation c := by
        simp [State.endPreparation, hs, hp, hr]
      have h2 : s.preparationEnds true = s.completePreparation c := by
        rw [← h1]
        simp [State.preparationEnds, hs, hr]
      rw [h1, h2]
      exact State.preparationEnds_idle false (s.completePreparation_ready c)
    | some x =>
      have h2 : s.preparationEnds true = s := by simp [State.preparationEnds, hs, hr]
      rw [h2]
      simp [State.preparationEnds, hs, hr]

theorem runsTo_preparationDue {s : State} (hl : s.live = true) :
    RunsTo (if s.preparationOverdue then [.preparationComplete, .preparationCheckFail] else []) s
      s.preparationDue := by
  unfold State.preparationDue
  split
  · exact runsTo_endPreparation hl
  · exact .done s

/-! ### Requests whose time is up -/

/-- BEAT MARK is a row of the show port only (R163). -/
theorem classify_beatMark {p : Port} {r : Request} (h : classify p r = .beatMark) : p = .showPort := by
  cases p with
  | showPort => rfl
  | panelPort =>
    unfold classify at h
    split at h
    · cases h
    · split at h
      · cases h
      · next row fits _ =>
        split at h
        · cases h
        · next hb =>
          split at h
          · simp [h] at hb
          · cases h

/-- The command of a request's row handles the request (R163). -/
theorem exec_rowCommand {s : State} {p : Port} {r : Request} {rest : List Request} (hl : s.live = true)
    (hr : (s.port p).requests = r :: rest) : exec (rowCommand p (classify p r)) s = .next (handle p r s) := by
  unfold handle
  cases hc : classify p r
  case beatMark =>
    obtain rfl := classify_beatMark hc
    exact whenLive_serve_of_heads ⟨hl, hr, hc⟩ _
  case turnedAway st =>
    refine (whenLive_of_live (fun s => s.turnAway p) hl).trans ?_
    simp [State.turnAway, hr, hc]
  all_goals exact whenLive_serve_of_heads ⟨hl, hr, hc⟩ _

theorem runsTo_requestDue {s : State} (hl : s.live = true) (p : Port) :
    RunsTo (dueRequest s p) s (s.requestDue p) := by
  unfold dueRequest State.requestDue
  cases hr : (s.port p).requests with
  | nil => exact .done s
  | cons r rest =>
    dsimp only
    by_cases hd : (s.time - ((s.port p).handledSince + 200)).toNat < 2 ^ 31
    · have h : reached s.time (after (s.port p).handledSince Config.answerMicros) = true := decide_eq_true hd
      rw [if_pos hd, if_pos h]
      exact runsTo_single (exec_rowCommand hl hr)
    · have h : ¬reached s.time (after (s.port p).handledSince Config.answerMicros) = true :=
        fun h => hd (of_decide_eq_true h)
      rw [if_neg hd, if_neg h]
      exact .done s

/-- Whether a request's time is up rests on stage time and on the requests of its port. -/
theorem dueRequest_congr {s t : State} {p : Port} (ht : t.time = s.time) (hq : s.desk.sameQueue t.desk p) :
    dueRequest t p = dueRequest s p := by
  obtain ⟨hr, hh⟩ := hq
  unfold dueRequest State.port
  rw [ht, hr, hh]

/-! ### The boundary that is owed -/

theorem State.phaseDue_owed (s : State) : s.phaseDue.tempo.phaseOwed = none := by
  unfold State.phaseDue
  split
  · exact (State.advancePhase_deeds _ _).owed
  · assumption

theorem State.phaseDue_pins (s : State) : s.phaseDue.pins = s.pins :=
  s.phaseDue_sameBut .pins (by decide)

/-- Of the two boundary commands the one of the boundary owed makes it, and the other does nothing. -/
theorem runsTo_phaseDue {s : State} (hl : s.live = true) :
    RunsTo [.beatBoundary, .clickBoundary] s s.phaseDue := by
  have hb : ∀ t : State, t.live = true → exec .beatBoundary t = .next (t.boundary true) := fun _ =>
    whenLive_of_live fun t => t.boundary true
  have hc : ∀ t : State, t.live = true → exec .clickBoundary t = .next (t.boundary false) := fun _ =>
    whenLive_of_live fun t => t.boundary false
  have hdone : ∀ (t : State) (b : Bool), t.tempo.phaseOwed = none → t.boundary b = t := fun t b h => by
    rw [State.boundary, h]
  cases ho : s.tempo.phaseOwed with
  | none =>
    have hp : s.phaseDue = s := by rw [State.phaseDue, ho]
    have h1 := hb s hl
    have h2 := hc s hl
    rw [hdone s _ ho] at h1 h2
    rw [hp]
    exact .next _ _ _ _ _ h1 (runsTo_single h2)
  | some inc =>
    cases hcar : s.tempo.carries inc with
    | true =>
      have h1 : s.boundary true = s.phaseDue := by simp [State.boundary, ho, hcar]
      have h2 := hc s.phaseDue (State.live_congr s.phaseDue_pins hl)
      rw [hdone s.phaseDue false s.phaseDue_owed] at h2
      exact .next _ _ _ _ _ (h1 ▸ hb s hl) (runsTo_single h2)
    | false =>
      have h1 : s.boundary true = s := by simp [State.boundary, ho, hcar]
      have h2 : s.boundary false = s.phaseDue := by simp [State.boundary, ho, hcar]
      exact .next _ _ _ _ _ (h1 ▸ hb s hl) (runsTo_single (h2 ▸ hc s hl))

/-! ### The tick -/

/-- The commands of a tick, with the end of a preparation by whether it is overdue. -/
theorem dueCommands_eq (s : State) : dueCommands s =
    timedCommands ++ (if s.preparationOverdue then [.preparationComplete, .preparationCheckFail] else []) ++
      dueRequest s .panelPort ++ dueRequest s .showPort ++ [.beatBoundary, .clickBoundary] := by
  unfold dueCommands timedCommands State.preparationOverdue
  cases s.scene.staged with
  | none => rfl
  | some c =>
    have hr : reached s.time (after c.startedAt Config.preparationMicros) =
        decide ((s.time - (c.startedAt + 2000)).toNat < 2 ^ 31) := rfl
    simp only [hr, Bool.and_eq_true, decide_eq_true_eq]

/-- Whether a preparation is overdue rests on the slot and on stage time. -/
theorem State.preparationOverdue_congr {s t : State} (hs : t.scene = s.scene) (ht : t.time = s.time) :
    t.preparationOverdue = s.preparationOverdue := by
  rw [State.preparationOverdue, State.preparationOverdue, hs, ht]

/-- The commands that are due run to the state that a tick settles. -/
theorem runsTo_settleDue {s : State} (hl : s.live = true) : RunsTo (dueCommands s) s s.settleDue := by
  have d1 := s.settleTimed_deeds
  have r1 := runsTo_settleTimed hl
  have r2 := runsTo_preparationDue (d1.live hl)
  rw [State.preparationOverdue_congr s.settleTimed_scene d1.time] at r2
  have d2 := d1.trans (State.preparationDue_deeds _)
  have r3 := runsTo_requestDue (d2.live hl) .panelPort
  rw [dueRequest_congr d2.time (d2.desk.sameQueue _)] at r3
  have d3 := (d2.handled .panelPort).trans (State.requestDue_handled _ .panelPort)
  have r4 := runsTo_requestDue (State.live_congr d3.pins hl) .showPort
  rw [dueRequest_congr d3.time (d3.others .showPort (by decide))] at r4
  have hp := d3.pins
  have r5 := runsTo_phaseDue (State.live_congr (State.requestDue_handled _ .showPort).pins
    (State.live_congr hp hl))
  rw [dueCommands_eq, State.settleDue_eq]
  exact runsTo_append (runsTo_append (runsTo_append (runsTo_append r1 r2) r3) r4) r5

/-- Settles O41: a tick settles what is due, by the commands of its events, and is then the microsecond. -/
theorem stageTickAdvances : Obligations.StageTickAdvances := by
  have ht : ∀ s : State, s.live = true → exec .stageTick s = .next s.settleDue.microsecond := fun _ =>
    whenLive_of_live State.tick
  refine ⟨fun s hl hn => ⟨s.microsecond, ?_, s.microsecond_ticksFrom⟩, fun s hl =>
    ⟨s.settleDue, _, runsTo_settleDue hl, ht s hl, State.microsecond_ticksFrom _⟩⟩
  rw [ht s hl, State.settleDue_of_nothingDue hn]

end Sys2Proof.Machine
end

section
/-! What the operations of the outputs do to the queues and to the active-note table: one relation for the
changes that an offer, a settlement or the end of a leg makes, each of which keeps the queues within their
bounds and the table but for its sent marks (R29, R38, R60). -/
namespace Sys2Proof.Machine

/-! ### The queues of one output (R29, R38) -/

/-- The queues of an output are within their bounds, and no two bulk places have one identity. -/
structure OutPort.Sound (q : OutPort) : Prop where
  urgent : q.urgent.length ≤ 48
  noteOns : q.noteOns ≤ 32
  bulk : q.bulk.length ≤ 32
  low : 1 ≤ q.level
  high : q.level ≤ 48
  distinct : (q.bulk.map fun b => (b.kind, b.channel)).Nodup

/-- The bounds of an output rest on its queues and its level alone. -/
theorem OutPort.Sound.congr {q x : OutPort} (h : q.Sound) (hu : x.urgent = q.urgent) (hb : x.bulk = q.bulk)
    (hl : x.level = q.level) : x.Sound := by
  obtain ⟨urgent, noteOns, bulk, low, high, distinct⟩ := h
  exact ⟨hu ▸ urgent, by rwa [OutPort.noteOns, hu], hb ▸ bulk, hl ▸ low, hl ▸ high, hb ▸ distinct⟩

/-- Every queue of the instrument side is within its bounds. -/
def Rig.QueuesSound (r : Rig) : Prop := ∀ o, (r.out o).Sound

theorem Rig.QueuesSound.of_out {r t : Rig} (h : r.QueuesSound) (ho : ∀ o, t.out o = r.out o) :
    t.QueuesSound := fun o => ho o ▸ h o

theorem queuesSound_iff (s : State) : s.rig.QueuesSound ↔ queuesBounded s = true ∧ bulkDistinct s := by
  have hall : queuesBounded s = true ↔ ∀ o, (s.rig.out o).bounded = true := by
    rw [queuesBounded, List.all_eq_true]
    exact ⟨fun h o => h o (by fin_cases o <;> decide), fun h o _ => h o⟩
  rw [hall]
  constructor
  · refine fun h => ⟨fun o => ?_, fun o => (h o).distinct⟩
    obtain ⟨urgent, noteOns, bulk, low, high, -⟩ := h o
    simp [OutPort.bounded, urgent, noteOns, bulk, low, high]
  · rintro ⟨hb, hd⟩ o
    have hb := hb o
    simp only [OutPort.bounded, Bool.and_eq_true, decide_eq_true_eq] at hb
    obtain ⟨⟨⟨⟨urgent, noteOns⟩, bulk⟩, low⟩, high⟩ := hb
    exact ⟨urgent, noteOns, bulk, low, high, hd o⟩

/-- The note-ons of an urgent queue, counted in a list. -/
theorem OutPort.noteOns_eq (q : OutPort) : q.noteOns = q.urgent.countP Urgent.isNoteOn := by
  rw [OutPort.noteOns, List.countP_eq_length_filter]

/-- An urgent queue that is no longer, with no more note-ons. -/
theorem OutPort.Sound.urgent_le {q x : OutPort} (h : q.Sound) (hu : x.urgent.length ≤ 48)
    (hn : x.urgent.countP Urgent.isNoteOn ≤ 32) (hb : x.bulk = q.bulk) (hl : x.level = q.level) : x.Sound :=
  ⟨hu, x.noteOns_eq ▸ hn, hb ▸ h.bulk, hl ▸ h.low, hl ▸ h.high, hb ▸ h.distinct⟩

/-- An urgent queue cut down to a part of it. -/
theorem OutPort.Sound.urgent_sublist {q x : OutPort} (h : q.Sound) (hu : x.urgent.Sublist q.urgent)
    (hb : x.bulk = q.bulk) (hl : x.level = q.level) : x.Sound :=
  h.urgent_le (hu.length_le.trans h.urgent)
    ((hu.countP_le).trans (q.noteOns_eq ▸ h.noteOns)) hb hl

/-! ### The oldest note-on (R32) -/

/-- What is taken is the first note-on of the list, and the rest keeps its order. -/
theorem takeNoteOn_some {l rest : List Urgent} {c : Chan} {leg : Nat}
    (h : takeNoteOn l = some (c, leg, rest)) :
    ∃ before k v later, l = before ++ .noteOn c k v leg :: later ∧ rest = before ++ later ∧
      ∀ e ∈ before, e.isNoteOn = false := by
  induction l generalizing rest with
  | nil => simp [takeNoteOn] at h
  | cons e l ih =>
    have behind : e.isNoteOn = false → (takeNoteOn l).map (fun x => (x.1, x.2.1, e :: x.2.2)) =
        some (c, leg, rest) → ∃ before k v later, e :: l = before ++ .noteOn c k v leg :: later ∧
          rest = before ++ later ∧ ∀ x ∈ before, x.isNoteOn = false := by
      intro he hm
      simp only [Option.map_eq_some_iff, Prod.exists, Prod.mk.injEq] at hm
      obtain ⟨d, i, l', h', rfl, rfl, rfl⟩ := hm
      obtain ⟨before, k, v, later, rfl, rfl, hb⟩ := ih h'
      exact ⟨e :: before, k, v, later, rfl, rfl, by simpa [he] using hb⟩
    cases e with
    | noteOn d k v i =>
      simp only [takeNoteOn, Option.some.injEq, Prod.mk.injEq] at h
      obtain ⟨rfl, rfl, rfl⟩ := h
      exact ⟨[], k, v, l, rfl, rfl, by simp⟩
    | noteOff d k => exact behind rfl h
    | program d p x => exact behind rfl h
    | allNotesOff d => exact behind rfl h

/-- Taking a note-on leaves one note-on fewer. -/
theorem takeNoteOn_countP {l rest : List Urgent} {c : Chan} {leg : Nat}
    (h : takeNoteOn l = some (c, leg, rest)) :
    rest.countP Urgent.isNoteOn + 1 = l.countP Urgent.isNoteOn := by
  obtain ⟨before, k, v, later, rfl, rfl, -⟩ := takeNoteOn_some h
  have hon : (Urgent.noteOn c k v leg).isNoteOn = true := rfl
  simp [hon, Nat.add_assoc]

theorem OutPort.discardable_countP {q : OutPort} {c : Chan} {leg : Nat} {rest : List Urgent}
    (h : q.discardable = some (c, leg, rest)) :
    rest.countP Urgent.isNoteOn + 1 = q.urgent.countP Urgent.isNoteOn := by
  unfold OutPort.discardable at h
  split at h
  · simp only [Option.map_eq_some_iff, Prod.exists, Prod.mk.injEq] at h
    obtain ⟨d, i, l, hl, -, -, rfl⟩ := h
    have := takeNoteOn_countP hl
    conv_rhs => rw [← q.urgent.take_append_drop 1]
    simp only [List.countP_append]
    omega
  · exact takeNoteOn_countP h

/-! ### The work of the outputs -/

/-- One change that the work of the outputs makes: a report to the desk, a record, an output that stays within its
bounds, the sent mark of a leg. -/
inductive Rig.Work (r : Rig) : Rig → Prop
  | desk (d : Desk) : Rig.Work r (r.setDesk d)
  | chan (o : Output) (c : Chan) (x : ChanRec) : Rig.Work r (r.setChan o c x)
  | out (o : Output) (x : OutPort) (h : (r.out o).Sound → x.Sound) : Rig.Work r (r.setOut o x)
  | mark (id : Nat) (sent : Bool) : Rig.Work r (r.setTable (markLeg r.table id sent))

/-- Changes of the work of the outputs, one after another. -/
abbrev Rig.Works : Rig → Rig → Prop := Relation.ReflTransGen Rig.Work

theorem Rig.Works.queues {r t : Rig} (h : r.Works t) (k : r.QueuesSound) : t.QueuesSound := by
  induction h with
  | refl => exact k
  | tail _ work ih =>
    cases work with
    | desk d => exact ih.of_out fun _ => rfl
    | chan o c x => exact ih.of_out fun _ => rfl
    | mark id sent => exact ih.of_out fun _ => rfl
    | out o x hx =>
      intro p
      rw [Rig.out_setOut]
      split
      · exact hx (ih o)
      · exact ih p

/-- A table without its sent marks. -/
def bareTable (es : List Entry) : List Entry :=
  es.map fun e => { e with legs := e.legs.map fun l => { l with sent := false } }

theorem bareTable_markLeg (es : List Entry) (id : Nat) (sent : Bool) :
    bareTable (markLeg es id sent) = bareTable es := by
  simp only [bareTable, markLeg, List.map_map]
  refine List.map_congr_left fun e _ => ?_
  simp only [Function.comp_apply, List.map_map, Entry.mk.injEq, true_and]
  refine List.map_congr_left fun l _ => ?_
  simp only [Function.comp_apply]
  split <;> rfl

/-- The work of the outputs leaves the table as it was but for sent marks, and pedals and leg numbers alone. -/
theorem Rig.Works.notes {r t : Rig} (h : r.Works t) :
    bareTable t.table = bareTable r.table ∧ t.pedals = r.pedals ∧ t.nextLeg = r.nextLeg := by
  induction h with
  | refl => exact ⟨rfl, rfl, rfl⟩
  | tail _ work ih =>
    obtain ⟨ht, hp, hn⟩ := ih
    cases work with
    | desk d => exact ⟨ht, hp, hn⟩
    | chan o c x => exact ⟨ht, hp, hn⟩
    | out o x hx => exact ⟨ht, hp, hn⟩
    | mark id sent => exact ⟨(bareTable_markLeg _ id sent).trans ht, hp, hn⟩

/-- A fold of works is work. -/
theorem Rig.works_foldl {α : Type} (f : Rig → α → Rig) (hf : ∀ (r : Rig) (a : α), r.Works (f r a))
    (l : List α) (r : Rig) : r.Works (l.foldl f r) := by
  induction l generalizing r with
  | nil => exact .refl
  | cons a l ih => exact (hf r a).trans (ih (f r a))

/-! ### Reports, flags and the line -/

theorem Rig.raise_works (r : Rig) (n : Notice) : r.Works (r.raise n) := .single (.desk _)
theorem Rig.report_works (r : Rig) (ev : CounterEvent) (named : Nat) : r.Works (r.report ev named) :=
  .single (.desk _)
theorem Rig.record_works (r : Rig) (x : CaptureRecord) : r.Works (r.record x) := .single (.desk _)
theorem Rig.setChan_works (r : Rig) (o : Output) (c : Chan) (x : ChanRec) : r.Works (r.setChan o c x) :=
  .single (.chan o c x)

/-- An output whose queues and level stay. -/
theorem Rig.setOut_works (r : Rig) (o : Output) (x : OutPort) (hu : x.urgent = (r.out o).urgent)
    (hb : x.bulk = (r.out o).bulk) (hl : x.level = (r.out o).level) : r.Works (r.setOut o x) :=
  .single (.out o x fun h => h.congr hu hb hl)

/-- Work behind an update of an output whose queues and level stay. -/
theorem Rig.Works.behindOut {r t : Rig} {o : Output} {x : OutPort} (h : (r.setOut o x).Works t)
    (hu : x.urgent = (r.out o).urgent) (hb : x.bulk = (r.out o).bulk) (hl : x.level = (r.out o).level) :
    r.Works t := (r.setOut_works o x hu hb hl).trans h

theorem Rig.raiseOverflow_works (r : Rig) (o : Output) : r.Works (r.raiseOverflow o) := by
  obtain ⟨-, h⟩ | ⟨-, h⟩ := r.raiseOverflow_cases o <;> rw [h]
  · exact (Rig.raise_works _ _).behindOut rfl rfl rfl

theorem Rig.raiseCritical_works (r : Rig) (o : Output) : r.Works (r.raiseCritical o) := by
  obtain h | ⟨-, -, h⟩ := r.raiseCritical_cases o <;> rw [h]
  · exact (Rig.raise_works _ _).behindOut rfl rfl rfl

theorem Rig.startLine_works (r : Rig) (m : Moment) (o : Output) : r.Works (r.startLine m o) := by
  obtain h | ⟨q, u, -, h | h⟩ := r.startLine_cases m o <;> rw [h]
  · exact r.setOut_works o _ rfl rfl rfl
  · exact (Rig.report_works _ _ _).behindOut rfl rfl rfl

theorem Rig.reportDiscard_works (r : Rig) (m : Moment) (o : Output) (c : Chan) :
    r.Works (r.reportDiscard m o c) :=
  ((r.report_works _ _).trans (Rig.record_works _ _)).trans (Rig.raiseOverflow_works _ o)

theorem Rig.dropHeld_works (r : Rig) (o : Output) (e : Urgent) : r.Works (r.dropHeld o e) := by
  obtain ⟨-, h⟩ | ⟨c, p, x, -, h⟩ := r.dropHeld_cases o e <;> rw [h]
  · exact r.setChan_works o c _

/-! ### Appends and offers (R31 to R34) -/

/-- An append where the urgent queue has room for the event. -/
theorem Rig.append_works (r : Rig) (m : Moment) (o : Output) (e : Urgent)
    (hu : (r.out o).urgent.length < 48) (hn : e.isNoteOn = true → (r.out o).noteOns < 32) :
    r.Works (r.append m o e) := by
  refine Relation.ReflTransGen.trans ?_ (Rig.startLine_works _ m o)
  refine Relation.ReflTransGen.trans ?_ (Rig.raiseCritical_works _ o)
  refine Relation.ReflTransGen.trans ?_ (Rig.dropHeld_works _ o e)
  refine .single (.out o _ fun h => h.urgent_le ?_ ?_ rfl rfl)
  · simpa using hu
  · have hc := (r.out o).noteOns_eq
    have := h.noteOns
    cases he : e.isNoteOn
    · simp [he]
      omega
    · have := hn he
      simp [he]
      omega

theorem Rig.replace_works (r : Rig) (m : Moment) (o : Output) (e : Urgent) (refuse : Rig → Rig)
    (h : r.Works (refuse r)) : r.Works (r.replace m o e refuse).rig := by
  obtain ⟨-, hr⟩ | ⟨c, leg, rest, hd, hr⟩ := r.replace_cases m o e refuse <;> rw [hr]
  · exact h
  · refine Relation.ReflTransGen.trans ?_ (Rig.startLine_works _ m o)
    refine Relation.ReflTransGen.trans ?_ (Rig.reportDiscard_works _ m o c)
    refine Relation.ReflTransGen.trans ?_ (Rig.dropHeld_works _ o e)
    refine .single (.out o _ fun hq => hq.urgent_le ?_ ?_ rfl rfl)
    · have := (r.out o).discardable_length c leg rest hd
      have := hq.urgent
      simp
      omega
    · have := OutPort.discardable_countP hd
      have hn := (r.out o).noteOns_eq ▸ hq.noteOns
      have : [e].countP Urgent.isNoteOn ≤ 1 := List.countP_le_length
      simp only [List.countP_append]
      omega

theorem Rig.owe_works (r : Rig) (m : Moment) (o : Output) (c : Chan) : r.Works (r.owe m o c) :=
  (((r.setChan_works o c _).trans (Rig.report_works _ _ _)).trans (Rig.record_works _ _)).trans
    (Rig.raiseOverflow_works _ o)

theorem Rig.offerNoteOn_works (r : Rig) (m : Moment) (o : Output) (c : Chan) (k v : Seven) (leg : Nat) :
    r.Works (r.offerNoteOn m o c k v leg).rig := by
  obtain ⟨-, h⟩ | ⟨-, hn, hu, h⟩ | ⟨-, -, h⟩ := r.offerNoteOn_cases m o c k v leg <;> rw [h]
  · exact r.append_works m o _ hu fun _ => hn
  · exact r.replace_works m o _ _ (r.reportDiscard_works m o c)

theorem Rig.offerNoteOff_works (r : Rig) (m : Moment) (o : Output) (c : Chan) (k : Seven) :
    r.Works (r.offerNoteOff m o c k).rig := by
  obtain ⟨-, h⟩ | ⟨-, hu, h⟩ | ⟨-, -, h⟩ := r.offerNoteOff_cases m o c k <;> rw [h]
  · exact r.append_works m o _ hu nofun
  · exact r.replace_works m o _ _ (r.owe_works m o c)

theorem Rig.offerAllNotesOff_works (r : Rig) (m : Moment) (o : Output) (c : Chan) :
    r.Works (r.offerAllNotesOff m o c).rig := by
  obtain ⟨-, h⟩ | ⟨-, hu, h⟩ | ⟨-, -, h⟩ := r.offerAllNotesOff_cases m o c <;> rw [h]
  · exact r.append_works m o _ hu nofun
  · refine r.replace_works m o _ _ ?_
    split
    · exact .refl
    · exact r.owe_works m o c

theorem Rig.offerProgram_works (r : Rig) (m : Moment) (o : Output) (c : Chan) (p : Program) :
    r.Works (r.offerProgram m o c p).rig := by
  obtain ⟨-, h⟩ | ⟨-, hu, h⟩ | ⟨-, -, h⟩ := r.offerProgram_cases m o c p <;> rw [h]
  · exact r.setChan_works o c _
  · exact r.append_works m o _ hu nofun
  · exact r.replace_works m o _ _ (r.setChan_works o c _)

/-! ### Releases and discards (R65, R86) -/

theorem Rig.release_works (r : Rig) (m : Moment) (o : Output) (c : Chan) : r.Works (r.release m o c).1 := by
  unfold Rig.release
  split
  · exact .refl
  · exact (r.offerProgram_works m o c _).trans (Rig.setChan_works _ o c _)

theorem Rig.lowerCounts_works (r : Rig) (o : Output) (c : Chan) (old : Bool) :
    r.Works (r.lowerCounts o c old).1 := r.setChan_works o c _

theorem Rig.settleDiscard_works (fuel : Nat) (m : Moment) (id : Option Nat) (r : Rig) :
    r.Works (r.settleDiscard fuel m id) := by
  induction fuel generalizing id r with
  | zero => exact .refl
  | succ fuel ih =>
    cases id with
    | none => exact .refl
    | some id =>
      unfold Rig.settleDiscard
      split
      · exact .refl
      · dsimp only
        split
        · have hm : r.Works (r.setTable (markLeg r.table id false)) := .single (.mark id false)
          split
          · exact ((hm.trans (Rig.lowerCounts_works _ _ _ _)).trans (Rig.release_works _ m _ _)).trans (ih _ _)
          · exact hm.trans (Rig.lowerCounts_works _ _ _ _)
        · exact .refl

theorem Offer.settled_works {r : Rig} {x : Offer} (m : Moment) (h : r.Works x.rig) : r.Works (x.settled m) :=
  h.trans (Rig.settleDiscard_works _ m _ _)

theorem Rig.releaseSettled_works (r : Rig) (m : Moment) (o : Output) (c : Chan) :
    r.Works (r.releaseSettled m o c) := (r.release_works m o c).trans (Rig.settleDiscard_works _ m _ _)

/-- The end of a leg that stands is its removal, and then the work of its note-off and its release. -/
theorem Rig.endLeg_works {r : Rig} (m : Moment) {id : Nat} (h : findLeg r.table id ≠ none) :
    (r.setTable (removeLeg r.table id)).Works (r.endLeg m id) := by
  obtain ⟨hn, -⟩ | ⟨g, l, -, ⟨-, he⟩ | ⟨-, a, x, ha, hx, he⟩⟩ := r.endLeg_cases m id
  · exact absurd hn h
  · rw [he]
  · have h1 : (r.setTable (removeLeg r.table id)).Works a :=
      ha ▸ Offer.settled_works m (Rig.offerNoteOff_works _ m _ _ _)
    have h2 : (r.setTable (removeLeg r.table id)).Works x.1 := h1.trans (hx ▸ Rig.lowerCounts_works _ _ _ _)
    rw [he]
    split
    · exact h2.trans (Rig.releaseSettled_works _ m _ _)
    · exact h2

/-! ### Legs that sound, settlement, transmission and enables (R31, R35, R39, R64, R82, R85) -/

theorem Rig.markExpired_works (r : Rig) (o : Output) (c : Chan) : r.Works (r.markExpired o c) := by
  refine .single (.out o _ fun h => h.urgent_le ?_ ?_ rfl rfl)
  · simpa using h.urgent
  · rw [List.countP_eq_length_filter, markExpiry_noteOns, ← List.countP_eq_length_filter]
    exact (r.out o).noteOns_eq ▸ h.noteOns

theorem Rig.markSent_works (r : Rig) (l : Leg) : r.Works (r.markSent l) := by
  have h : r.Works ((r.setTable (markLeg r.table l.id true)).setChan l.output l.channel
      { r.chan l.output l.channel with sounding := (r.chan l.output l.channel).sounding + 1 }) :=
    (Relation.ReflTransGen.single (.mark l.id true)).trans (Rig.setChan_works _ _ _ _)
  unfold Rig.markSent
  dsimp only
  split
  · exact h.trans (Rig.report_works _ _ _)
  · exact h

theorem Rig.soundLeg_works (r : Rig) (m : Moment) (l : Leg) : r.Works (r.soundLeg m l) := by
  have h := r.offerNoteOn_works m l.output l.channel l.key l.velocity l.id
  unfold Rig.soundLeg
  dsimp only
  split
  · exact (h.trans (Rig.markSent_works _ l)).trans (Rig.settleDiscard_works _ m _ _)
  · exact h

theorem Rig.sendProgram_works (r : Rig) (m : Moment) (o : Output) (c : Chan) (p : Program) :
    r.Works (r.sendProgram m o c p) :=
  ((r.offerProgram_works m o c p).trans (Rig.setChan_works _ _ _ _)).trans (Rig.settleDiscard_works _ m _ _)

theorem Rig.settleChan_works (r : Rig) (m : Moment) (o : Output) (c : Chan) : r.Works (r.settleChan m o c) := by
  have owed : r.Works (if (r.chan o c).panicOwed = true then
      (if (r.offerAllNotesOff m o c).appended = true then
        (r.offerAllNotesOff m o c).rig.setChan o c
          { (r.offerAllNotesOff m o c).rig.chan o c with panicOwed := false }
      else (r.offerAllNotesOff m o c).rig).settleDiscard discardFuel m
        (r.offerAllNotesOff m o c).discarded else r) := by
    have h := r.offerAllNotesOff_works m o c
    split
    · refine Relation.ReflTransGen.trans ?_ (Rig.settleDiscard_works _ m _ _)
      split
      · exact h.trans (Rig.setChan_works _ o c _)
      · exact h
    · exact .refl
  unfold Rig.settleChan
  dsimp only
  split
  · exact owed
  · exact owed.trans (Offer.settled_works m (Rig.offerProgram_works _ m o c _))

theorem Rig.settle_works (r : Rig) (m : Moment) (o : Output) : r.Works (r.settle m o) :=
  Rig.works_foldl _ (fun r c => r.settleChan_works m o c) _ r

theorem OutPort.Sound.completeHead {q : OutPort} (h : q.Sound) : q.completeHead.Sound := by
  unfold OutPort.completeHead
  split
  · exact h
  · exact h.urgent_sublist (List.drop_sublist 1 _) rfl rfl
  · obtain ⟨urgent, noteOns, bulk, low, high, distinct⟩ := h
    split
    · exact ⟨urgent, noteOns, bulk, low, high, distinct⟩
    · rename_i b rest hb
      rw [hb] at bulk distinct
      split
      · exact ⟨urgent, noteOns, (Nat.le_succ _).trans bulk, low, high, (List.nodup_cons.mp distinct).2⟩
      · exact ⟨urgent, noteOns, bulk, low, high, distinct⟩

theorem Rig.completeLine_works (r : Rig) (m : Moment) (o : Output) : r.Works (r.completeLine m o) := by
  unfold Rig.completeLine
  split
  · exact .refl
  · dsimp only
    have h : r.Works (r.setOut o (r.out o).completeHead.clearFlags) :=
      .single (.out o _ fun h => h.completeHead.congr rfl rfl rfl)
    refine Relation.ReflTransGen.trans ?_ (Rig.startLine_works _ m o)
    split
    · exact h.trans (Rig.settle_works _ m o)
    · exact h

theorem OutPort.Sound.purge {q : OutPort} (h : q.Sound) : q.purge.Sound := by
  have hu : q.purge.urgent.Sublist q.urgent := by
    simp only [OutPort.purge]
    split
    · exact List.take_sublist 1 _
    · exact List.nil_sublist _
  have hb : (q.purge.bulk.map fun b => (b.kind, b.channel)).Sublist
      (q.bulk.map fun b => (b.kind, b.channel)) := by
    simp only [OutPort.purge, List.map_map]
    split
    · exact (List.take_sublist 1 q.bulk).map _
    · exact List.nil_sublist _
  have hl : q.purge.bulk.length ≤ q.bulk.length := by simpa using hb.length_le
  exact ⟨hu.length_le.trans h.urgent,
    q.purge.noteOns_eq ▸ (hu.countP_le).trans (q.noteOns_eq ▸ h.noteOns),
    hl.trans h.bulk, h.low, h.high, h.distinct.sublist hb⟩

theorem Rig.disable_works (r : Rig) (o : Output) : r.Works (r.disable o) := by
  have h : r.Works (r.setOut o { (r.out o).purge with enabled := false, overflow := false, critical := false }) :=
    .single (.out o _ fun h => h.purge.congr rfl rfl rfl)
  refine h.trans (Rig.works_foldl _ (fun r e => ?_) _ _)
  unfold Rig.holdPurged
  split
  · split
    · exact .refl
    · exact r.setChan_works o _ _
  · exact .refl

theorem Rig.enable_works (r : Rig) (m : Moment) (o : Output) : r.Works (r.enable m o) :=
  (Rig.settle_works _ m o).behindOut rfl rfl rfl

theorem Rig.enableMask_works (r : Rig) (m : Moment) (mask : BitVec 6) : r.Works (r.enableMask m mask) := by
  refine Rig.works_foldl _ (fun r o => ?_) _ r
  unfold Rig.setEnable
  split
  · exact .refl
  · split
    · exact r.enable_works m o
    · exact r.disable_works o

/-! ### The bulk queue (R38) -/

theorem OutPort.bulkSending_append_bulkWaiting (q : OutPort) : q.bulkSending ++ q.bulkWaiting = q.bulk := by
  unfold OutPort.bulkSending OutPort.bulkWaiting
  split
  · exact List.take_append_drop 1 _
  · rfl

/-- A bulk queue whose places keep their identities. -/
theorem OutPort.Sound.sameIdentities {q x : OutPort} (h : q.Sound) (hu : x.urgent = q.urgent)
    (hl : x.level = q.level)
    (hm : (x.bulk.map fun b => (b.kind, b.channel)) = q.bulk.map fun b => (b.kind, b.channel)) : x.Sound := by
  have hlen : x.bulk.length = q.bulk.length := by simpa using congrArg List.length hm
  obtain ⟨urgent, noteOns, bulk, low, high, distinct⟩ := h
  exact ⟨hu ▸ urgent, by rwa [OutPort.noteOns, hu], hlen ▸ bulk, hl ▸ low, hl ▸ high, hm ▸ distinct⟩

/-- A bulk place of an identity that no place of the queue has, behind a part of the queue that leaves room. -/
theorem OutPort.Sound.addBulk {q x : OutPort} (h : q.Sound) {bs : List BulkPlace} {k : ContinuousKind}
    {c : Chan} {v : Fourteen} (hs : bs.Sublist q.bulk) (hn : ∀ b ∈ q.bulk, b.sameAs k c = false)
    (hroom : bs.length < 32) (hx : x.bulk = bs ++ [⟨k, c, v, none⟩]) (hu : x.urgent = q.urgent)
    (hl : x.level = q.level) : x.Sound := by
  obtain ⟨urgent, noteOns, -, low, high, distinct⟩ := h
  refine ⟨hu ▸ urgent, by rwa [OutPort.noteOns, hu], by simp [hx]; omega, hl ▸ low, hl ▸ high, ?_⟩
  rw [hx, List.map_append, List.nodup_append]
  refine ⟨distinct.sublist (hs.map _), by simp, ?_⟩
  rintro y hy z hz rfl
  obtain ⟨b, hb, rfl⟩ := List.mem_map.mp hy
  have hne := hn b (hs.subset hb)
  simp only [List.map_cons, List.map_nil, List.mem_singleton, Prod.mk.injEq] at hz
  simp [BulkPlace.sameAs, hz.1, hz.2] at hne

/-- An offer to a bulk queue keeps an identity at one place, and the queue at 32 places. -/
theorem Rig.offerBulk_works (r : Rig) (m : Moment) (o : Output) (k : ContinuousKind) (c : Chan)
    (v : Fourteen) : r.Works (r.offerBulk m o k c v) := by
  have parts := (r.out o).bulkSending_append_bulkWaiting
  unfold Rig.offerBulk
  dsimp only
  split
  case isFalse => exact .refl
  split
  case isTrue =>
    refine Relation.ReflTransGen.trans (.single (.out o _ fun h => ?_)) (Rig.report_works _ _ _)
    refine h.sameIdentities rfl rfl ?_
    conv_rhs => rw [← parts]
    simp only [coalesceValue, List.map_append, List.map_map, List.append_cancel_left_eq]
    refine List.map_congr_left fun b _ => ?_
    simp only [Function.comp_apply]
    split <;> rfl
  rename_i hw
  split
  case isTrue =>
    refine Relation.ReflTransGen.trans (.single (.out o _ fun h => ?_)) (Rig.report_works _ _ _)
    refine h.sameIdentities rfl rfl ?_
    conv_rhs => rw [← parts]
    simp only [List.map_append, List.map_map]
    rfl
  rename_i hs
  have hnone : ∀ b ∈ (r.out o).bulk, b.sameAs k c = false := by
    simp only [List.any_eq_true, not_exists, not_and, Bool.not_eq_true] at hw hs
    rw [← parts]
    exact fun b hb => (List.mem_append.mp hb).elim (hs b) (hw b)
  split
  · rename_i hroom
    refine Relation.ReflTransGen.trans (.single (.out o _ fun h => ?_)) (Rig.startLine_works _ m o)
    exact h.addBulk (List.Sublist.refl _) hnone hroom rfl rfl rfl
  · rename_i hfull
    refine Relation.ReflTransGen.trans ((Relation.ReflTransGen.single (.out o _ fun h => ?_)).trans
      (Rig.report_works _ _ _)) (Rig.startLine_works _ m o)
    have hsub : ((r.out o).bulkSending ++ (r.out o).bulkWaiting.drop 1).Sublist (r.out o).bulk := by
      conv_rhs => rw [← parts]
      exact (List.Sublist.refl _).append (List.drop_sublist 1 _)
    refine h.addBulk hsub hnone ?_ rfl rfl rfl
    have hsending : (r.out o).bulkSending.length ≤ 1 := by
      unfold OutPort.bulkSending
      split
      · exact List.length_take_le 1 _
      · simp
    have hlen := congrArg List.length parts
    have := h.bulk
    simp only [Config.bulkSize] at hfull
    simp only [List.length_append, List.length_drop] at hlen ⊢
    omega

end Sys2Proof.Machine
end

section
/-! What the ends of legs, new notes and the panic do to the active-note table and to the queues: which entries
are left, and the bounds that stay (R60, R62 to R70, R74, R76, R77). -/
namespace Sys2Proof.Machine

/-! ### Tables without some of their legs -/

/-- A table without the legs of some numbers; an entry left without legs is gone (R60). -/
def dropLegs (ids : List Nat) (es : List Entry) : List Entry :=
  (es.map fun e => { e with legs := e.legs.filter fun l => !ids.contains l.id }).filter fun e => !e.legs.isEmpty

/-- Every entry of a table has a leg. -/
def FullTable (es : List Entry) : Prop := ∀ e ∈ es, e.legs ≠ []

theorem removeLeg_eq (es : List Entry) (id : Nat) : removeLeg es id = dropLegs [id] es := by
  simp [removeLeg, dropLegs]

theorem dropLegs_cons (ids : List Nat) (e : Entry) (es : List Entry) :
    dropLegs ids (e :: es) =
      if (e.legs.filter fun l => !ids.contains l.id).isEmpty then dropLegs ids es
      else { e with legs := e.legs.filter fun l => !ids.contains l.id } :: dropLegs ids es := by
  simp only [dropLegs, List.map_cons, List.filter_cons]
  split <;> simp_all

theorem dropLegs_dropLegs (a b : List Nat) (es : List Entry) :
    dropLegs b (dropLegs a es) = dropLegs (a ++ b) es := by
  induction es with
  | nil => rfl
  | cons e es ih =>
    have hl : (e.legs.filter fun l => !(a ++ b).contains l.id) =
        (e.legs.filter fun l => !a.contains l.id).filter fun l => !b.contains l.id := by
      simp [List.filter_filter, Bool.and_comm]
    rw [dropLegs_cons, dropLegs_cons, hl]
    split
    · rename_i h
      rw [List.isEmpty_iff.mp h]
      simpa using ih
    · rw [dropLegs_cons, ih]

theorem dropLegs_nil {es : List Entry} (h : FullTable es) : dropLegs [] es = es := by
  simpa [dropLegs, List.filter_eq_self, FullTable] using h

theorem dropLegs_full (ids : List Nat) (es : List Entry) : FullTable (dropLegs ids es) := by
  intro e he
  have := (List.mem_filter.mp he).2
  simpa using this

/-- No leg leaves a table that holds none of the numbers. -/
theorem dropLegs_of_absent {ids : List Nat} {es : List Entry} (h : FullTable es)
    (ha : ∀ e ∈ es, ∀ l ∈ e.legs, l.id ∉ ids) : dropLegs ids es = es := by
  induction es with
  | nil => rfl
  | cons e es ih =>
    have hl : (e.legs.filter fun l => !ids.contains l.id) = e.legs :=
      List.filter_eq_self.mpr fun l hl => by simpa using ha e List.mem_cons_self l hl
    rw [dropLegs_cons, hl, ih (fun x hx => h x (List.mem_cons_of_mem _ hx))
      fun x hx => ha x (List.mem_cons_of_mem _ hx), if_neg]
    simpa using h e List.mem_cons_self

theorem findLeg_none_iff {es : List Entry} {id : Nat} :
    findLeg es id = none ↔ ∀ e ∈ es, ∀ l ∈ e.legs, l.id ≠ id := by
  induction es with
  | nil => simp [findLeg]
  | cons e es ih =>
    simp only [findLeg, List.forall_mem_cons]
    split
    · rename_i l h
      have hl := List.find?_some h
      exact ⟨nofun, fun hn => absurd (by simpa using hl) (hn.1 l (List.mem_of_find?_eq_some h))⟩
    · rename_i h
      rw [ih]
      have : ∀ l ∈ e.legs, l.id ≠ id := by simpa using h
      exact ⟨fun hn => ⟨this, hn⟩, fun hn => hn.2⟩

theorem mem_bareTable {es : List Entry} {x : Entry} : x ∈ bareTable es ↔
    ∃ e ∈ es, x = { e with legs := e.legs.map fun l => { l with sent := false } } := by
  simp [bareTable, eq_comm]

theorem bareTable_full {es : List Entry} : FullTable (bareTable es) ↔ FullTable es := by
  simp [FullTable, bareTable]

theorem bareTable_dropLegs (ids : List Nat) (es : List Entry) :
    bareTable (dropLegs ids es) = dropLegs ids (bareTable es) := by
  induction es with
  | nil => rfl
  | cons e es ih =>
    have hc : bareTable (e :: es) =
        { e with legs := e.legs.map fun l => { l with sent := false } } :: bareTable es := rfl
    have hl : ((e.legs.map fun l => { l with sent := false }).filter fun l => !ids.contains l.id) =
        (e.legs.filter fun l => !ids.contains l.id).map fun l => { l with sent := false } := by
      rw [List.filter_map]
      rfl
    rw [hc, dropLegs_cons, dropLegs_cons, hl, List.isEmpty_map]
    split
    · exact ih
    · rw [← ih]
      rfl

theorem legIds_bareTable (es : List Entry) : legIds (bareTable es) = legIds es := by
  simp [legIds, bareTable, List.flatMap_map, Function.comp_def]

/-! ### The bounds of the table (R60) -/

/-- A table within the bounds of R60: 128 entries of 1 to 8 legs, no two of one source. -/
structure TableBounded (es : List Entry) : Prop where
  entries : es.length ≤ 128
  legs : ∀ e ∈ es, 1 ≤ e.legs.length ∧ e.legs.length ≤ 8
  sources : (es.map fun e => (e.input, e.channel, e.key)).Nodup

theorem tableBounded_iff (s : State) : tableBounded s ↔ TableBounded s.rig.table :=
  ⟨fun ⟨a, b, c⟩ => ⟨a, b, c⟩, fun ⟨a, b, c⟩ => ⟨a, b, c⟩⟩

theorem TableBounded.full {es : List Entry} (h : TableBounded es) : FullTable es := fun e he =>
  List.ne_nil_of_length_pos (h.legs e he).1

theorem TableBounded.nil : TableBounded [] := ⟨Nat.zero_le _, nofun, List.nodup_nil⟩

/-- The sources of a table do not rest on its sent marks. -/
theorem bareTable_sources (es : List Entry) : (bareTable es).map (fun e => (e.input, e.channel, e.key)) =
    es.map fun e => (e.input, e.channel, e.key) := by
  rw [bareTable, List.map_map]
  rfl

theorem bareTable_bounded {es : List Entry} : TableBounded (bareTable es) ↔ TableBounded es := by
  have hs := bareTable_sources es
  constructor
  · rintro ⟨a, b, c⟩
    refine ⟨by simpa [bareTable] using a, fun e he => ?_, hs ▸ c⟩
    simpa using b _ (mem_bareTable.mpr ⟨e, he, rfl⟩)
  · rintro ⟨a, b, c⟩
    refine ⟨by simpa [bareTable] using a, fun x hx => ?_, hs ▸ c⟩
    obtain ⟨e, he, rfl⟩ := mem_bareTable.mp hx
    simpa using b e he

theorem dropLegs_sources (ids : List Nat) (es : List Entry) :
    ((dropLegs ids es).map fun e => (e.input, e.channel, e.key)).Sublist
      (es.map fun e => (e.input, e.channel, e.key)) := by
  have h := (List.filter_sublist (p := fun e : Entry => !e.legs.isEmpty)
    (l := es.map fun e => { e with legs := e.legs.filter fun l => !ids.contains l.id })).map
      fun e => (e.input, e.channel, e.key)
  rw [List.map_map] at h
  exact h

theorem TableBounded.dropLegs {es : List Entry} (h : TableBounded es) (ids : List Nat) :
    TableBounded (dropLegs ids es) := by
  have hs := dropLegs_sources ids es
  refine ⟨le_trans (by simpa using hs.length_le) h.entries, fun x hx => ?_, h.sources.sublist hs⟩
  refine ⟨List.length_pos_iff.mpr (dropLegs_full ids es x hx), ?_⟩
  obtain ⟨e, he, rfl⟩ := List.mem_map.mp (List.mem_of_mem_filter hx)
  exact (List.length_filter_le _ _).trans (h.legs e he).2

/-- A new entry of a source that the table does not have, where there is room. -/
theorem TableBounded.append {es : List Entry} (h : TableBounded es) (hroom : es.length < 128) {e : Entry}
    (hl : 1 ≤ e.legs.length ∧ e.legs.length ≤ 8)
    (hn : (e.input, e.channel, e.key) ∉ es.map fun e => (e.input, e.channel, e.key)) :
    TableBounded (es ++ [e]) := by
  refine ⟨by simpa using hroom, fun x hx => ?_, ?_⟩
  · rcases List.mem_append.mp hx with hx | hx
    · exact h.legs x hx
    · exact List.mem_singleton.mp hx ▸ hl
  · rw [List.map_append, List.nodup_append]
    refine ⟨h.sources, by simp, ?_⟩
    rintro a ha b hb rfl
    rw [List.map_singleton, List.mem_singleton] at hb
    exact hn (hb ▸ ha)

/-! ### What the operations on notes keep -/

/-- From `r` to `t` the queues and the table stay within their bounds, an empty table stays empty, and the pedals
stay as they are. -/
structure Rig.Keeps (r t : Rig) : Prop where
  queues : r.QueuesSound → t.QueuesSound
  table : TableBounded r.table → TableBounded t.table
  empty : r.table = [] → t.table = []
  pedals : t.pedals = r.pedals

theorem Rig.Keeps.refl (r : Rig) : r.Keeps r := ⟨id, id, id, rfl⟩

theorem Rig.Keeps.trans {r t u : Rig} (h : r.Keeps t) (k : t.Keeps u) : r.Keeps u :=
  ⟨k.queues ∘ h.queues, k.table ∘ h.table, k.empty ∘ h.empty, k.pedals.trans h.pedals⟩

theorem bareTable_eq_nil {es : List Entry} : bareTable es = [] ↔ es = [] := by simp [bareTable]

theorem Rig.Works.keeps {r t : Rig} (h : r.Works t) : r.Keeps t := by
  obtain ⟨ht, hp, -⟩ := h.notes
  refine ⟨h.queues, fun k => ?_, fun k => ?_, hp⟩
  · exact bareTable_bounded.mp (ht ▸ bareTable_bounded.mpr k)
  · exact bareTable_eq_nil.mp (ht.trans (bareTable_eq_nil.mpr k))

theorem Rig.keeps_foldl {α : Type} (f : Rig → α → Rig) (hf : ∀ (r : Rig) (a : α), r.Keeps (f r a))
    (l : List α) (r : Rig) : r.Keeps (l.foldl f r) := by
  induction l generalizing r with
  | nil => exact .refl r
  | cons a l ih => exact (hf r a).trans (ih (f r a))

/-! ### Ends of legs (R68 to R70, R85) -/

theorem Rig.endLeg_keeps (r : Rig) (m : Moment) (id : Nat) : r.Keeps (r.endLeg m id) := by
  cases hf : findLeg r.table id with
  | none =>
    obtain ⟨-, h⟩ | ⟨g, l, hl, -⟩ := r.endLeg_cases m id
    · rw [h]
      exact .refl r
    · rw [hf] at hl
      contradiction
  | some x =>
    have removal : r.Keeps (r.setTable (removeLeg r.table id)) := by
      refine ⟨fun h => h.of_out fun _ => rfl, fun h => ?_, fun h => ?_, rfl⟩
      · rw [Rig.setTable_table, removeLeg_eq]
        exact h.dropLegs _
      · rw [Rig.setTable_table, h]
        rfl
    exact removal.trans (Rig.endLeg_works m (by simp [hf])).keeps

theorem Rig.endLegs_keeps (r : Rig) (m : Moment) (ids : List Nat) : r.Keeps (r.endLegs m ids) :=
  Rig.keeps_foldl _ (fun r id => r.endLeg_keeps m id) ids r

/-- The table after the ends of some legs, but for sent marks: those legs are gone, and the entries that they
leave without legs. -/
theorem Rig.endLegs_bare (r : Rig) (m : Moment) (ids : List Nat) (h : FullTable r.table) :
    bareTable (r.endLegs m ids).table = dropLegs ids (bareTable r.table) := by
  induction ids generalizing r with
  | nil => exact (dropLegs_nil (bareTable_full.mpr h)).symm
  | cons id ids ih =>
    have step : bareTable (r.endLeg m id).table = dropLegs [id] (bareTable r.table) := by
      cases hf : findLeg r.table id with
      | none =>
        obtain ⟨-, he⟩ | ⟨g, l, hl, -⟩ := r.endLeg_cases m id
        · rw [he, ← bareTable_dropLegs, dropLegs_of_absent h]
          simpa using findLeg_none_iff.mp hf
        · rw [hf] at hl
          contradiction
      | some x =>
        rw [(Rig.endLeg_works m (by simp [hf])).notes.1, Rig.setTable_table, removeLeg_eq, bareTable_dropLegs]
    have full : FullTable (r.endLeg m id).table := bareTable_full.mp (step ▸ dropLegs_full _ _)
    show bareTable ((r.endLeg m id).endLegs m ids).table = _
    rw [ih _ full, step, dropLegs_dropLegs]
    rfl

/-- Ending every leg of a table empties it. -/
theorem Rig.endLegs_all (r : Rig) (m : Moment) (h : FullTable r.table) :
    (r.endLegs m (legIds r.table)).table = [] := by
  rw [← bareTable_eq_nil, r.endLegs_bare m _ h, ← legIds_bareTable, dropLegs, List.filter_eq_nil_iff]
  intro x hx
  obtain ⟨e, he, rfl⟩ := List.mem_map.mp hx
  have hgone : (e.legs.filter fun l => !(legIds (bareTable r.table)).contains l.id) = [] := by
    rw [List.filter_eq_nil_iff]
    intro l hl
    have : l.id ∈ legIds (bareTable r.table) := List.mem_flatMap.mpr ⟨e, he, List.mem_map.mpr ⟨l, hl, rfl⟩⟩
    simpa using this
  rw [hgone]
  simp

/-- The sources that stay when some legs end. -/
theorem Rig.endLegs_sources (r : Rig) (m : Moment) (ids : List Nat) (h : FullTable r.table) :
    (r.endLegs m ids).table.map (fun e => (e.input, e.channel, e.key)) =
      (dropLegs ids r.table).map fun e => (e.input, e.channel, e.key) := by
  rw [← bareTable_sources, r.endLegs_bare m ids h, ← bareTable_dropLegs, bareTable_sources]

/-- An entry whose legs all end leaves the table, and no other source enters it. -/
theorem Rig.endLegs_source {r : Rig} (m : Moment) (h : TableBounded r.table) {e : Entry} (he : e ∈ r.table) :
    (e.input, e.channel, e.key) ∉
        (r.endLegs m (legIds [e])).table.map (fun e => (e.input, e.channel, e.key)) ∧
      (r.endLegs m (legIds [e])).table.length < r.table.length := by
  have hs := r.endLegs_sources m (legIds [e]) h.full
  have hsub := dropLegs_sources (legIds [e]) r.table
  have hgone : (e.input, e.channel, e.key) ∉
      (dropLegs (legIds [e]) r.table).map fun e => (e.input, e.channel, e.key) := by
    intro hm
    obtain ⟨x, hx, hxe⟩ := List.mem_map.mp hm
    have hfull := dropLegs_full _ _ x hx
    obtain ⟨y, hy, rfl⟩ := List.mem_map.mp (List.mem_of_mem_filter hx)
    have : y = e := List.inj_on_of_nodup_map h.sources hy he hxe
    subst this
    refine hfull ?_
    rw [List.filter_eq_nil_iff]
    intro l hl
    simpa [legIds] using ⟨l, hl, rfl⟩
  refine ⟨hs ▸ hgone, ?_⟩
  have hle := hsub.length_le
  have hlen : (r.endLegs m (legIds [e])).table.length = (dropLegs (legIds [e]) r.table).length := by
    simpa using congrArg List.length hs
  simp only [List.length_map] at hle
  refine hlen ▸ lt_of_le_of_ne hle fun heq => ?_
  have := hsub.eq_of_length (by simpa using heq)
  exact hgone (this ▸ List.mem_map.mpr ⟨e, he, rfl⟩)

theorem Rig.endOldLegs_keeps (r : Rig) (m : Moment) (o : Output) (c : Chan) : r.Keeps (r.endOldLegs m o c) := by
  refine Rig.keeps_foldl _ (fun r id => ?_) _ r
  unfold Rig.endOldLeg
  split
  · exact .refl r
  · split
    · exact r.endLeg_keeps m id
    · exact .refl r

theorem Rig.expireSpill_keeps (r : Rig) (m : Moment) (o : Output) (c : Chan) : r.Keeps (r.expireSpill m o c) := by
  obtain h | ⟨-, h⟩ := r.expireSpill_cases m o c <;> rw [h]
  · exact r.endOldLegs_keeps m o c
  · exact (r.endOldLegs_keeps m o c).trans (Rig.markExpired_works _ o c).keeps

/-! ### Program settings (R81 to R84) -/

theorem Rig.applySetting_keeps (r : Rig) (m : Moment) (limit : Nat) (t : Setting) :
    r.Keeps (r.applySetting m limit t) := by
  obtain ⟨-, -, h⟩ | ⟨-, h⟩ | ⟨a, -, -, -, h⟩ | ⟨-, -, h⟩ := r.applySetting_cases m limit t <;> rw [h]
  · exact .refl r
  · exact (r.sendProgram_works m _ _ _).keeps
  · exact (r.sendProgram_works m t.output a t.program).keeps.trans (Rig.setChan_works _ _ _ _).keeps
  · have hw : r.Keeps (r.setChan t.output t.channel { r.chan t.output t.channel with
        pending := some ⟨t.program, m.generation, after m.now (limit * 1000)⟩
        old := (r.chan t.output t.channel).sounding }) := (r.setChan_works _ _ _).keeps
    unfold Rig.leavePending
    dsimp only
    split
    · exact hw.trans (Rig.expireSpill_keeps _ m _ _)
    · exact hw

theorem Rig.applySettings_keeps (r : Rig) (m : Moment) (limit : Nat) (ts : List Setting) :
    r.Keeps (r.applySettings m limit ts) := by
  have h : r.Keeps (r.mapRecords fun x => x.dropRedirect m.generation) :=
    ⟨fun h => h.of_out fun _ => rfl, id, id, rfl⟩
  exact h.trans (Rig.keeps_foldl _ (fun r t => r.applySetting_keeps m limit t) ts _)

/-! ### Building legs (R47 to R52) -/

/-- `t` differs from `r` in the desk alone. -/
def Rig.OnlyDesk (r t : Rig) : Prop := t = r.setDesk t.desk

theorem Rig.OnlyDesk.refl (r : Rig) : r.OnlyDesk r := rfl
theorem Rig.onlyDesk_setDesk (r : Rig) (d : Desk) : r.OnlyDesk (r.setDesk d) := rfl

theorem Rig.OnlyDesk.trans {r t u : Rig} (h : r.OnlyDesk t) (k : t.OnlyDesk u) : r.OnlyDesk u := by
  rw [Rig.OnlyDesk, k, h]
  rfl

/-- A fold that builds a list beside the rig touches the desk alone when each of its rounds does. -/
theorem Rig.onlyDesk_foldl_pair {α β : Type} (f : Rig × β → α → Rig × β)
    (hf : ∀ (x : Rig × β) (a : α), x.1.OnlyDesk (f x a).1) (l : List α) (x : Rig × β) :
    x.1.OnlyDesk (l.foldl f x).1 := by
  induction l generalizing x with
  | nil => exact .refl _
  | cons a l ih => exact (hf x a).trans (ih (f x a))

theorem Rig.candidate_onlyDesk (r : Rig) (m : Moment) (echo : BitVec 4) (n : Input) (k v : Seven) (e : Layer)
    (o : Output) : r.OnlyDesk (r.candidate m echo n k v e o).1 := by
  unfold Rig.candidate
  split
  · exact .refl r
  · split
    · exact r.onlyDesk_setDesk _
    · exact .refl r

theorem Rig.entryLegs_onlyDesk (r : Rig) (m : Moment) (echo : BitVec 4) (n : Input) (c : Chan) (k v : Seven)
    (e : Layer) : r.OnlyDesk (r.entryLegs m echo n c k v e).1 := by
  unfold Rig.entryLegs
  split
  · dsimp only
    have h : r.OnlyDesk (if e.isVoid echo n then r.reportVoid m n c e else r) := by
      split
      · exact r.onlyDesk_setDesk _
      · exact .refl r
    generalize (if e.isVoid echo n then r.reportVoid m n c e else r) = t at h ⊢
    exact h.trans (Rig.onlyDesk_foldl_pair (fun (acc : Rig × List LegPlan) o =>
      ((acc.1.candidate m echo n k v e o).1, acc.2 ++ (acc.1.candidate m echo n k v e o).2))
      (fun x o => x.1.candidate_onlyDesk m echo n k v e o) _ (t, []))
  · exact .refl r

theorem Rig.keepLeg_onlyDesk (x : Rig × List LegPlan) (l : LegPlan) : x.1.OnlyDesk (Rig.keepLeg x l).1 := by
  unfold Rig.keepLeg
  split
  · exact .refl _
  · split
    · exact .refl _
    · exact Rig.onlyDesk_setDesk _ _

/-- Building legs changes the desk alone. -/
theorem Rig.buildLegs_onlyDesk (r : Rig) (m : Moment) (echo : BitVec 4) (bank : List Layer) (n : Input)
    (c : Chan) (k v : Seven) : r.OnlyDesk (r.buildLegs m echo bank n c k v).1 := by
  have h := Rig.onlyDesk_foldl_pair (fun (acc : Rig × List LegPlan) e =>
    ((acc.1.entryLegs m echo n c k v e).1, acc.2 ++ (acc.1.entryLegs m echo n c k v e).2))
    (fun x e => x.1.entryLegs_onlyDesk m echo n c k v e) (bank.filter fun e => e.isMatch n c k v) (r, [])
  exact h.trans (Rig.onlyDesk_foldl_pair Rig.keepLeg Rig.keepLeg_onlyDesk _ (_, []))

/-- A note-on has at most 8 legs (R52). -/
theorem Rig.buildLegs_length (r : Rig) (m : Moment) (echo : BitVec 4) (bank : List Layer) (n : Input)
    (c : Chan) (k v : Seven) : (r.buildLegs m echo bank n c k v).2.length ≤ 8 := by
  have keep : ∀ (x : Rig × List LegPlan) (l : LegPlan), x.2.length ≤ 8 → (Rig.keepLeg x l).2.length ≤ 8 := by
    intro x l h
    unfold Rig.keepLeg
    split
    · exact h
    · split
      · simpa [Config.maxLegs] using ‹_›
      · exact h
  have fold : ∀ (ls : List LegPlan) (x : Rig × List LegPlan), x.2.length ≤ 8 →
      (ls.foldl Rig.keepLeg x).2.length ≤ 8 := by
    intro ls
    induction ls with
    | nil => exact fun x h => h
    | cons l ls ih => exact fun x h => ih _ (keep x l h)
  exact fold _ _ (Nat.zero_le _)

/-! ### Note-ons and note-offs (R62 to R67) -/

theorem numberLegs_length (first : Nat) (plans : List LegPlan) : (numberLegs first plans).length = plans.length := by
  induction plans generalizing first with
  | nil => rfl
  | cons l ls ih => simp [numberLegs, ih]

/-- A new note: its entry stands behind the others, and its legs are work of the outputs. -/
theorem Rig.create_works (r : Rig) (m : Moment) (n : Input) (c : Chan) (k : Seven) (plans : List LegPlan) :
    Rig.Works { r with
      table := r.table ++ [⟨n, c, k, false, m.generation, numberLegs r.nextLeg plans⟩]
      nextLeg := r.nextLeg + plans.length } (r.create m n c k plans) :=
  Rig.works_foldl _ (fun r l => r.soundLeg_works m l) _ _

theorem Rig.create_queues (r : Rig) (m : Moment) (n : Input) (c : Chan) (k : Seven) (plans : List LegPlan)
    (h : r.QueuesSound) : (r.create m n c k plans).QueuesSound :=
  (r.create_works m n c k plans).queues (h.of_out fun _ => rfl)

theorem Rig.create_table (r : Rig) (m : Moment) (n : Input) (c : Chan) (k : Seven) (plans : List LegPlan)
    (h : TableBounded r.table) (hroom : r.table.length < 128) (hl : 1 ≤ plans.length ∧ plans.length ≤ 8)
    (hn : (n, c, k) ∉ r.table.map fun e => (e.input, e.channel, e.key)) :
    TableBounded (r.create m n c k plans).table :=
  (r.create_works m n c k plans).keeps.table
    (h.append hroom (by simpa [numberLegs_length] using hl) hn)

theorem isFrom_iff (e : Entry) (n : Input) (c : Chan) (k : Seven) :
    e.isFrom n c k = true ↔ (e.input, e.channel, e.key) = (n, c, k) := by
  simp [Entry.isFrom, and_assoc]

theorem Rig.strike_queues (r : Rig) (m : Moment) (n : Input) (c : Chan) (k : Seven) (plans : List LegPlan)
    (h : r.QueuesSound) : (r.strike m n c k plans).QueuesSound := by
  unfold Rig.strike
  split
  · exact Rig.create_queues _ m n c k plans ((r.endLegs_keeps m _).queues h)
  · split
    · exact r.create_queues m n c k plans h
    · split
      · exact Rig.create_queues _ m n c k plans ((r.endLegs_keeps m _).queues h)
      · exact (r.report_works _ _).queues h

theorem Rig.strike_table (r : Rig) (m : Moment) (n : Input) (c : Chan) (k : Seven) (plans : List LegPlan)
    (h : TableBounded r.table) (hl : 1 ≤ plans.length ∧ plans.length ≤ 8) :
    TableBounded (r.strike m n c k plans).table := by
  unfold Rig.strike
  split
  · rename_i e he
    obtain ⟨hgone, hlen⟩ := Rig.endLegs_source m h (List.mem_of_find?_eq_some he)
    have hsource := (isFrom_iff e n c k).mp (by simpa using List.find?_some he)
    have := h.entries
    exact Rig.create_table _ m n c k plans ((r.endLegs_keeps m _).table h) (by omega) hl (hsource ▸ hgone)
  · rename_i hfresh
    have hnew : (n, c, k) ∉ r.table.map fun e => (e.input, e.channel, e.key) := by
      intro hm
      obtain ⟨e, he, hs⟩ := List.mem_map.mp hm
      exact List.find?_eq_none.mp hfresh e he ((isFrom_iff e n c k).mpr hs)
    split
    · exact r.create_table m n c k plans h (by assumption) hl hnew
    · split
      · rename_i e he
        obtain ⟨-, hlen⟩ := Rig.endLegs_source m h (List.mem_of_find?_eq_some he)
        have := h.entries
        refine Rig.create_table _ m n c k plans ((r.endLegs_keeps m _).table h) (by omega) hl fun hm => hnew ?_
        exact (dropLegs_sources _ _).subset (r.endLegs_sources m _ h.full ▸ hm)
      · exact h

theorem Rig.routeLegs_queues (r : Rig) (m : Moment) (n : Input) (c : Chan) (k : Seven) (plans : List LegPlan)
    (h : r.QueuesSound) : (r.routeLegs m n c k plans).QueuesSound := by
  unfold Rig.routeLegs
  split
  · exact h
  · exact Rig.strike_queues _ m n c k _ ((r.report_works _ _).queues h)

theorem Rig.routeLegs_table (r : Rig) (m : Moment) (n : Input) (c : Chan) (k : Seven) (plans : List LegPlan)
    (h : TableBounded r.table) (hl : plans.length ≤ 8) : TableBounded (r.routeLegs m n c k plans).table := by
  unfold Rig.routeLegs
  split
  · exact h
  · exact Rig.strike_table _ m n c k _ h ⟨by simp, hl⟩

theorem Rig.liftKey_keeps (r : Rig) (m : Moment) (n : Input) (c : Chan) (k : Seven) :
    r.Keeps (r.liftKey m n c k) := by
  unfold Rig.liftKey
  split
  · exact .refl r
  · split
    · exact .refl r
    · split
      · refine ⟨fun h => h.of_out fun _ => rfl, fun ⟨a, b, d⟩ => ?_, fun h => ?_, rfl⟩
        · have hs : (sustainEntry r.table n c k).map (fun e => (e.input, e.channel, e.key)) =
              r.table.map fun e => (e.input, e.channel, e.key) := by
            simp only [sustainEntry, List.map_map]
            refine List.map_congr_left fun e _ => ?_
            simp only [Function.comp_apply]
            split <;> rfl
          refine ⟨by simpa [sustainEntry] using a, fun x hx => ?_, hs ▸ d⟩
          obtain ⟨e, he, rfl⟩ := List.mem_map.mp hx
          split <;> exact b e he
        · rw [Rig.setTable_table, h]
          rfl
      · exact r.endLegs_keeps m _

theorem Rig.movePedal_bounds (r : Rig) (m : Moment) (n : Input) (c : Chan) (v : Seven) :
    (r.QueuesSound → (r.movePedal m n c v).QueuesSound) ∧
      (TableBounded r.table → TableBounded (r.movePedal m n c v).table) := by
  unfold Rig.movePedal
  split
  · exact ⟨fun h => h.of_out fun _ => rfl, id⟩
  · split
    · have h := Rig.endLegs_keeps (r.setPedal n c false) m
        (legIds (r.table.filter fun e => e.sustained && e.input = n && e.channel = c))
      exact ⟨fun hq => h.queues (hq.of_out fun _ => rfl), h.table⟩
    · exact ⟨id, id⟩

end Sys2Proof.Machine
end

section
/-! Appends to an urgent queue: what one append leaves of every block, what several leave, and the work that is
done output by output (R30, R31, R37). -/
namespace Sys2Proof.Machine

/-! ### The next event of a free line (R31) -/

theorem nextTransmit_cons (now : StageTime) (e : Urgent) (es : List Urgent) (bulk : List BulkPlace) :
    nextTransmit now (e :: es) bulk = .sending .urgent (now + BitVec.ofNat 32 (320 * e.octets.length)) := rfl

theorem nextTransmit_append (now : StageTime) {es : List Urgent} (h : es ≠ []) (fs : List Urgent)
    (bulk : List BulkPlace) : nextTransmit now (es ++ fs) bulk = nextTransmit now es bulk := by
  cases es with
  | nil => exact absurd rfl h
  | cons e es => rfl

theorem nextTransmit_ne_idle (now : StageTime) {es : List Urgent} (h : es ≠ []) (bulk : List BulkPlace) :
    nextTransmit now es bulk ≠ .idle := by
  cases es with
  | nil => exact absurd rfl h
  | cons e es => simp [nextTransmit]

/-- Starting the line of an output: an idle one takes the transmit state of its next event, and a note-on that
begins is counted as LEGS SENT. -/
theorem Rig.startLine_eq (r : Rig) (m : Moment) (o : Output) :
    r.startLine m o = (r.setOut o { r.out o with
      transmit := if (r.out o).transmit = .idle then nextTransmit m.now (r.out o).urgent (r.out o).bulk
        else (r.out o).transmit }).setDesk
      (if (r.out o).transmit = .idle ∧ (r.out o).urgent.head?.map Urgent.isNoteOn = some true
        then r.desk.report .legsSent o.val else r.desk) := by
  have same : r.setOut o (r.out o) = r := by simp [Rig.setOut, Rig.out]
  unfold Rig.startLine
  dsimp only
  split
  · rename_i q u h
    rw [if_neg (by simp [h]), if_neg (by simp [h])]
    exact same.symm
  · rename_i h
    rw [if_pos h]
    split
    · rename_i e es hu
      cases he : e.isNoteOn <;>
        simp [hu, he, h, nextTransmit, after, Rig.report, Rig.setDesk, Rig.setOut]
    · rename_i b bs hu hb
      simp [hu, hb, h, nextTransmit, after, Rig.setDesk, Rig.setOut]
    · rename_i hu hb
      have ht : nextTransmit m.now (r.out o).urgent (r.out o).bulk = (r.out o).transmit := by
        rw [hu, hb, h]
        rfl
      rw [ht, if_neg (by simp [hu])]
      exact same.symm

/-! ### One append -/

theorem Rig.raiseCritical_eq (r : Rig) (o : Output) :
    r.raiseCritical o = (r.setOut o { r.out o with
      critical := (r.out o).critical || decide ((r.out o).level < (r.out o).urgent.length) }).setDesk
      (if (r.out o).critical = false ∧ (r.out o).level < (r.out o).urgent.length
        then r.desk.raise (.queueCritical o (r.out o).urgent.length (r.out o).level) else r.desk) := by
  have same : r.setOut o (r.out o) = r := by simp [Rig.setOut, Rig.out]
  unfold Rig.raiseCritical
  dsimp only
  cases hc : (r.out o).critical
  · by_cases hl : (r.out o).level < (r.out o).urgent.length
    · simp [hl, Rig.raise, Rig.setDesk, Rig.setOut]
    · simp only [hl, decide_false, Bool.false_and, Bool.false_eq_true, if_false, and_false, Bool.or_false]
      rw [← hc]
      exact same.symm
  · simp only [Bool.not_true, Bool.and_false, Bool.false_eq_true, if_false, false_and, Bool.true_or,
      Bool.true_eq_false]
    rw [← hc]
    exact same.symm

theorem Rig.setOut_setOut (r : Rig) (o : Output) (x y : OutPort) : (r.setOut o x).setOut o y = r.setOut o y := by
  simp [Rig.setOut]

/-- An append, block by block. -/
theorem Rig.append_eq (r : Rig) (m : Moment) (o : Output) (e : Urgent) :
    r.append m o e = appendedRig m.now r o e := by
  unfold Rig.append
  dsimp only
  rw [Rig.startLine_eq, Rig.raiseCritical_eq]
  have hout : ∀ (x : OutPort), ((r.setOut o x).dropHeld o e).out o = x := fun x => by
    simp [Rig.out_setOut]
  have hdesk : ∀ (x : OutPort), ((r.setOut o x).dropHeld o e).desk = r.desk := fun x => by
    cases e <;> rfl
  simp only [Rig.out_setDesk, Rig.out_setOut, if_true, hout, hdesk, Rig.setDesk_desk, List.length_append,
    List.length_cons, List.length_nil]
  cases e <;> simp [appendedRig, appendedOut, appendedDesk, Rig.setDesk, Rig.setOut, Rig.dropHeld, Rig.setChan,
    Rig.chan]

/-! ### Several appends to one output -/

theorem appendedOut_nil (now : StageTime) (q : OutPort) : appendedOut now q [] = q := if_pos rfl

/-- Appends one after another are one append of them all. -/
theorem appendedOut_append (now : StageTime) (q : OutPort) (es fs : List Urgent) :
    appendedOut now (appendedOut now q es) fs = appendedOut now q (es ++ fs) := by
  by_cases he : es = []
  · rw [he, appendedOut_nil, List.nil_append]
  by_cases hf : fs = []
  · rw [hf, appendedOut_nil, List.append_nil]
  have hne : q.urgent ++ es ≠ [] := by simp [he]
  have hef : es ++ fs ≠ [] := by simp [he]
  have htr : (if (if q.transmit = .idle then nextTransmit now (q.urgent ++ es) q.bulk else q.transmit) = .idle
        then nextTransmit now (q.urgent ++ es ++ fs) q.bulk
        else if q.transmit = .idle then nextTransmit now (q.urgent ++ es) q.bulk else q.transmit) =
      if q.transmit = .idle then nextTransmit now (q.urgent ++ (es ++ fs)) q.bulk else q.transmit := by
    rw [← List.append_assoc, nextTransmit_append now hne]
    by_cases ht : q.transmit = .idle
    · simp [ht, nextTransmit_ne_idle now hne]
    · simp [ht]
  have hcr : ((q.critical || decide (q.level < q.urgent.length + es.length)) ||
        decide (q.level < (q.urgent ++ es).length + fs.length)) =
      (q.critical || decide (q.level < q.urgent.length + (es ++ fs).length)) := by
    rw [Bool.or_assoc, ← Bool.decide_or, List.length_append, List.length_append]
    congr 2
    exact propext ⟨by omega, by omega⟩
  unfold appendedOut
  rw [if_neg hf, if_neg he, if_neg hef]
  dsimp only
  rw [htr, hcr, List.append_assoc]

/-- Events are appended to an output one after another. -/
def Rig.appendAll (r : Rig) (m : Moment) (o : Output) (es : List Urgent) : Rig :=
  es.foldl (fun r e => r.append m o e) r

theorem Rig.appendAll_cons (r : Rig) (m : Moment) (o : Output) (e : Urgent) (es : List Urgent) :
    r.appendAll m o (e :: es) = (r.append m o e).appendAll m o es := rfl

theorem Rig.appendAll_append (r : Rig) (m : Moment) (o : Output) (es fs : List Urgent) :
    r.appendAll m o (es ++ fs) = (r.appendAll m o es).appendAll m o fs := List.foldl_append

theorem Rig.silence_eq (r : Rig) (m : Moment) (o : Output) :
    r.silence m o = r.appendAll m o (allChans.map .allNotesOff) := by
  rw [Rig.silence, Rig.appendAll, List.foldl_map]

theorem appendedRig_out (now : StageTime) (r : Rig) (o p : Output) (e : Urgent) :
    (appendedRig now r o e).out p = if p = o then appendedOut now (r.out o) [e] else r.out p :=
  r.out_setOut o p (appendedOut now (r.out o) [e])

theorem appendedRig_chan (now : StageTime) (r : Rig) (o p : Output) (c : Chan) (e : Urgent) :
    (appendedRig now r o e).chan p c =
      if p = o ∧ e.isProgramOf c = true then { r.chan p c with held := none } else r.chan p c := by
  cases e with
  | noteOn d k v l => simp [Urgent.isProgramOf, appendedRig, Rig.chan]
  | noteOff d k => simp [Urgent.isProgramOf, appendedRig, Rig.chan]
  | allNotesOff d => simp [Urgent.isProgramOf, appendedRig, Rig.chan]
  | program d p' x =>
    have h : (appendedRig now r o (.program d p' x)).chan p c =
        (r.setChan o d { r.chan o d with held := none }).chan p c := rfl
    rw [h, Rig.chan_setChan]
    simp only [Urgent.isProgramOf, decide_eq_true_eq]
    by_cases hp : p = o ∧ c = d
    · obtain ⟨rfl, rfl⟩ := hp
      simp
    · rw [if_neg hp, if_neg (fun h => hp ⟨h.1, h.2.symm⟩)]

theorem appendedRig_notes (now : StageTime) (r : Rig) (o : Output) (e : Urgent) :
    r.sameNotes (appendedRig now r o e) := ⟨rfl, rfl, rfl⟩

theorem Rig.appendAll_notes (r : Rig) (m : Moment) (o : Output) (es : List Urgent) :
    r.sameNotes (r.appendAll m o es) := by
  induction es generalizing r with
  | nil => exact r.sameNotes_refl
  | cons e es ih => exact Rig.sameNotes_trans (r.append_notes m o e) (ih _)

theorem Rig.appendAll_out (r : Rig) (m : Moment) (o p : Output) (es : List Urgent) :
    (r.appendAll m o es).out p = if p = o then appendedOut m.now (r.out o) es else r.out p := by
  induction es generalizing r with
  | nil =>
    rw [appendedOut_nil]
    split
    · rename_i h
      rw [h]
      rfl
    · rfl
  | cons e es ih =>
    rw [Rig.appendAll_cons, ih, Rig.append_eq, appendedRig_out, appendedRig_out, if_pos rfl, appendedOut_append]
    split <;> rfl

theorem Rig.appendAll_chan (r : Rig) (m : Moment) (o p : Output) (c : Chan) (es : List Urgent) :
    (r.appendAll m o es).chan p c =
      if p = o ∧ es.any (·.isProgramOf c) = true then { r.chan p c with held := none } else r.chan p c := by
  induction es generalizing r with
  | nil => simp [Rig.appendAll]
  | cons e es ih =>
    rw [Rig.appendAll_cons, ih, Rig.append_eq, appendedRig_chan]
    by_cases hp : p = o
    · by_cases he : e.isProgramOf c = true <;> by_cases hs : es.any (·.isProgramOf c) = true <;>
        simp [hp, he, hs]
    · simp [hp]

/-- The reports of several appends where no note-on begins: CRITICAL once, at the first append that passes the
level of a clear flag. -/
theorem Rig.appendAll_desk (r : Rig) (m : Moment) (o : Output) (es : List Urgent)
    (hstart : (r.out o).transmit = .idle →
      ∀ e, ((r.out o).urgent ++ es).head? = some e → e.isNoteOn = false) :
    (r.appendAll m o es).desk =
      if es ≠ [] ∧ (r.out o).critical = false ∧ (r.out o).level < (r.out o).urgent.length + es.length then
        r.desk.raise (.queueCritical o (max ((r.out o).level + 1) ((r.out o).urgent.length + 1)) (r.out o).level)
      else r.desk := by
  induction es generalizing r with
  | nil => simp [Rig.appendAll]
  | cons e es ih =>
    have hq : (appendedRig m.now r o e).out o = appendedOut m.now (r.out o) [e] := by
      rw [appendedRig_out, if_pos rfl]
    have hbusy : (appendedOut m.now (r.out o) [e]).transmit ≠ .idle := by
      simp only [appendedOut, List.cons_ne_nil, if_false]
      split
      · exact nextTransmit_ne_idle _ (by simp) _
      · assumption
    have hd : (appendedRig m.now r o e).desk =
        if (r.out o).critical = false ∧ (r.out o).level < (r.out o).urgent.length + 1 then
          r.desk.raise (.queueCritical o ((r.out o).urgent.length + 1) (r.out o).level) else r.desk := by
      show appendedDesk r.desk o (r.out o) e = _
      unfold appendedDesk
      dsimp only
      rw [if_neg]
      rintro ⟨hidle, hon⟩
      obtain ⟨x, hx, hxo⟩ := Option.map_eq_some_iff.mp hon
      have : ((r.out o).urgent ++ e :: es).head? = some x := by
        cases hu : (r.out o).urgent <;> simpa [hu] using hx
      simp [hstart hidle x this] at hxo
    rw [Rig.appendAll_cons, Rig.append_eq, ih _ (fun h => absurd (hq ▸ h) hbusy), hq, hd]
    simp only [appendedOut, List.cons_ne_nil, if_false, ne_eq, not_false_eq_true, true_and,
      List.length_append, List.length_cons, List.length_nil]
    cases hc : (r.out o).critical
    · by_cases hnow : (r.out o).level < (r.out o).urgent.length + 1
      · have hlen : max ((r.out o).level + 1) ((r.out o).urgent.length + 1) = (r.out o).urgent.length + 1 := by
          omega
        have hlater : (r.out o).level < (r.out o).urgent.length + (es.length + 1) := by omega
        simp [hnow, hlater, hlen]
      · by_cases hes : es = []
        · simp [hes, hnow]
        · have hlen : max ((r.out o).level + 1) ((r.out o).urgent.length + 1 + 1) =
              max ((r.out o).level + 1) ((r.out o).urgent.length + 1) := by omega
          have hadd : (r.out o).urgent.length + 1 + es.length = (r.out o).urgent.length + (es.length + 1) := by
            omega
          simp [hes, hnow, hlen, hadd]
    · simp

/-! ### Work done output by output -/

/-- Outputs are handled one after another, each by an operation on its own output and its own records: what the
operations make of them is what stands after all, and the desk hears them in order. -/
theorem Rig.foldl_outputs {f : Rig → Output → Rig} {q q' : Output → OutPort} {x x' : Output → Chan → ChanRec}
    {d : Desk → Output → Desk} (l : List Output) (hl : l.Nodup)
    (hf : ∀ (r : Rig) (o : Output), o ∈ l → r.out o = q o → (∀ c, r.chan o c = x o c) →
      r.sameNotes (f r o) ∧ (f r o).out o = q' o ∧ (∀ c, (f r o).chan o c = x' o c) ∧
        (f r o).desk = d r.desk o ∧
        ∀ p, p ≠ o → (f r o).out p = r.out p ∧ ∀ c, (f r o).chan p c = r.chan p c)
    (r : Rig) (hq : ∀ o ∈ l, r.out o = q o) (hx : ∀ o ∈ l, ∀ c, r.chan o c = x o c) :
    r.sameNotes (l.foldl f r) ∧ (l.foldl f r).desk = l.foldl d r.desk ∧
      (∀ o ∈ l, (l.foldl f r).out o = q' o ∧ ∀ c, (l.foldl f r).chan o c = x' o c) ∧
      ∀ o ∉ l, (l.foldl f r).out o = r.out o ∧ ∀ c, (l.foldl f r).chan o c = r.chan o c := by
  induction l generalizing r with
  | nil => exact ⟨r.sameNotes_refl, rfl, nofun, fun o _ => ⟨rfl, fun _ => rfl⟩⟩
  | cons o l ih =>
    obtain ⟨ho, hl⟩ := List.nodup_cons.mp hl
    obtain ⟨hn, ho', hx', hd, hrest⟩ := hf r o List.mem_cons_self (hq o List.mem_cons_self)
      (hx o List.mem_cons_self)
    have other : ∀ p ∈ l, p ≠ o := fun p hp h => ho (h ▸ hp)
    obtain ⟨kn, kd, kin, kout⟩ := ih hl (fun r p hp => hf r p (List.mem_cons_of_mem _ hp)) (f r o)
      (fun p hp => ((hrest p (other p hp)).1).trans (hq p (List.mem_cons_of_mem _ hp)))
      (fun p hp c => ((hrest p (other p hp)).2 c).trans (hx p (List.mem_cons_of_mem _ hp) c))
    refine ⟨Rig.sameNotes_trans hn kn, by rw [List.foldl_cons, List.foldl_cons, kd, hd], ?_, ?_⟩
    · intro p hp
      rcases List.mem_cons.mp hp with rfl | hp
      · obtain ⟨a, b⟩ := kout p ho
        exact ⟨a.trans ho', fun c => (b c).trans (hx' c)⟩
      · exact kin p hp
    · intro p hp
      have hpo : p ≠ o := fun h => hp (h ▸ List.mem_cons_self)
      have hpl : p ∉ l := fun h => hp (List.mem_cons_of_mem _ h)
      obtain ⟨a, b⟩ := kout p hpl
      exact ⟨a.trans (hrest p hpo).1, fun c => (b c).trans ((hrest p hpo).2 c)⟩

theorem mem_allOutputs (o : Output) : o ∈ allOutputs := by fin_cases o <;> decide

theorem mem_allChans (c : Chan) : c ∈ allChans := by fin_cases c <;> decide

theorem allOutputs_nodup : allOutputs.Nodup := by decide

theorem allChans_nodup : allChans.Nodup := by decide

/-- All outputs are handled one after another, each by an operation on its own output and its own records. -/
theorem Rig.foldl_allOutputs {f : Rig → Output → Rig} {q' : Output → OutPort} {x' : Output → Chan → ChanRec}
    {d : Desk → Output → Desk} (r : Rig)
    (hf : ∀ (t : Rig) (o : Output), t.out o = r.out o → (∀ c, t.chan o c = r.chan o c) →
      t.sameNotes (f t o) ∧ (f t o).out o = q' o ∧ (∀ c, (f t o).chan o c = x' o c) ∧
        (f t o).desk = d t.desk o ∧
        ∀ p, p ≠ o → (f t o).out p = t.out p ∧ ∀ c, (f t o).chan p c = t.chan p c) :
    r.sameNotes (allOutputs.foldl f r) ∧ (allOutputs.foldl f r).desk = allOutputs.foldl d r.desk ∧
      ∀ o, (allOutputs.foldl f r).out o = q' o ∧ ∀ c, (allOutputs.foldl f r).chan o c = x' o c := by
  obtain ⟨hn, hd, hin, -⟩ := Rig.foldl_outputs allOutputs allOutputs_nodup
    (fun t o _ => hf t o) r (fun _ _ => rfl) (fun _ _ _ => rfl)
  exact ⟨hn, hd, fun o => hin o (mem_allOutputs o)⟩

/-! ### All outputs, all records -/

theorem Rig.out_mapOutputs (r : Rig) (f : OutPort → OutPort) (o : Output) :
    (r.mapOutputs f).out o = f (r.out o) := by
  simp [Rig.mapOutputs, Rig.out, mapAll]

theorem Rig.chan_mapRecords (r : Rig) (f : ChanRec → ChanRec) (o : Output) (c : Chan) :
    (r.mapRecords f).chan o c = f (r.chan o c) := by
  simp [Rig.mapRecords, Rig.chan, mapAll]

@[simp] theorem Rig.chan_mapOutputs (r : Rig) (f : OutPort → OutPort) (o : Output) (c : Chan) :
    (r.mapOutputs f).chan o c = r.chan o c := rfl

@[simp] theorem Rig.out_mapRecords (r : Rig) (f : ChanRec → ChanRec) (o : Output) :
    (r.mapRecords f).out o = r.out o := rfl

end Sys2Proof.Machine
end

section
/-! The panic, RESTART and leaving SHOW on the instrument side: the outputs, records and reports that they leave
(R40, R41, R74, R76, R77, R85, R90, R92). -/
namespace Sys2Proof.Machine

/-! ### Records changed one after another -/

theorem Rig.setChan_chan (r : Rig) (o : Output) (c : Chan) : r.setChan o c (r.chan o c) = r := by
  simp [Rig.setChan, Rig.chan]

/-- The records of an output are changed one after another, each by what it holds. -/
theorem Rig.foldl_setChan (r : Rig) (o : Output) (g : Chan → ChanRec → ChanRec) (cs : List Chan) (h : cs.Nodup) :
    r.sameNotes (cs.foldl (fun r c => r.setChan o c (g c (r.chan o c))) r) ∧
      (cs.foldl (fun r c => r.setChan o c (g c (r.chan o c))) r).desk = r.desk ∧
      (∀ p, (cs.foldl (fun r c => r.setChan o c (g c (r.chan o c))) r).out p = r.out p) ∧
      ∀ p d, (cs.foldl (fun r c => r.setChan o c (g c (r.chan o c))) r).chan p d =
        if p = o ∧ d ∈ cs then g d (r.chan p d) else r.chan p d := by
  induction cs generalizing r with
  | nil => exact ⟨r.sameNotes_refl, rfl, fun _ => rfl, fun _ _ => by simp⟩
  | cons c cs ih =>
    obtain ⟨hc, hcs⟩ := List.nodup_cons.mp h
    obtain ⟨kn, kd, ko, kx⟩ := ih (r.setChan o c (g c (r.chan o c))) hcs
    refine ⟨Rig.sameNotes_trans ⟨rfl, rfl, rfl⟩ kn, kd, ko, fun p d => ?_⟩
    rw [List.foldl_cons, kx, Rig.chan_setChan]
    by_cases hp : p = o
    · subst hp
      by_cases hd : d = c
      · subst hd
        simp [hc]
      · simp [hd]
    · simp [hp]

/-! ### The programs of a panic (R40, R85) -/

/-- What a panic appends to an enabled output found as `q` with the records `x`: an ALL-NOTES-OFF on every channel,
and in channel order the programs it offers. -/
def panicEvents (q : OutPort) (x : Chan → ChanRec) : List Urgent :=
  allChans.map .allNotesOff ++ allChans.filterMap fun c =>
    ((x c).panicProgram (expiredProgram c q.purged)).map fun p => .program c p false

/-- The programs of a panic are appended in channel order, each decided by the record that the panic found. -/
theorem Rig.foldl_panicChan (r : Rig) (m : Moment) (o : Output) (purged : List Urgent) (offer : Chan → Option Program)
    (cs : List Chan) (hcs : cs.Nodup)
    (h : ∀ c ∈ cs, (r.chan o c).panicProgram (expiredProgram c purged) = offer c) :
    cs.foldl (fun r c => r.panicChan m o purged c) r =
      r.appendAll m o (cs.filterMap fun c => (offer c).map fun p => .program c p false) := by
  induction cs generalizing r with
  | nil => rfl
  | cons c cs ih =>
    obtain ⟨hc, hnd⟩ := List.nodup_cons.mp hcs
    have hnow := h c List.mem_cons_self
    have hrest : ∀ d ∈ cs, (r.chan o d).panicProgram (expiredProgram d purged) = offer d := fun d hd =>
      h d (List.mem_cons_of_mem _ hd)
    rw [List.foldl_cons]
    cases ho : offer c with
    | none =>
      have hp : r.panicChan m o purged c = r := by rw [Rig.panicChan, hnow, ho]
      rw [hp, ih r hnd hrest]
      simp [ho]
    | some p =>
      have hp : r.panicChan m o purged c = r.append m o (.program c p false) := by rw [Rig.panicChan, hnow, ho]
      have hother : ∀ d ∈ cs, ((r.append m o (.program c p false)).chan o d).panicProgram
          (expiredProgram d purged) = offer d := fun d hd => by
        have hdc : c ≠ d := fun he => hc (he ▸ hd)
        rw [Rig.append_eq, appendedRig_chan, if_neg (by simp [Urgent.isProgramOf, hdc]), hrest d hd]
      rw [hp, ih _ hnd hother]
      simp [ho, Rig.appendAll_cons]

theorem Rig.panicHold_eq (r : Rig) (o : Output) (c : Chan) :
    r.panicHold o c = r.setChan o c { r.chan o c with held := (match (r.chan o c).pending with
      | none => (r.chan o c).held
      | some p => some p.program) } := by
  unfold Rig.panicHold
  cases h : (r.chan o c).pending with
  | none => exact (r.setChan_chan o c).symm
  | some p =>
    simp only [Rig.hold]

/-- The output that a panic leaves, found as `q` with the records `x`. -/
def panickedOut (now : StageTime) (q : OutPort) (x : Chan → ChanRec) : OutPort :=
  if q.enabled then appendedOut now { q.purge with overflow := false, critical := false } (panicEvents q x)
  else { q.purge with overflow := false, critical := false }

/-- The record that a panic leaves on an output that is enabled or not (R40, R74, R90). -/
def panickedRec (enabled : Bool) (x : ChanRec) : ChanRec :=
  ChanRec.panicCurrent { x with
    sounding := 0
    old := 0
    panicOwed := false
    redirect := none
    held := if enabled then none else match x.pending with
      | none => x.held
      | some p => some p.program }

/-- The third stage of a panic at one output. -/
theorem Rig.panicOutput_spec (r : Rig) (m : Moment) (o : Output) (purged : List Urgent)
    (hstart : (r.out o).transmit = .idle → (r.out o).urgent = []) :
    let es := allChans.map Urgent.allNotesOff ++ allChans.filterMap fun c =>
      ((r.chan o c).panicProgram (expiredProgram c purged)).map fun p => .program c p false
    r.sameNotes (r.panicOutput m o purged) ∧
      (r.panicOutput m o purged).out o = (if (r.out o).enabled then appendedOut m.now (r.out o) es else r.out o) ∧
      (∀ c, (r.panicOutput m o purged).chan o c = { r.chan o c with
        held := if (r.out o).enabled then none else match (r.chan o c).pending with
          | none => (r.chan o c).held
          | some p => some p.program }) ∧
      (r.panicOutput m o purged).desk = (if (r.out o).enabled = true ∧ (r.out o).critical = false ∧
          (r.out o).level < (r.out o).urgent.length + es.length then
        r.desk.raise (.queueCritical o (max ((r.out o).level + 1) ((r.out o).urgent.length + 1)) (r.out o).level)
        else r.desk) ∧
      ∀ p, p ≠ o → (r.panicOutput m o purged).out p = r.out p ∧
        ∀ c, (r.panicOutput m o purged).chan p c = r.chan p c := by
  intro es
  by_cases he : (r.out o).enabled = true
  · have hsil : ∀ c, ((r.silence m o).chan o c).panicProgram (expiredProgram c purged) =
        (r.chan o c).panicProgram (expiredProgram c purged) := fun c => by
      have hnone : (allChans.map Urgent.allNotesOff).any (·.isProgramOf c) = false := by
        simp [Urgent.isProgramOf]
      rw [Rig.silence_eq, Rig.appendAll_chan, hnone]
      simp
    have heq : r.panicOutput m o purged = r.appendAll m o es := by
      rw [Rig.panicOutput, if_pos he, Rig.foldl_panicChan _ m o purged
        (fun c => (r.chan o c).panicProgram (expiredProgram c purged)) _ allChans_nodup (fun c _ => hsil c),
        Rig.silence_eq, ← Rig.appendAll_append]
    have hquiet : ∀ e ∈ es, e.isNoteOn = false := by
      intro e hmem
      rcases List.mem_append.mp hmem with hm | hm
      · obtain ⟨c, -, rfl⟩ := List.mem_map.mp hm
        rfl
      · obtain ⟨c, -, hc⟩ := List.mem_filterMap.mp hm
        obtain ⟨p, -, rfl⟩ := Option.map_eq_some_iff.mp hc
        rfl
    have hstart' : (r.out o).transmit = .idle →
        ∀ e, ((r.out o).urgent ++ es).head? = some e → e.isNoteOn = false := by
      intro hidle e hhead
      rw [hstart hidle, List.nil_append] at hhead
      exact hquiet e (List.mem_of_mem_head? hhead)
    refine ⟨heq ▸ r.appendAll_notes m o es, ?_, fun c => ?_, ?_, fun p hp => ⟨?_, fun c => ?_⟩⟩
    · rw [heq, Rig.appendAll_out, if_pos rfl, if_pos he]
    · rw [heq, Rig.appendAll_chan, if_pos he]
      split
      · rfl
      · rename_i hn
        have hoffer : (r.chan o c).panicProgram (expiredProgram c purged) = none := by
          rw [Option.eq_none_iff_forall_ne_some]
          intro p hp
          refine hn ⟨rfl, List.any_eq_true.mpr ⟨.program c p false, ?_, by simp [Urgent.isProgramOf]⟩⟩
          exact List.mem_append_right _ (List.mem_filterMap.mpr ⟨c, mem_allChans c, by rw [hp]; rfl⟩)
        have hheld : (r.chan o c).held = none := by
          unfold ChanRec.panicProgram at hoffer
          split at hoffer
          · contradiction
          · contradiction
          · assumption
        rw [← hheld]
    · have hes : es ≠ [] := by simp [es, allChans]
      rw [heq, r.appendAll_desk m o es hstart']
      simp [hes, he]
    · rw [heq, Rig.appendAll_out, if_neg hp]
    · rw [heq, Rig.appendAll_chan, if_neg (fun h => hp h.1)]
  · rw [Bool.not_eq_true] at he
    have heq : r.panicOutput m o purged = allChans.foldl (fun r c => r.setChan o c { r.chan o c with
        held := match (r.chan o c).pending with
          | none => (r.chan o c).held
          | some p => some p.program }) r := by
      have hp : (fun (r : Rig) c => r.panicHold o c) = fun r c => r.setChan o c { r.chan o c with
          held := match (r.chan o c).pending with
            | none => (r.chan o c).held
            | some p => some p.program } := funext fun r => funext fun c => r.panicHold_eq o c
      rw [Rig.panicOutput, if_neg (by simp [he]), hp]
    obtain ⟨hn, hd, ho, hx⟩ := r.foldl_setChan o (fun _ x => { x with held := match x.pending with
      | none => x.held
      | some p => some p.program }) allChans allChans_nodup
    rw [heq]
    refine ⟨hn, ?_, fun c => ?_, ?_, fun p hp => ⟨ho p, fun c => ?_⟩⟩
    · rw [ho, if_neg (by simp [he])]
    · rw [hx, if_pos ⟨rfl, mem_allChans c⟩, if_neg (by simp [he])]
    · rw [hd, if_neg (by simp [he])]
    · rw [hx, if_neg (fun h => hp h.1)]

theorem OutPort.purge_transmit (q : OutPort) : q.purge.transmit = q.transmit := rfl

/-- An idle line leaves nothing behind a purge. -/
theorem OutPort.purge_idle {q : OutPort} (h : q.transmit = .idle) : q.purge.urgent = [] := by
  simp [OutPort.purge, OutPort.urgentOnLine, h]

/-- The first two stages of a panic: an empty table, counts and marks cleared, the queues purged. -/
def Rig.panicStart (r : Rig) : Rig :=
  (r.clearTable.mapRecords fun x =>
    { x with sounding := 0, old := 0, panicOwed := false, redirect := none }).mapOutputs fun q =>
      { q.purge with overflow := false, critical := false }

theorem Rig.panic_eq (r : Rig) (m : Moment) (cause : PanicCause) :
    r.panic m cause =
      (((allOutputs.foldl (fun t o => t.panicOutput m o (r.out o).purged) r.panicStart).mapRecords
        ChanRec.panicCurrent).raise (.panic cause)).record
        { emptyRecord m.now .panic with detail := some (.panic cause) } := rfl

/-- What a panic tells the desk of output `o`, found as `q` with the records `x`. -/
def panicTells (q : OutPort) (x : Chan → ChanRec) (d : Desk) (o : Output) : Desk :=
  if q.enabled = true ∧ q.level < q.purge.urgent.length + (panicEvents q x).length then
    d.raise (.queueCritical o (max (q.level + 1) (q.purge.urgent.length + 1)) q.level)
  else d

/-- The instrument side after the outputs have been silenced one after another. -/
theorem Rig.panicOutputs_spec (r : Rig) (m : Moment) :
    r.panicStart.sameNotes (allOutputs.foldl (fun t o => t.panicOutput m o (r.out o).purged) r.panicStart) ∧
      (allOutputs.foldl (fun t o => t.panicOutput m o (r.out o).purged) r.panicStart).desk =
        allOutputs.foldl (fun d o => panicTells (r.out o) (r.chan o) d o) r.desk ∧
      ∀ o, (allOutputs.foldl (fun t o => t.panicOutput m o (r.out o).purged) r.panicStart).out o =
          panickedOut m.now (r.out o) (r.chan o) ∧
        ∀ c, (allOutputs.foldl (fun t o => t.panicOutput m o (r.out o).purged) r.panicStart).chan o c =
          { r.chan o c with
            sounding := 0
            old := 0
            panicOwed := false
            redirect := none
            held := if (r.out o).enabled then none else match (r.chan o c).pending with
              | none => (r.chan o c).held
              | some p => some p.program } := by
  have hout : ∀ o, r.panicStart.out o = { (r.out o).purge with overflow := false, critical := false } :=
    fun o => Rig.out_mapOutputs _ _ _
  have hchan : ∀ o c, r.panicStart.chan o c =
      { r.chan o c with sounding := 0, old := 0, panicOwed := false, redirect := none } :=
    fun o c => Rig.chan_mapRecords _ _ _ _
  refine r.panicStart.foldl_allOutputs (d := fun d o => panicTells (r.out o) (r.chan o) d o) fun t o ho hx => ?_
  rw [hout] at ho
  have hidle : (t.out o).transmit = .idle → (t.out o).urgent = [] := by
    rw [ho]
    intro h
    exact (r.out o).purge_idle h
  obtain ⟨k1, k2, k3, k4, k5⟩ := t.panicOutput_spec m o (r.out o).purged hidle
  have hes : (allChans.map Urgent.allNotesOff ++ allChans.filterMap fun c =>
      ((t.chan o c).panicProgram (expiredProgram c (r.out o).purged)).map fun p => .program c p false) =
      panicEvents (r.out o) (r.chan o) := by
    rw [panicEvents]
    congr 2
    funext c
    rw [hx, hchan]
    rfl
  rw [hes, ho] at k2 k4
  refine ⟨k1, k2, fun c => ?_, ?_, k5⟩
  · rw [k3, ho, hx, hchan]
    rfl
  · rw [k4]
    exact if_congr ⟨fun ⟨a, _, b⟩ => ⟨a, b⟩, fun ⟨a, b⟩ => ⟨a, rfl, b⟩⟩ rfl rfl

/-- The instrument side after a panic, block by block. -/
theorem Rig.panic_spec (r : Rig) (m : Moment) (cause : PanicCause) :
    (r.panic m cause).table = [] ∧ (r.panic m cause).pedals = Vector.replicate 64 false ∧
      (r.panic m cause).nextLeg = r.nextLeg ∧
      (∀ o, (r.panic m cause).out o = panickedOut m.now (r.out o) (r.chan o)) ∧
      (∀ o c, (r.panic m cause).chan o c = panickedRec (r.out o).enabled (r.chan o c)) ∧
      (r.panic m cause).desk =
        ((allOutputs.foldl (fun d o => panicTells (r.out o) (r.chan o) d o) r.desk).raise (.panic cause)).record
          { emptyRecord m.now .panic with detail := some (.panic cause) } := by
  rw [Rig.panic_eq]
  obtain ⟨⟨ht, hp, hl⟩, hd, hall⟩ := r.panicOutputs_spec m
  generalize allOutputs.foldl (fun t o => t.panicOutput m o (r.out o).purged) r.panicStart = t at *
  refine ⟨ht, hp, hl, fun o => (hall o).1, fun o c => ?_, ?_⟩
  · rw [Rig.chan_record, Rig.chan_raise, Rig.chan_mapRecords, (hall o).2]
    rfl
  · rw [← hd]
    rfl

/-! ### RESTART and leaving SHOW (R41, R76, R77, R91, R92) -/

/-- The output that RESTART leaves, found as `q`. -/
def restartedOut (now : StageTime) (q : OutPort) : OutPort :=
  if q.enabled then
    appendedOut now { q.purge with overflow := false, critical := false, level := 40 }
      (allChans.map .allNotesOff)
  else { q.purge with overflow := false, critical := false, level := 40 }

theorem OutPort.purge_urgent_length (q : OutPort) : q.purge.urgent.length ≤ 1 := by
  simp only [OutPort.purge]
  split
  · exact List.length_take_le 1 _
  · simp

/-- The instrument side after RESTART, block by block; the appends reach no critical level. -/
theorem Rig.restart_spec (r : Rig) (m : Moment) :
    (r.restart m).table = [] ∧ (r.restart m).pedals = Vector.replicate 64 false ∧
      (r.restart m).nextLeg = r.nextLeg ∧ (∀ o, (r.restart m).out o = restartedOut m.now (r.out o)) ∧
      (∀ o c, (r.restart m).chan o c = ChanRec.clear) ∧ (r.restart m).desk = r.desk := by
  let r₀ := (r.clearTable.mapRecords fun _ => ChanRec.clear).mapOutputs fun q =>
    { q.purge with overflow := false, critical := false, level := 40 }
  have hout : ∀ o, r₀.out o =
      { (r.out o).purge with overflow := false, critical := false, level := 40 } := fun o => Rig.out_mapOutputs _ _ _
  have hchan : ∀ o c, r₀.chan o c = ChanRec.clear := fun o c => Rig.chan_mapRecords _ _ _ _
  obtain ⟨⟨ht, hp, hl⟩, hd, hall⟩ := r₀.foldl_allOutputs
    (f := fun t o => if (t.out o).enabled then t.silence m o else t)
    (q' := fun o => restartedOut m.now (r.out o)) (x' := fun _ _ => ChanRec.clear) (d := fun d _ => d)
    (fun t o ho hx => by
      rw [hout] at ho
      have hx : ∀ c, t.chan o c = ChanRec.clear := fun c => (hx c).trans (hchan o c)
      have hen : (t.out o).enabled = (r.out o).enabled := by
        rw [ho]
        rfl
      rw [hen]
      unfold restartedOut
      split
      · rw [Rig.silence_eq]
        refine ⟨t.appendAll_notes m o _, ?_, fun c => ?_, ?_, fun p hp => ⟨?_, fun c => ?_⟩⟩
        · rw [Rig.appendAll_out, if_pos rfl, ho]
        · rw [Rig.appendAll_chan, hx]
          split <;> rfl
        · have hlen := (r.out o).purge_urgent_length
          rw [Rig.appendAll_desk, if_neg]
          · rintro ⟨-, -, h⟩
            have h40 : (t.out o).level = 40 := by rw [ho]
            have hu : (t.out o).urgent = (r.out o).purge.urgent := by rw [ho]
            rw [h40, hu, List.length_map] at h
            simp [allChans] at h
            omega
          · intro hidle e he
            have hu : (t.out o).urgent = [] := by
              rw [ho] at hidle ⊢
              exact OutPort.purge_idle hidle
            rw [hu, List.nil_append] at he
            obtain ⟨c, -, rfl⟩ := List.mem_map.mp (List.mem_of_mem_head? he)
            rfl
        · rw [Rig.appendAll_out, if_neg hp]
        · rw [Rig.appendAll_chan, if_neg (fun h => hp h.1)]
      · exact ⟨t.sameNotes_refl, ho, hx, rfl, fun p _ => ⟨rfl, fun c => rfl⟩⟩)
  have hdesk : ∀ (os : List Output) (d : Desk), os.foldl (fun d _ => d) d = d := fun os => by
    induction os with
    | nil => exact fun d => rfl
    | cons o os ih => exact ih
  exact ⟨ht, hp, hl, fun o => (hall o).1, fun o c => (hall o).2 c, hd.trans (hdesk _ _)⟩

/-- Leaving SHOW ends every note and puts every pedal up. -/
theorem Rig.leaveShow_notes (r : Rig) (m : Moment) (h : FullTable r.table) :
    (r.leaveShow m).table = [] ∧ (r.leaveShow m).pedals = Vector.replicate 64 false :=
  ⟨r.endLegs_all m h, rfl⟩

/-! ### The bounds of the queues -/

/-- Appended events that are no note-ons, where the urgent queue has room for them. -/
theorem OutPort.Sound.appended {q : OutPort} (h : q.Sound) (now : StageTime) {es : List Urgent}
    (hu : q.urgent.length + es.length ≤ 48) (hn : ∀ e ∈ es, e.isNoteOn = false) :
    (appendedOut now q es).Sound := by
  unfold appendedOut
  split
  · exact h
  · refine h.urgent_le (by simpa using hu) ?_ rfl rfl
    have hz : es.countP Urgent.isNoteOn = 0 := List.countP_eq_zero.mpr fun e he => by simp [hn e he]
    rw [List.countP_append, hz, ← q.noteOns_eq]
    exact h.noteOns

theorem panicEvents_quiet (q : OutPort) (x : Chan → ChanRec) :
    (panicEvents q x).length ≤ 32 ∧ ∀ e ∈ panicEvents q x, e.isNoteOn = false := by
  refine ⟨?_, fun e he => ?_⟩
  · have := List.length_filterMap_le
      (fun c => ((x c).panicProgram (expiredProgram c q.purged)).map fun p => Urgent.program c p false) allChans
    have h16 : allChans.length = 16 := rfl
    simp only [panicEvents, List.length_append, List.length_map]
    omega
  · rcases List.mem_append.mp he with hm | hm
    · obtain ⟨c, -, rfl⟩ := List.mem_map.mp hm
      rfl
    · obtain ⟨c, -, hc⟩ := List.mem_filterMap.mp hm
      obtain ⟨p, -, rfl⟩ := Option.map_eq_some_iff.mp hc
      rfl

theorem Rig.panic_queues (r : Rig) (m : Moment) (cause : PanicCause) (h : r.QueuesSound) :
    (r.panic m cause).QueuesSound := by
  obtain ⟨-, -, -, ho, -⟩ := r.panic_spec m cause
  intro o
  rw [ho, panickedOut]
  have hp : OutPort.Sound { (r.out o).purge with overflow := false, critical := false } :=
    (h o).purge.congr rfl rfl rfl
  split
  · obtain ⟨hl, hq⟩ := panicEvents_quiet (r.out o) (r.chan o)
    have := (r.out o).purge_urgent_length
    exact hp.appended _ (by dsimp only; omega) hq
  · exact hp

theorem Rig.restart_queues (r : Rig) (m : Moment) (h : r.QueuesSound) : (r.restart m).QueuesSound := by
  obtain ⟨-, -, -, ho, -⟩ := r.restart_spec m
  intro o
  rw [ho, restartedOut]
  have hp : OutPort.Sound { (r.out o).purge with overflow := false, critical := false, level := 40 } := by
    obtain ⟨urgent, noteOns, bulk, -, -, distinct⟩ := (h o).purge
    exact ⟨urgent, noteOns, bulk, by dsimp only; decide, by dsimp only; decide, distinct⟩
  split
  · have := (r.out o).purge_urgent_length
    have h16 : (allChans.map Urgent.allNotesOff).length = 16 := rfl
    refine hp.appended _ (by dsimp only; omega) fun e he => ?_
    obtain ⟨c, -, rfl⟩ := List.mem_map.mp he
    rfl
  · exact hp

theorem Rig.leaveShow_queues (r : Rig) (m : Moment) (h : r.QueuesSound) : (r.leaveShow m).QueuesSound :=
  ((r.endLegs_keeps m _).queues h).of_out fun _ => rfl

end Sys2Proof.Machine
end

section
/-! Every command as a chain of acts: the few changes that the operations of the part make to the instrument side,
the Scene Engine and the router, each with the condition under which it is made. -/
namespace Sys2Proof.Machine

/-! ### Acts -/

/-- One operation on the instrument side, with what holds of the part when it is done. -/
inductive RigAct (s : State) : Rig → Prop
  | line (o : Output) : RigAct s (s.rig.completeLine s.moment o)
  | spill (o : Output) (c : Chan) : RigAct s (s.rig.expireSpill s.moment o c)
  | enable (mask : BitVec 6) : RigAct s (s.rig.enableMask s.moment mask)
  | level (o : Output) (n : Nat) (h : 1 ≤ n ∧ n ≤ 48) : RigAct s (s.rig.setLevel o n)
  | panic (cause : PanicCause) : RigAct s (s.rig.panic s.moment cause)
  | bulk (o : Output) (kind : ContinuousKind) (c : Chan) (v : Fourteen) :
      RigAct s (s.rig.offerBulk s.moment o kind c v)
  | note (n : Input) (c : Chan) (k : Seven) (plans : List LegPlan) (playing : s.scene.mode = .showMode)
      (h : plans.length ≤ 8) : RigAct s (s.rig.routeLegs s.moment n c k plans)
  | lift (n : Input) (c : Chan) (k : Seven) (playing : s.scene.mode = .showMode) :
      RigAct s (s.rig.liftKey s.moment n c k)
  | pedal (n : Input) (c : Chan) (v : Seven) (playing : s.scene.mode = .showMode) :
      RigAct s (s.rig.movePedal s.moment n c v)

/-- The blocks beside the instrument side, the Scene Engine and the router. -/
abbrev asideBlocks : List Block := [.mem, .desk, .inputs, .tempo, .click, .time, .pins, .pending]

/-- The change `c` of the slot is READY, with its run in the standby bank and nothing under copy (R107). -/
def State.readied (s : State) (c : Change) : State :=
  ((s.setRouter { s.router with standby := s.mem.run c.copy.layerFirst c.copy.layerCount, fill := .filled }).setMem
    { s.mem with underCopy := none }).setScene { s.scene with staged := some { c with preparation := .ready } }

/-- One act of the part. -/
inductive Act (s : State) : State → Prop
  | aside {t : State} (h : SameBut asideBlocks s t) : Act s t
  | rig {r : Rig} (h : RigAct s r) : Act s (s.setRig r)
  | dropped : Act s s.dropStaged
  | staged (g : Origin) (t : Nat × Nat) (q : Option Quantize) (tag : Byte) (playing : s.scene.mode = .showMode) :
      Act s (s.stage g t q tag)
  | readied (c : Change) (held : s.scene.staged = some c) : Act s (s.readied c)
  | taken (c : Change) (held : s.scene.staged = some c) (ready : c.preparation = .ready) : Act s (s.take c)
  | position (x : Position) (song : x.song = s.scene.position.song) (bar : s.scene.position.bar ≤ x.bar) :
      Act s (s.setScene { s.scene with position := x })
  | frozen (b : Bool) (playing : s.scene.mode = .showMode) : Act s (s.setFrozen b)
  | entered : Act s (s.setMode .showMode)
  | left : Act s s.leaveShow
  | restarted : Act s s.restartScene.restartNotes
  | cutShort : Act s (s.setRig (s.rig.mapOutputs OutPort.cutShort))
  | reset (panicLow syncHigh : Bool) : Act s (s.releaseReset panicLow syncHigh)

/-- Acts one after another. -/
abbrev Acts : State → State → Prop := Relation.ReflTransGen Act

theorem Acts.rfl' (s : State) : Acts s s := .refl

/-- A change beside the instrument side, the Scene Engine and the router. -/
theorem Acts.aside {s t : State} {l : List Block} (h : SameBut l s t) (hl : l ⊆ asideBlocks) : Acts s t :=
  .single (.aside (h.mono hl))

theorem Acts.foldl {α : Type} (f : State → α → State) (hf : ∀ (s : State) (a : α), Acts s (f s a))
    (l : List α) (s : State) : Acts s (l.foldl f s) := by
  induction l generalizing s with
  | nil => exact .refl
  | cons a l ih => exact (hf s a).trans (ih (f s a))

/-! ### Setters and reports -/

theorem State.setMem_acts (s : State) (x : SetMemory) : Acts s (s.setMem x) := .aside (s.setMem_sameBut x) (by simp)
theorem State.setTempo_acts (s : State) (x : Tempo) : Acts s (s.setTempo x) := .aside (s.setTempo_sameBut x) (by simp)
theorem State.setClick_acts (s : State) (x : ClickGen) : Acts s (s.setClick x) :=
  .aside (s.setClick_sameBut x) (by simp)
theorem State.setPins_acts (s : State) (x : Pins) : Acts s (s.setPins x) := .aside (s.setPins_sameBut x) (by simp)
theorem State.setInputs_acts (s : State) (x : Vector Deframer 4) : Acts s (s.setInputs x) :=
  .aside (s.setInputs_sameBut x) (by simp)
theorem State.setDesk_acts (s : State) (x : Desk) : Acts s (s.setDesk x) := .aside (s.setDesk_sameBut x) (by simp)
theorem State.setPort_acts (s : State) (p : Port) (x : PortState) : Acts s (s.setPort p x) := s.setDesk_acts _
theorem State.answer_acts (s : State) (p : Port) (st : Status) (payload : List Byte) :
    Acts s (s.answer p st payload) := s.setDesk_acts _
theorem State.raise_acts (s : State) (n : Notice) : Acts s (s.raise n) := s.setDesk_acts _
theorem State.raiseFor_acts (s : State) (g : Origin) (n : Notice) : Acts s (s.raiseFor g n) := s.setDesk_acts _
theorem State.report_acts (s : State) (ev : CounterEvent) (named : Nat) : Acts s (s.report ev named) :=
  s.setDesk_acts _
theorem State.record_acts (s : State) (x : CaptureRecord) : Acts s (s.record x) := s.setDesk_acts _
theorem State.raisePosition_acts (s : State) : Acts s s.raisePosition := s.raise_acts _
theorem State.reportLock_acts (s : State) : Acts s s.reportLock := .aside s.reportLock_sameBut (by simp)
theorem State.songStart_acts (s : State) : Acts s s.songStart := .aside s.songStart_sameBut (by simp)
theorem State.reportSuperseded_acts (s : State) (c : Change) (cause : SupersedeCause) :
    Acts s (s.reportSuperseded c cause) := .aside (s.reportSuperseded_sameBut c cause) (by simp)

/-- A chain that ends with a change beside. -/
theorem Acts.andAside {s t u : State} {l : List Block} (h : Acts s t) (k : SameBut l t u)
    (hl : l ⊆ asideBlocks) : Acts s u := h.trans (Acts.aside k hl)

/-! ### The staged slot (R95 to R98) -/

theorem State.judge_ok {s : State} {g : Origin} {ask : SceneAsk} {t : Nat × Nat} (h : s.judge g ask = .ok t) :
    s.scene.mode = .showMode := by
  by_contra hm
  simp [State.judge, hm] at h

theorem State.accept_acts (s : State) (g : Origin) (t : Nat × Nat) (q : Option Quantize) (tag : Byte)
    (playing : s.scene.mode = .showMode) : Acts s (s.accept g t q tag) := by
  unfold State.accept
  dsimp only
  split
  · exact .single (.staged g t q tag playing)
  · next c _ =>
    have hs := State.reportSuperseded_sameBut s.dropStaged c .replaced .scene (by decide)
    refine ((Relation.ReflTransGen.single Act.dropped).trans (State.reportSuperseded_acts _ c .replaced)).tail ?_
    exact .staged g t q tag (by rw [hs]; exact playing)

theorem State.cueRequest_acts (s : State) (ask : SceneAsk) (tag : Byte) : Acts s (s.cueRequest ask tag) := by
  unfold State.cueRequest
  split
  · next t h => exact s.accept_acts _ _ _ _ (State.judge_ok h)
  · exact s.record_acts _

theorem State.modeRequest_acts (s : State) : Acts s s.modeRequest := by
  unfold State.modeRequest
  split
  · next t h => exact s.accept_acts _ _ _ _ (State.judge_ok h)
  · exact (s.raiseFor_acts _ _).trans (State.record_acts _ _)

theorem State.failPreparation_acts (s : State) (c : Change) (reason : Reason) (offset : Nat) :
    Acts s (s.failPreparation c reason offset) :=
  ((Relation.ReflTransGen.single Act.dropped).trans (State.raiseFor_acts _ _ _)).trans (State.record_acts _ _)

/-! ### Preparation and takes (R105 to R108) -/

theorem State.takeable_acts (s : State) (f : Quantize → Bool) :
    Acts s (match s.scene.takeable f with
      | some c => s.take c
      | none => s) := by
  split
  · next c h =>
    obtain ⟨hs, hp, -, -⟩ := (s.scene.takeable_spec f c).mp h
    exact .single (.taken c hs hp)
  · exact .refl

theorem State.completePreparation_acts (s : State) (c : Change) (h : s.scene.staged = some c) :
    Acts s (s.completePreparation c) :=
  ((Relation.ReflTransGen.single (Act.readied c h)).trans (State.raiseFor_acts _ _ _)).trans
    (State.takeable_acts _ _)

theorem State.endPreparation_acts (s : State) : Acts s s.endPreparation := by
  unfold State.endPreparation
  split
  · exact .refl
  · next c h =>
    split
    · split
      · exact s.completePreparation_acts c h
      · exact s.failPreparation_acts _ _ _
    · exact .refl

theorem State.preparationDue_acts (s : State) : Acts s s.preparationDue := by
  unfold State.preparationDue
  split
  · exact s.endPreparation_acts
  · exact .refl

theorem State.preparationEnds_acts (s : State) (passes : Bool) : Acts s (s.preparationEnds passes) := by
  unfold State.preparationEnds
  split
  · exact .refl
  · split
    · exact s.endPreparation_acts
    · exact .refl

/-! ### Beat and click boundaries (R113, R115, R123, R124) -/

theorem le_nextBar (bar : Int) : bar ≤ nextBar bar := by
  unfold nextBar
  split <;> omega

theorem State.countBeat_acts (s : State) : Acts s (s.setScene s.scene.countBeat) := by
  unfold SceneEngine.countBeat
  split
  · exact .single (.position _ rfl (le_nextBar _))
  · exact .single (.position _ rfl le_rfl)

theorem State.sceneBeat_acts (s : State) : Acts s s.sceneBeat := by
  unfold State.sceneBeat
  dsimp only
  refine Acts.andAside ?_ (State.handOff_sameBut _) (by simp)
  refine Relation.ReflTransGen.trans ?_ (State.takeable_acts _ _)
  split
  · exact s.countBeat_acts.trans (State.songStart_acts _)
  · exact s.countBeat_acts

theorem State.beat_acts (s : State) : Acts s s.beat :=
  (Acts.aside s.tempoBeat_sameBut (by simp)).trans (State.sceneBeat_acts _)

theorem State.advancePhase_acts (s : State) (inc : Nat) : Acts s (s.advancePhase inc) := by
  unfold State.advancePhase
  split
  · exact (s.setTempo_acts _).trans (State.beat_acts _)
  · exact (s.setTempo_acts _).andAside (State.clickIfRisen_sameBut _) (by simp)

theorem State.phaseDue_acts (s : State) : Acts s s.phaseDue := by
  unfold State.phaseDue
  split
  · exact (s.setTempo_acts _).trans (State.advancePhase_acts _ _)
  · exact .refl

theorem State.boundary_acts (s : State) (beat : Bool) : Acts s (s.boundary beat) := by
  unfold State.boundary
  split
  · exact .refl
  · split
    · exact s.phaseDue_acts
    · exact .refl

theorem State.realign_acts (s : State) (next : Bool) : Acts s (s.realign next) := by
  unfold State.realign
  dsimp only
  split
  · refine Relation.ReflTransGen.trans ?_ (State.raisePosition_acts _)
    have h : Acts s (s.setScene { s.scene with position := { s.scene.position with newBarOwed := true } }) :=
      .single (.position _ rfl le_rfl)
    split
    · exact h.trans (State.report_acts _ _ _)
    · exact h
  · split
    · exact s.raisePosition_acts
    · refine Relation.ReflTransGen.trans ?_ (State.raisePosition_acts _)
      have h : Acts s ((s.setScene { s.scene with position :=
          { s.scene.position with beat := 0, bar := nextBar s.scene.position.bar, newBarOwed := false } }).report
            .barSlips 0) :=
        (Relation.ReflTransGen.single (.position _ rfl (le_nextBar _))).trans (State.report_acts _ _ _)
      split
      · exact h.trans (State.songStart_acts _)
      · exact h

/-! ### References, taps and marks (R130 to R142) -/

theorem State.setReference_acts (s : State) (x : Reference) : Acts s (s.setReference x) := s.setTempo_acts _

theorem State.setHoldover_acts (s : State) : Acts s s.setHoldover := s.setReference_acts _

theorem State.snap_acts (s : State) : Acts s s.snap := by
  unfold State.snap
  split
  · exact (s.setTempo_acts _).trans (State.beat_acts _)
  · exact s.setTempo_acts _

theorem State.lock_acts (s : State) (m : Nat) : Acts s (s.lock m) := by
  unfold State.lock
  dsimp only
  refine Relation.ReflTransGen.trans ?_ (State.reportLock_acts _)
  refine Relation.ReflTransGen.trans ?_ (State.setHoldover_acts _)
  refine Relation.ReflTransGen.trans ?_ (State.setTempo_acts _ _)
  exact (s.setTempo_acts _).trans (State.snap_acts _)

theorem State.acquire_acts (s : State) (m : Nat) : Acts s (s.acquire m) := by
  unfold State.acquire
  dsimp only
  split
  · exact s.setReference_acts _
  · split
    · split
      · exact s.setReference_acts _
      · exact s.lock_acts m
    · exact s.setReference_acts _

theorem State.follow_acts (s : State) (m : Nat) : Acts s (s.follow m) := .aside (s.follow_sameBut m) (by simp)

theorem State.outlier_acts (s : State) : Acts s s.outlier := .aside s.outlier_sameBut (by simp)

theorem State.referenceBeat_acts (s : State) (i : Option Nat) : Acts s (s.referenceBeat i) := by
  have hc : Acts s s.countRef := s.setTempo_acts _
  unfold State.referenceBeat
  split
  · exact .refl
  · exact .refl
  · split
    · exact s.acquire_acts _
    · exact (s.setReference_acts _).trans (State.report_acts _ _ _)
  · exact hc.trans (State.setHoldover_acts _)
  · split
    · exact (hc.trans (State.follow_acts _ _)).trans (State.setHoldover_acts _)
    · have h := hc.trans (State.outlier_acts _)
      dsimp only
      split
      · exact h.trans (State.setHoldover_acts _)
      · exact h
  · exact .refl
  · split
    · dsimp only
      refine Relation.ReflTransGen.trans ?_ (State.reportLock_acts _)
      refine Relation.ReflTransGen.trans ?_ (State.setHoldover_acts _)
      refine Relation.ReflTransGen.trans ?_ (State.setReference_acts _ _)
      refine Relation.ReflTransGen.trans ?_ (State.follow_acts _ _)
      exact (s.setTempo_acts _).trans (State.setTempo_acts _ _)
    · exact s.outlier_acts

theorem State.pulse_acts (s : State) : Acts s s.pulse := by
  unfold State.pulse
  dsimp only
  split
  · exact (s.setReference_acts _).trans (State.referenceBeat_acts _ _)
  · split
    · exact s.setReference_acts _
    · exact (s.setReference_acts _).trans (State.referenceBeat_acts _ _)

theorem State.tap_acts (s : State) : Acts s s.tap := by
  unfold State.tap State.tapNow
  dsimp only
  split
  · split
    · exact s.setTempo_acts _
    · split
      · exact s.setTempo_acts _
      · split
        · exact .refl
        · exact (s.setTempo_acts _).trans (State.snap_acts _)
  · exact .refl

theorem State.beatMark_acts (s : State) (downbeat : Bool) : Acts s (s.beatMark downbeat) := by
  unfold State.beatMark
  dsimp only
  split
  · split
    · exact s.pulse_acts.trans (State.realign_acts _ _)
    · exact s.pulse_acts
  · exact .refl

/-! ### The instrument lines (R20 to R28, R47 to R58, R62 to R67) -/

theorem State.routeNoteOn_acts (s : State) (n : Input) (c : Chan) (k v : Seven)
    (playing : s.scene.mode = .showMode) : Acts s (s.routeNoteOn n c k v) := by
  have hlen := s.rig.buildLegs_length s.moment s.router.echo s.router.active n c k v
  have hdesk := s.rig.buildLegs_onlyDesk s.moment s.router.echo s.router.active n c k v
  unfold State.routeNoteOn
  dsimp only
  generalize s.rig.buildLegs s.moment s.router.echo s.router.active n c k v = x at hlen hdesk ⊢
  have h : Acts s (s.setRig (x.1.routeLegs s.moment n c k x.2)) := by
    rw [hdesk]
    exact (s.setDesk_acts x.1.desk).tail (.rig (.note n c k x.2 playing hlen))
  generalize s.setRig _ = t at h ⊢
  have hcue : Acts s (match sceneCue (s.router.active.filter fun e => e.isMatch n c k v) with
      | some e => t.cueRequest e.cueAsk e.cueTag
      | none => t) := by
    split
    · exact h.trans (t.cueRequest_acts _ _)
    · exact h
  split
  · exact hcue.trans (State.tap_acts _)
  · exact hcue

theorem State.routeContinuous_acts (s : State) (n : Input) (c : Chan) (e : ContinuousEvent) :
    Acts s (s.routeContinuous n c e) := by
  have fold : ∀ (l : List (Output × Chan)) (r : Rig), Acts (s.setRig r) (s.setRig (l.foldl
      (fun r d => r.offerBulk s.moment d.1 (continuousKind e) d.2 (continuousValue e)) r)) := by
    intro l
    induction l with
    | nil => exact fun r => .refl
    | cons d l ih => exact fun r => (Relation.ReflTransGen.single (.rig (.bulk d.1 _ d.2 _))).trans (ih _)
  exact fold _ s.rig

theorem State.songSelect_acts (s : State) (program : Seven) : Acts s (s.songSelect program) := by
  unfold State.songSelect
  split
  · exact s.record_acts _
  · exact s.cueRequest_acts _ _

theorem State.deliver_acts (s : State) (n : Input) (c : Chan) (e : LineEvent) : Acts s (s.deliver n c e) := by
  unfold State.deliver
  split
  case h_2 => exact .refl
  rename_i playing
  cases e with
  | noteOn k v => exact s.routeNoteOn_acts n c k v playing
  | noteOff k => exact .single (.rig (.lift n c k playing))
  | continuous e =>
    unfold State.deliverShow
    dsimp only
    split
    · exact .single (.rig (.pedal n c _ playing))
    · exact s.routeContinuous_acts n c e
  | program p =>
    unfold State.deliverShow
    dsimp only
    split
    · exact s.songSelect_acts p
    · exact .refl
  | unused => exact .refl

theorem State.timing_acts (s : State) (n : Input) (t : TimingOctet) : Acts s (s.timing n t) := by
  unfold State.timing
  split
  · cases t with
    | clock => exact s.pulse_acts
    | align => exact s.setReference_acts _
    | stop => exact .refl
  · exact .refl

theorem State.framingErrorIf_acts (s : State) (b : Bool) (n : Input) : Acts s (s.framingErrorIf b n) := by
  unfold State.framingErrorIf
  split
  · exact s.report_acts _ _
  · exact .refl

theorem State.dataOctet_acts (s : State) (n : Input) (v : Seven) : Acts s (s.dataOctet n v) := by
  unfold State.dataOctet
  dsimp only
  split
  · exact s.report_acts _ _
  · exact .refl
  · split
    · exact s.deliver_acts _ _ _
    · split
      · exact s.setInputs_acts _
      · exact (s.setInputs_acts _).trans (State.deliver_acts _ _ _ _)

theorem State.octetArrives_acts (s : State) (n : Input) (b : Byte) : Acts s (s.octetArrives n b) := by
  unfold State.octetArrives
  dsimp only
  split
  · exact s.dataOctet_acts n _
  · exact (s.setInputs_acts _).trans (State.framingErrorIf_acts _ _ _)
  · exact (s.setInputs_acts _).trans (State.framingErrorIf_acts _ _ _)
  · exact s.timing_acts n _

theorem State.eventArrives_acts (s : State) (n : Input) (kind : ChannelKind) (c : Chan) (x y : Seven) :
    Acts s (s.eventArrives n kind c x y) :=
  ((s.setInputs_acts _).trans (State.framingErrorIf_acts _ _ _)).trans (State.deliver_acts _ _ _ _)

theorem State.continuousArrives_acts (s : State) (n : Input) (c : Chan) (e : ContinuousEvent) :
    Acts s (s.continuousArrives n c e) := by
  cases e <;> exact s.eventArrives_acts _ _ _ _ _

/-! ### Panic and due events (R31, R74, R85) -/

theorem State.panic_acts (s : State) (cause : PanicCause) : Acts s (s.panic cause) := .single (.rig (.panic cause))

theorem State.lineDue_acts (s : State) (o : Output) : Acts s (s.lineDue o) := by
  unfold State.lineDue
  split
  · exact .single (.rig (.line o))
  · exact .refl

theorem State.spillDue_acts (s : State) (o : Output) (c : Chan) : Acts s (s.spillDue o c) := by
  unfold State.spillDue
  split
  · split
    · exact .single (.rig (.spill o c))
    · exact .refl
  · exact .refl

theorem State.settleTimed_acts (s : State) : Acts s s.settleTimed := by
  have lines : Acts s (allOutputs.foldl (fun s o => s.lineDue o) s) :=
    Acts.foldl _ (fun s o => s.lineDue_acts o) _ s
  have spills : ∀ s : State, Acts s (allOutputs.foldl (fun s o => allChans.foldl (fun s c => s.spillDue o c) s) s) :=
    Acts.foldl _ (fun s o => Acts.foldl _ (fun s c => s.spillDue_acts o c) _ s) _
  unfold State.settleTimed
  refine Acts.andAside ?_ (State.digestDue_sameBut _) (by simp)
  refine Acts.andAside ?_ (State.audioReturn_sameBut _) (by simp)
  refine Acts.andAside ?_ (State.holdoverStep_sameBut _) (by simp)
  exact (lines.andAside (State.beatLineDue_sameBut _) (by simp)).trans (spills _)

/-! ### Requests -/

section
variable (p : Port) (r : Request) (s : State)

theorem State.setWriteRequest_acts : Acts s (s.setWriteRequest p r) := by
  unfold State.setWriteRequest
  split
  · exact s.answer_acts p _ _
  · exact (s.answer_acts p _ _).trans (State.setMem_acts _ _)

theorem State.storeSound_acts (m : SetMemory) (i : Fin 4) : Acts s (s.storeSound m i) :=
  (s.setMem_acts _).trans (State.setClick_acts _ _)

theorem State.soundLengthRequest_acts : Acts s (s.soundLengthRequest p r) := by
  unfold State.soundLengthRequest
  split
  · exact (s.answer_acts p _ _).trans (State.storeSound_acts _ _ _)
  · exact s.answer_acts p _ _

theorem State.soundSamplesRequest_acts : Acts s (s.soundSamplesRequest p r) := by
  unfold State.soundSamplesRequest
  split
  · exact s.answer_acts p _ _
  · split
    · exact (s.answer_acts p _ _).trans (State.storeSound_acts _ _ _)
    · exact s.answer_acts p _ _

theorem State.setReadRequest_acts : Acts s (s.setReadRequest p r) := by
  unfold State.setReadRequest
  split <;> exact s.answer_acts p _ _

theorem State.setDigestRequest_acts : Acts s (s.setDigestRequest p r) := by
  unfold State.setDigestRequest
  split
  · exact s.answer_acts p _ _
  · exact (s.answer_acts p _ _).trans (State.setMem_acts _ _)

theorem State.reportMode_acts : Acts s s.reportMode := (s.raise_acts _).trans (State.record_acts _ _)

theorem State.enterShowRequest_acts : Acts s (s.enterShowRequest p r) := by
  unfold State.enterShowRequest
  split
  · exact s.answer_acts p _ _
  · split
    · exact s.answer_acts p _ _
    · refine Relation.ReflTransGen.trans ?_ (State.modeRequest_acts _)
      refine Relation.ReflTransGen.trans ?_ (State.reportMode_acts _)
      exact (Relation.ReflTransGen.single Act.entered).trans (State.answer_acts _ p _ _)

theorem State.enterSetupRequest_acts : Acts s (s.enterSetupRequest p r) := by
  unfold State.enterSetupRequest
  split
  · exact s.answer_acts p _ _
  · exact ((Relation.ReflTransGen.single Act.left).trans (State.answer_acts _ p _ _)).trans (State.reportMode_acts _)

theorem State.restartRest_acts : Acts s s.restartRest :=
  ((s.setTempo_acts _).trans (State.setClick_acts _ _)).trans (State.setDesk_acts _ _)

theorem State.restartRequest_acts : Acts s (s.restartRequest p r) := by
  unfold State.restartRequest
  dsimp only
  refine Relation.ReflTransGen.trans ?_ (State.raise_acts _ _)
  refine Relation.ReflTransGen.trans ?_ (State.answer_acts _ p _ _)
  exact (Relation.ReflTransGen.single Act.restarted).trans (State.restartRest_acts _)

theorem State.portRequest_acts (ask : SceneAsk) (quantize : Nat) : Acts s (s.portRequest p ask quantize) := by
  unfold State.portRequest
  split
  · exact s.answer_acts p _ _
  · split
    · exact s.answer_acts p _ _
    · next t h => exact (s.answer_acts p _ _).trans (State.accept_acts _ _ _ _ _ (State.judge_ok h))

theorem State.cancelRequest_acts : Acts s (s.cancelRequest p r) := by
  unfold State.cancelRequest
  split
  · exact s.answer_acts p _ _
  · split
    · exact s.answer_acts p _ _
    · split
      · exact s.answer_acts p _ _
      · exact ((s.answer_acts p _ _).tail .dropped).trans (State.reportSuperseded_acts _ _ _)

theorem State.freezeRequest_acts : Acts s (s.freezeRequest p r) := by
  unfold State.freezeRequest
  split
  · exact s.answer_acts p _ _
  · next h => exact (s.answer_acts p _ _).tail (.frozen true (show s.scene.mode = .showMode by simpa using h))

theorem State.thaw_acts (playing : s.scene.mode = .showMode) : Acts s s.thaw :=
  (Relation.ReflTransGen.single (.frozen false playing)).trans (State.takeable_acts _ _)

theorem State.thawRequest_acts : Acts s (s.thawRequest p r) := by
  unfold State.thawRequest
  split
  · exact s.answer_acts p _ _
  · next h =>
    split
    · exact (s.answer_acts p _ _).trans (State.thaw_acts _ (show s.scene.mode = .showMode by simpa using h))
    · exact s.answer_acts p _ _

theorem State.stepRequest_acts : Acts s (s.stepRequest p r) := by
  unfold State.stepRequest
  split
  · exact s.answer_acts p _ _
  · split
    · exact s.answer_acts p _ _
    · next c hc =>
      split
      · next hp => exact (Relation.ReflTransGen.single (.taken c hc hp)).trans (State.answer_acts _ p _ _)
      · exact s.answer_acts p _ _

theorem State.selectSource_acts (src : Source) (shift : Option Nat) : Acts s (s.selectSource src shift) := by
  unfold State.selectSource
  dsimp only
  split
  · exact (s.setTempo_acts _).trans (State.raise_acts _ _)
  · exact (s.setTempo_acts _).trans (State.reportLock_acts _)

theorem State.tempoSourceRequest_acts : Acts s (s.tempoSourceRequest p r) := by
  unfold State.tempoSourceRequest
  split
  · exact (s.answer_acts p _ _).trans (State.selectSource_acts _ _ _)
  · exact s.answer_acts p _ _

theorem State.tempoSetRequest_acts : Acts s (s.tempoSetRequest p r) := by
  unfold State.tempoSetRequest
  dsimp only
  split
  · exact s.answer_acts p _ _
  · split
    · exact s.answer_acts p _ _
    · exact (s.answer_acts p _ _).trans (State.setTempo_acts _ _)

theorem State.trimRequest_acts : Acts s (s.trimRequest p r) := by
  unfold State.trimRequest
  dsimp only
  split
  · exact s.answer_acts p _ _
  · exact (s.answer_acts p _ _).trans (State.setTempo_acts _ _)

theorem State.outputEnableRequest_acts : Acts s (s.outputEnableRequest p r) :=
  (s.answer_acts p _ _).tail (.rig (.enable _))

theorem State.criticalLevelRequest_acts : Acts s (s.criticalLevelRequest p r) := by
  unfold State.criticalLevelRequest
  split
  · exact s.answer_acts p _ _
  · split
    · exact s.answer_acts p _ _
    · next o _ h =>
      simp only [Bool.or_eq_true, decide_eq_true_eq, not_or, Nat.not_lt] at h
      exact (s.answer_acts p _ _).tail (.rig (.level o _ h))

theorem State.panicRequest_acts : Acts s (s.panicRequest p r) :=
  (s.answer_acts p _ _).trans (State.panic_acts _ _)

theorem State.clickLevelRequest_acts : Acts s (s.clickLevelRequest p r) := by
  unfold State.clickLevelRequest
  dsimp only
  split
  · exact s.answer_acts p _ _
  · exact (s.answer_acts p _ _).trans (State.setClick_acts _ _)

theorem State.clickMuteRequest_acts : Acts s (s.clickMuteRequest p r) :=
  (s.answer_acts p _ _).trans (State.setClick_acts _ _)

theorem State.counterSetRequest_acts : Acts s (s.counterSetRequest p r) := by
  unfold State.counterSetRequest
  split
  · exact (s.answer_acts p _ _).trans (State.setDesk_acts _ _)
  · exact s.answer_acts p _ _

theorem State.counterReadRequest_acts : Acts s (s.counterReadRequest p r) := by
  unfold State.counterReadRequest
  split <;> exact s.answer_acts p _ _

theorem State.captureArmRequest_acts : Acts s (s.captureArmRequest p r) := by
  unfold State.captureArmRequest
  dsimp only
  split
  · exact s.answer_acts p _ _
  · exact (s.answer_acts p _ _).trans (State.setDesk_acts _ _)

theorem State.captureReadRequest_acts : Acts s (s.captureReadRequest p r) := by
  unfold State.captureReadRequest
  split <;> exact s.answer_acts p _ _

theorem State.statusRequest_acts : Acts s (s.statusRequest p r) :=
  (s.answer_acts p _ _).trans (State.setPort_acts _ p _)

theorem State.subscribeRequest_acts : Acts s (s.subscribeRequest p r) :=
  (s.answer_acts p _ _).trans (State.setPort_acts _ p _)

theorem handle_acts : Acts s (handle p r s) := by
  unfold handle
  split
  · exact s.setWriteRequest_acts p r
  · exact s.soundLengthRequest_acts p r
  · exact s.soundSamplesRequest_acts p r
  · exact s.setReadRequest_acts p r
  · exact s.setDigestRequest_acts p r
  · exact s.enterShowRequest_acts p r
  · exact s.enterSetupRequest_acts p r
  · exact s.restartRequest_acts p r
  · exact s.portRequest_acts p _ _
  · exact s.portRequest_acts p _ _
  · exact s.portRequest_acts p _ _
  · exact s.portRequest_acts p _ _
  · exact s.cancelRequest_acts p r
  · exact s.freezeRequest_acts p r
  · exact s.thawRequest_acts p r
  · exact s.stepRequest_acts p r
  · exact s.tempoSourceRequest_acts p r
  · exact s.tempoSetRequest_acts p r
  · exact s.trimRequest_acts p r
  · exact s.answer_acts p _ _
  · exact s.answer_acts p _ _
  · exact s.outputEnableRequest_acts p r
  · exact s.criticalLevelRequest_acts p r
  · exact s.panicRequest_acts p r
  · exact s.clickLevelRequest_acts p r
  · exact s.clickMuteRequest_acts p r
  · exact s.counterSetRequest_acts p r
  · exact s.counterReadRequest_acts p r
  · exact s.captureArmRequest_acts p r
  · exact s.captureReadRequest_acts p r
  · exact s.statusRequest_acts p r
  · exact s.subscribeRequest_acts p r
  · exact s.answer_acts p _ _

end

theorem State.turnAway_acts (s : State) (p : Port) : Acts s (s.turnAway p) := by
  unfold State.turnAway
  split
  · exact .refl
  · split
    · exact s.answer_acts p _ _
    · exact .refl

/-! ### Transfers, the tick and the pins -/

theorem State.placeRequest_acts (s : State) (p : Port) (r : Request) : Acts s (s.placeRequest p r) := by
  unfold State.placeRequest
  dsimp only
  split
  · split
    · exact (s.setPort_acts p _).trans (State.tap_acts _)
    · exact (s.setPort_acts p _).trans (State.beatMark_acts _ _)
    · exact s.setPort_acts p _
  · exact s.setPort_acts p _

theorem State.endTransfer_acts (s : State) (p : Port) (side : OutboundSide) (all : List Byte) :
    Acts s (s.endTransfer p side all) := by
  unfold State.endTransfer
  dsimp only
  split
  · split
    · split
      · exact (s.setPort_acts p _).trans (State.placeRequest_acts _ p _)
      · exact s.setPort_acts p _
    · exact s.setPort_acts p _
  · exact s.setPort_acts p _

theorem State.requestDue_acts (s : State) (p : Port) : Acts s (s.requestDue p) := by
  unfold State.requestDue
  split
  · exact .refl
  · split
    · exact handle_acts p _ s
    · exact .refl

theorem State.tick_acts (s : State) : Acts s s.tick := by
  have settled : Acts s s.settleDue := by
    rw [State.settleDue_eq]
    refine Relation.ReflTransGen.trans ?_ (State.phaseDue_acts _)
    refine Relation.ReflTransGen.trans ?_ (State.requestDue_acts _ _)
    refine Relation.ReflTransGen.trans ?_ (State.requestDue_acts _ _)
    exact s.settleTimed_acts.trans (State.preparationDue_acts _)
  have time : ∀ t : State, Acts t (t.setTime (t.time + 1)) := fun t =>
    .single (.aside fun b hb => by
      cases b <;> first | exact absurd (by decide) hb | exact rfl)
  unfold State.tick State.tickPhase
  dsimp only
  refine Relation.ReflTransGen.trans ((settled.trans (time _)).trans (State.setMem_acts _ s.settleDue.mem.readDigest)) ?_
  split <;> exact State.setTempo_acts _ _

theorem State.syncRise_acts (s : State) : Acts s s.syncRise := by
  unfold State.syncRise
  split
  · exact .refl
  · refine (s.setPins_acts { s.pins with syncHigh := true }).trans ?_
    dsimp only
    split
    · exact State.pulse_acts _
    · exact .refl
    · exact .refl
    · exact .refl

theorem State.panicFall_acts (s : State) : Acts s s.panicFall := by
  unfold State.panicFall
  split
  · exact .refl
  · exact (s.setPins_acts _).trans (State.panic_acts _ _)

theorem State.holdReset_acts (s : State) : Acts s s.holdReset := by
  unfold State.holdReset
  refine Relation.ReflTransGen.trans ?_ (State.setPins_acts _ _)
  refine Relation.ReflTransGen.trans ?_ (State.setClick_acts _ _)
  refine Relation.ReflTransGen.trans ?_ (State.setTempo_acts _ _)
  exact (Relation.ReflTransGen.single Act.cutShort).trans (State.setDesk_acts _ _)

/-! ### Commands -/

/-- A command of a live part. -/
theorem whenLive_acts {f : State → State} (hf : ∀ s, Acts s (f s)) {s t : State}
    (h : whenLive f s = .next t) : Acts s t := by
  obtain ⟨-, hw⟩ | ⟨-, hw⟩ := whenLive_eq f s
  · cases hw.symm.trans h; exact hf s
  · cases hw.symm.trans h; exact .refl

/-- A command that answers a request. -/
theorem serve_acts {p : Port} {row : RequestRow} {f : Request → State → State}
    (hf : ∀ r s, Acts s (f r s)) {s t : State} (h : whenLive (fun s => s.serve p row f) s = .next t) :
    Acts s t := by
  refine whenLive_acts (fun s => ?_) h
  obtain ⟨r, -, -, -, hr⟩ | ⟨-, hr⟩ := s.serve_cases p row f <;> rw [hr]
  exact hf r s

theorem execTransferEnd_acts {p : Port} {octets : List Byte} {s t : State}
    (h : execTransferEnd p octets s = .next t) : Acts s t := by
  unfold execTransferEnd at h
  refine whenLive_acts (fun s => ?_) h
  split
  · exact .refl
  · exact s.endTransfer_acts p _ _

/-- Every command is made of acts. -/
theorem exec_acts {i : Instr} {s t : State} (h : exec i s = .next t) : Acts s t := by
  cases i with
  | setWrite p => exact serve_acts (State.setWriteRequest_acts p) h
  | setWriteSoundLength p => exact serve_acts (State.soundLengthRequest_acts p) h
  | setWriteSoundSamples p => exact serve_acts (State.soundSamplesRequest_acts p) h
  | setRead p => exact serve_acts (State.setReadRequest_acts p) h
  | setDigest p => exact serve_acts (State.setDigestRequest_acts p) h
  | enterShow p => exact serve_acts (State.enterShowRequest_acts p) h
  | enterSetup p => exact serve_acts (State.enterSetupRequest_acts p) h
  | restart p => exact serve_acts (State.restartRequest_acts p) h
  | goSong p => exact serve_acts (fun _ s => State.portRequest_acts p s _ _) h
  | goScene p => exact serve_acts (fun _ s => State.portRequest_acts p s _ _) h
  | goNext p => exact serve_acts (fun _ s => State.portRequest_acts p s _ _) h
  | goPrev p => exact serve_acts (fun _ s => State.portRequest_acts p s _ _) h
  | cancel p => exact serve_acts (State.cancelRequest_acts p) h
  | freeze p => exact serve_acts (State.freezeRequest_acts p) h
  | thaw p => exact serve_acts (State.thawRequest_acts p) h
  | step p => exact serve_acts (State.stepRequest_acts p) h
  | tempoSource p => exact serve_acts (State.tempoSourceRequest_acts p) h
  | tempoSet p => exact serve_acts (State.tempoSetRequest_acts p) h
  | trim p => exact serve_acts (State.trimRequest_acts p) h
  | tap p => exact serve_acts (fun _ s => s.answer_acts p _ _) h
  | beatMark => exact serve_acts (fun _ s => s.answer_acts .showPort _ _) h
  | outputEnable p => exact serve_acts (State.outputEnableRequest_acts p) h
  | criticalLevel p => exact serve_acts (State.criticalLevelRequest_acts p) h
  | panic p => exact serve_acts (State.panicRequest_acts p) h
  | clickLevel p => exact serve_acts (State.clickLevelRequest_acts p) h
  | clickMute p => exact serve_acts (State.clickMuteRequest_acts p) h
  | counterSet p => exact serve_acts (State.counterSetRequest_acts p) h
  | counterRead p => exact serve_acts (State.counterReadRequest_acts p) h
  | captureArm p => exact serve_acts (State.captureArmRequest_acts p) h
  | captureRead p => exact serve_acts (State.captureReadRequest_acts p) h
  | status p => exact serve_acts (State.statusRequest_acts p) h
  | subscribe p => exact serve_acts (State.subscribeRequest_acts p) h
  | unknownRequest p => exact whenLive_acts (fun s => s.turnAway_acts p) h
  | transferBegin p => exact whenLive_acts (fun s => s.setPort_acts p _) h
  | transferEnd p octets => exact execTransferEnd_acts h
  | noteOn n c k v => exact whenLive_acts (fun s => s.eventArrives_acts _ _ _ _ _) h
  | noteOff n c k asNoteOn => exact whenLive_acts (fun s => s.eventArrives_acts _ _ _ _ _) h
  | sustainPedal n c v => exact whenLive_acts (fun s => s.eventArrives_acts _ _ _ _ _) h
  | continuousEvent n c e => exact whenLive_acts (fun s => s.continuousArrives_acts n c e) h
  | songSelect n c program => exact whenLive_acts (fun s => s.eventArrives_acts _ _ _ _ _) h
  | clock n => exact whenLive_acts (fun s => s.timing_acts n .clock) h
  | alignmentPoint n kind =>
    cases kind with
    | startOctet => exact whenLive_acts (fun s => s.timing_acts n .align) h
    | continueOctet => exact whenLive_acts (fun s => s.timing_acts n .align) h
  | stop n => exact whenLive_acts (fun s => s.timing_acts n .stop) h
  | inputOctet n b => exact whenLive_acts (fun s => s.octetArrives_acts n b) h
  | syncEdge => exact whenLive_acts State.syncRise_acts h
  | panicLineEdge => exact whenLive_acts State.panicFall_acts h
  | resetPinLow => cases h; exact s.holdReset_acts
  | resetPinRelease a b =>
    simp only [exec, execResetPinRelease, Host.Outcome.next.injEq] at h
    subst h
    split
    · exact .single (.reset a b)
    · exact .refl
  | crystalStop => cases h; exact s.setPins_acts _
  | crystalReturn => cases h; exact s.setPins_acts _
  | stageTick => exact whenLive_acts State.tick_acts h
  | beatBoundary => exact whenLive_acts (fun s => s.boundary_acts true) h
  | clickBoundary => exact whenLive_acts (fun s => s.boundary_acts false) h
  | beatLineEnd => exact whenLive_acts (fun s => .aside s.beatLineDue_sameBut (by simp)) h
  | samplePeriod => exact whenLive_acts (fun s => .aside s.samplePeriod_sameBut (by simp)) h
  | audioClockLoss =>
    refine whenLive_acts (fun s => ?_) h
    unfold State.audioLoss
    split
    · exact s.setClick_acts _
    · exact .refl
  | audioClockReturn => exact whenLive_acts (fun s => .aside s.audioReturn_sameBut (by simp)) h
  | spillExpiry o c => exact whenLive_acts (fun s => s.spillDue_acts o c) h
  | holdoverExpiry => exact whenLive_acts (fun s => .aside s.holdoverStep_sameBut (by simp)) h
  | digestComplete => exact whenLive_acts (fun s => .aside s.digestDue_sameBut (by simp)) h
  | preparationComplete => exact whenLive_acts (fun s => s.preparationEnds_acts true) h
  | preparationCheckFail => exact whenLive_acts (fun s => s.preparationEnds_acts false) h
  | transmissionComplete o => exact whenLive_acts (fun s => s.lineDue_acts o) h
  | panicLineRise => exact whenLive_acts (fun s => s.setPins_acts _) h
  | syncLineFall => exact whenLive_acts (fun s => s.setPins_acts _) h
  | presenceRunOpen =>
    refine whenLive_acts (fun s => ?_) h
    unfold State.openRun
    split
    · exact s.setClick_acts _
    · exact .refl
  | presenceRunGap =>
    refine whenLive_acts (fun s => ?_) h
    unfold State.endRun
    split
    · exact s.setClick_acts _
    · exact .refl

/-- Every step is made of acts. -/
theorem step_acts {s t : State} (h : step s = .next t) : Acts s t := by
  unfold step at h
  split at h
  · cases h; exact .refl
  · next i rest _ =>
    have h0 : Acts s (s.setPending rest) := .single (.aside fun b hb => by
      cases b <;> first | exact absurd (by decide) hb | exact rfl)
    exact h0.trans (exec_acts h)

end Sys2Proof.Machine
end

section
/-! The bounds of the queues and the idle state of SETUP are kept by every act, and so by every step (R29, R38, R60,
R26, R46, R76, R118). -/
namespace Sys2Proof.Machine

/-! ### What acts keep of queues and table -/

/-- A change beside the instrument side keeps its queues, its table and its pedals. -/
theorem SameBut.keeps {l : List Block} {s t : State} (h : SameBut l s t) (ho : Block.outputs ∉ l)
    (ht : Block.table ∉ l) (hp : Block.pedals ∉ l) : s.rig.Keeps t.rig := by
  have ho : t.rig.outputs = s.rig.outputs := h .outputs ho
  have ht : t.rig.table = s.rig.table := h .table ht
  have hp : t.rig.pedals = s.rig.pedals := h .pedals hp
  refine ⟨fun k => k.of_out fun o => ?_, fun k => ht ▸ k, fun k => ht.trans k, hp⟩
  rw [Rig.out, Rig.out, ho]

/-- A take ends the entries of the generation horizon and applies the program settings of its scene. -/
theorem State.take_keeps (s : State) (c : Change) : s.rig.Keeps (s.take c).rig := by
  have horizon : s.rig.Keeps (s.takeBanks c).rig := s.rig.endLegs_keeps s.moment _
  have programs : (s.takeBanks c).rig.Keeps ((s.takeBanks c).takePrograms c).rig :=
    Rig.applySettings_keeps _ _ _ _
  have rest : ∀ (t : State) (i : Nat) (b started : Bool),
      t.rig.Keeps ((((t.takeTempo c).handover i).takePosition b c).takeReport c started).rig :=
    fun t i b started =>
      (((t.takeTempo_sameBut c).keeps (by decide) (by decide) (by decide)).trans
        ((State.handover_sameBut _ i).keeps (by decide) (by decide) (by decide))).trans
        (((State.takePosition_sameBut _ b c).keeps (by decide) (by decide) (by decide)).trans
          ((State.takeReport_sameBut _ c started).keeps (by decide) (by decide) (by decide)))
  exact (horizon.trans programs).trans (rest _ _ _ _)

/-- The mode stays through a take. -/
theorem State.take_mode (s : State) (c : Change) : (s.take c).scene.mode = s.scene.mode := by
  unfold State.take
  dsimp only
  rw [State.takeReport_scene]
  rfl

theorem RigAct.queues {s : State} {r : Rig} (h : RigAct s r) (k : s.rig.QueuesSound) : r.QueuesSound := by
  cases h with
  | line o => exact (s.rig.completeLine_works _ o).queues k
  | spill o c => exact (s.rig.expireSpill_keeps _ o c).queues k
  | enable mask => exact (s.rig.enableMask_works _ mask).queues k
  | level o n h =>
    intro p
    rw [Rig.setLevel, Rig.out_setOut]
    split
    · obtain ⟨urgent, noteOns, bulk, -, -, distinct⟩ := k o
      exact ⟨urgent, noteOns, bulk, h.1, h.2, distinct⟩
    · exact k p
  | panic cause => exact s.rig.panic_queues _ cause k
  | bulk o kind c v => exact (s.rig.offerBulk_works _ o kind c v).queues k
  | note n c key plans _ _ => exact s.rig.routeLegs_queues _ n c key plans k
  | lift n c key _ => exact (s.rig.liftKey_keeps _ n c key).queues k
  | pedal n c v _ => exact (s.rig.movePedal_bounds _ n c v).1 k

theorem RigAct.table {s : State} {r : Rig} (h : RigAct s r) (k : TableBounded s.rig.table) :
    TableBounded r.table := by
  cases h with
  | line o => exact (s.rig.completeLine_works _ o).keeps.table k
  | spill o c => exact (s.rig.expireSpill_keeps _ o c).table k
  | enable mask => exact (s.rig.enableMask_works _ mask).keeps.table k
  | level o n _ => exact k
  | panic cause => exact (s.rig.panic_spec s.moment cause).1 ▸ .nil
  | bulk o kind c v => exact (s.rig.offerBulk_works _ o kind c v).keeps.table k
  | note n c key plans _ hl => exact s.rig.routeLegs_table _ n c key plans k hl
  | lift n c key _ => exact (s.rig.liftKey_keeps _ n c key).table k
  | pedal n c v _ => exact (s.rig.movePedal_bounds _ n c v).2 k

/-- In SETUP the operations on the instrument side leave an empty table empty and every pedal up. -/
theorem RigAct.idle {s : State} {r : Rig} (h : RigAct s r) (setup : s.scene.mode = .setupMode)
    (ht : s.rig.table = []) (hp : s.rig.pedals = Vector.replicate 64 false) :
    r.table = [] ∧ r.pedals = Vector.replicate 64 false := by
  have kept : ∀ {t : Rig}, s.rig.Keeps t → t.table = [] ∧ t.pedals = Vector.replicate 64 false :=
    fun k => ⟨k.empty ht, k.pedals.trans hp⟩
  cases h with
  | line o => exact kept (s.rig.completeLine_works _ o).keeps
  | spill o c => exact kept (s.rig.expireSpill_keeps _ o c)
  | enable mask => exact kept (s.rig.enableMask_works _ mask).keeps
  | level o n _ => exact ⟨ht, hp⟩
  | panic cause =>
    obtain ⟨h1, h2, -⟩ := s.rig.panic_spec s.moment cause
    exact ⟨h1, h2⟩
  | bulk o kind c v => exact kept (s.rig.offerBulk_works _ o kind c v).keeps
  | note n c key plans playing _ => exact absurd (setup.symm.trans playing) (by decide)
  | lift n c key playing => exact absurd (setup.symm.trans playing) (by decide)
  | pedal n c v playing => exact absurd (setup.symm.trans playing) (by decide)

theorem State.restartNotes_rig (s : State) : s.restartNotes.rig = s.rig.restart s.moment := by
  rw [State.restartNotes, State.setRig_rig]

theorem Act.queues {s t : State} (h : Act s t) (k : s.rig.QueuesSound) : t.rig.QueuesSound := by
  cases h with
  | aside h => exact (h.keeps (by decide) (by decide) (by decide)).queues k
  | rig h => exact h.queues k
  | taken c _ _ => exact (s.take_keeps c).queues k
  | left => exact s.rig.leaveShow_queues s.moment k
  | restarted =>
    rw [State.restartNotes_rig]
    exact Rig.restart_queues _ _ k
  | cutShort =>
    intro o
    show ((s.rig.mapOutputs OutPort.cutShort).out o).Sound
    rw [Rig.out_mapOutputs]
    exact (k o).congr rfl rfl rfl
  | reset a b =>
    exact (queuesSound_iff State.reset).mpr ⟨State.reset_queuesBounded, State.reset_bulkDistinct⟩
  | dropped | staged | readied | position | frozen | entered => exact k

theorem Act.table {s t : State} (h : Act s t) (k : TableBounded s.rig.table) : TableBounded t.rig.table := by
  cases h with
  | aside h => exact (h.keeps (by decide) (by decide) (by decide)).table k
  | rig h => exact h.table k
  | taken c _ _ => exact (s.take_keeps c).table k
  | left => exact (s.rig.leaveShow_notes s.moment k.full).1 ▸ .nil
  | restarted =>
    rw [State.restartNotes_rig, (Rig.restart_spec _ _).1]
    exact .nil
  | cutShort => exact k
  | reset a b => exact (tableBounded_iff State.reset).mp State.reset_tableBounded
  | dropped | staged | readied | position | frozen | entered => exact k

/-! ### SETUP is idle -/

/-- A part that is in SHOW has no idle state to keep. -/
theorem setupIdle_of_showMode {s : State} (h : s.scene.mode = .showMode) : setupIdle s := fun hm =>
  absurd (hm.symm.trans h) (by decide)

/-- In SETUP the slot is empty, so an act on a change of the slot belongs to SHOW. -/
theorem setupIdle.playing {s : State} (h : setupIdle s) {c : Change} (held : s.scene.staged = some c) :
    s.scene.mode = .showMode := by
  cases hm : s.scene.mode with
  | showMode => rfl
  | setupMode =>
    obtain ⟨-, hs, -⟩ := h hm
    exact absurd (hs.symm.trans held) nofun

theorem Act.idle {s t : State} (h : Act s t) (k : setupIdle s) (b : TableBounded s.rig.table) : setupIdle t := by
  cases h with
  | aside h =>
    have hs : t.scene = s.scene := h .scene (by decide)
    have hr : t.router = s.router := h .router (by decide)
    have ht : t.rig.table = s.rig.table := h .table (by decide)
    have hp : t.rig.pedals = s.rig.pedals := h .pedals (by decide)
    unfold setupIdle
    rw [hs, hr, ht, hp]
    exact k
  | rig h =>
    intro hm
    obtain ⟨h1, h2, h3, h4, h5, h6, h7, h8, h9, h10⟩ := k hm
    obtain ⟨ht, hp⟩ := h.idle hm h9 h10
    exact ⟨h1, h2, h3, h4, h5, h6, h7, h8, ht, hp⟩
  | dropped =>
    intro hm
    obtain ⟨h1, -, h3, h4, h5, h6, h7, -, h9, h10⟩ := k hm
    exact ⟨h1, rfl, h3, h4, h5, h6, h7, rfl, h9, h10⟩
  | staged g t q tag playing => exact setupIdle_of_showMode playing
  | readied c held => exact setupIdle_of_showMode (k.playing held)
  | taken c held _ => exact setupIdle_of_showMode ((s.take_mode c).trans (k.playing held))
  | position x song bar =>
    intro hm
    obtain ⟨h1, h2, h3, h4, h5, h6, h7, h8, h9, h10⟩ := k hm
    exact ⟨h1, h2, h3, h4, song.trans h5, h6.trans bar, h7, h8, h9, h10⟩
  | frozen b playing => exact setupIdle_of_showMode playing
  | entered => exact setupIdle_of_showMode rfl
  | left =>
    obtain ⟨ht, hp⟩ := s.rig.leaveShow_notes s.moment b.full
    exact fun _ => ⟨rfl, rfl, rfl, rfl, rfl, le_rfl, rfl, rfl, ht, hp⟩
  | restarted =>
    obtain ⟨ht, hp, -⟩ := s.restartScene.rig.restart_spec s.restartScene.moment
    rw [← State.restartNotes_rig] at ht hp
    exact fun _ => ⟨rfl, rfl, rfl, rfl, rfl, le_rfl, rfl, rfl, ht, hp⟩
  | cutShort => exact k
  | reset _ _ => exact State.reset_setupIdle

theorem Acts.queues {s t : State} (h : Acts s t) (k : s.rig.QueuesSound) : t.rig.QueuesSound := by
  induction h with
  | refl => exact k
  | tail _ act ih => exact act.queues ih

theorem Acts.idle {s t : State} (h : Acts s t) (k : setupIdle s) (b : TableBounded s.rig.table) :
    setupIdle t ∧ TableBounded t.rig.table := by
  induction h with
  | refl => exact ⟨k, b⟩
  | tail _ act ih => exact ⟨act.idle ih.1 ih.2, act.table ih.2⟩

/-! ### The obligations -/

/-- Settles O6: every act of a step keeps the queues within their bounds. -/
theorem queuesStayBounded : Obligations.QueuesStayBounded := by
  intro s t h hstep
  exact (queuesSound_iff t).mp ((step_acts hstep).queues ((queuesSound_iff s).mpr h))

/-- Settles O11: every act of a step keeps the idle state of SETUP, given the bounds of the table. -/
theorem setupStaysIdle : Obligations.SetupStaysIdle := by
  rintro s t ⟨hi, hb⟩ hstep
  obtain ⟨ki, kb⟩ := (step_acts hstep).idle hi ((tableBounded_iff s).mp hb)
  exact ⟨ki, (tableBounded_iff t).mpr kb⟩

end Sys2Proof.Machine
end

section
/-! Levels and the mute, reference pulses and alignment points (O43, O38): what one request or one pulse sets. -/
namespace Sys2Proof.Machine

/-! ### CRITICAL LEVEL, CLICK LEVEL and CLICK MUTE (R37, R153) -/

theorem Rig.setLevel_out (r : Rig) (o p : Output) (n : Nat) :
    (r.setLevel o n).out p = if p = o then { r.out o with
      level := n, critical := (r.out o).critical && decide (n < (r.out o).urgent.length) } else r.out p :=
  r.out_setOut o p _

/-- An output may be changed alone. -/
theorem State.setOut_sameBut (s : State) (o : Output) (x : OutPort) :
    SameBut [.outputs] s (s.setRig (s.rig.setOut o x)) := by
  intro b hb
  cases b with
  | outputs => exact absurd List.mem_cons_self hb
  | _ => rfl

/-- Settles O43, request by request: each is refused outside its range, and sets its value within it. -/
theorem levelsSet : Obligations.LevelsSet := by
  refine fun s p r rest => ⟨fun h => ?_, fun h => ?_, fun h => ?_⟩
  · rw [show exec (.criticalLevel p) s = .next (s.criticalLevelRequest p r) from
      whenLive_serve_of_heads h (State.criticalLevelRequest p)]
    refine ⟨fun hbad => ?_, fun o ho hlow hhigh => ?_⟩
    · have hr : s.criticalLevelRequest p r = s.answer p .range [] := by
        unfold State.criticalLevelRequest
        split
        · rfl
        · rename_i o ho
          have := decodeIndex_eq_some.mp ho
          have := o.isLt
          exact if_pos (by simpa using hbad.resolve_left (by omega))
      exact hr ▸ onlyAnswers_answer h _ _
    · have hr : s.criticalLevelRequest p r = (s.answer p .done []).setRig
          ((s.answer p .done []).rig.setLevel o (r.octetAt 1)) := by
        rw [State.criticalLevelRequest, decodeIndex_eq_some.mpr ho]
        exact if_neg (by simp; omega)
      obtain ⟨-, hq, -⟩ := h
      refine ⟨_, rfl, ?_, ?_, fun q => ?_⟩ <;> rw [hr]
      · exact ((s.answer_sameBut p _ _).mono (by simp)).trans ((State.setOut_sameBut _ o _).mono (by simp))
      · exact s.answer_desk p r rest _ _ hq
      · exact Rig.setLevel_out _ o q _
  · rw [show exec (.clickLevel p) s = .next (s.clickLevelRequest p r) from
      whenLive_serve_of_heads h (State.clickLevelRequest p)]
    unfold State.clickLevelRequest
    dsimp only
    refine ⟨fun hbad => ?_, fun hgood => ?_⟩
    · rw [if_pos hbad]
      exact onlyAnswers_answer h _ _
    · rw [if_neg (Nat.not_lt.mpr hgood)]
      obtain ⟨-, hq, -⟩ := h
      exact ⟨_, rfl, ((s.answer_sameBut p _ _).mono (by simp)).trans ((State.setClick_sameBut _ _).mono (by simp)),
        s.answer_desk p r rest _ _ hq, rfl⟩
  · have hexec : exec (.clickMute p) s = .next (s.clickMuteRequest p r) :=
      whenLive_serve_of_heads h (State.clickMuteRequest p)
    obtain ⟨-, hq, -⟩ := h
    exact ⟨_, hexec, ((s.answer_sameBut p _ _).mono (by simp)).trans
      ((State.setClick_sameBut _ _).mono (by simp)), s.answer_desk p r rest _ _ hq, rfl⟩

/-! ### Reference pulses (R130) -/

/-- A pulse that does not complete the pulses of a beat. -/
theorem State.pulse_counts {s : State} {k : Nat} (hp : s.tempo.reference.pulses = some k)
    (hk : k + 1 < s.tempo.source.pulsesPerBeat) :
    s.pulse = s.setTempo { s.tempo with reference := { s.tempo.reference with pulses := some (k + 1) } } := by
  unfold State.pulse
  dsimp only
  rw [hp]
  exact if_pos hk

/-- The first pulse of a beat in ACQUIRING is a reference beat without an interval. -/
theorem State.pulse_first {s : State} (hp : s.tempo.reference.pulses = none)
    (ha : s.tempo.state = .acquiring) :
    s.pulse = s.setTempo { s.tempo with
      reference := { s.tempo.reference with pulses := some 0, lastBeat := some s.time } } := by
  have hacq : ∀ t : State, t.tempo.state = .acquiring → t.referenceBeat none = t := fun t h => by
    simp only [State.referenceBeat, h]
  unfold State.pulse
  dsimp only
  rw [hp]
  exact hacq _ ha

/-- A timing octet of an input that is not requested is consumed. -/
theorem State.timing_other {s : State} {n : Input} (h : s.tempo.source ≠ .clock n) (t : TimingOctet) :
    s.timing n t = s := if_neg h

theorem State.timing_clock {s : State} {n : Input} (h : s.tempo.source = .clock n) :
    s.timing n .clock = s.pulse := if_pos h

theorem State.timing_align {s : State} {n : Input} (h : s.tempo.source = .clock n) :
    s.timing n .align = s.align := if_pos h

theorem State.timing_stop (s : State) (n : Input) : s.timing n .stop = s := by
  unfold State.timing
  split <;> rfl

theorem exec_clock {s : State} (h : s.live = true) (n : Input) : exec (.clock n) s = .next (s.timing n .clock) :=
  whenLive_of_live _ h

/-- START and CONTINUE are one alignment point. -/
theorem exec_alignmentPoint {s : State} (h : s.live = true) (n : Input) (kind : AlignKind) :
    exec (.alignmentPoint n kind) s = .next (s.timing n .align) := by
  cases kind <;> exact whenLive_of_live _ h

theorem exec_syncEdge {s : State} (h : s.live = true) : exec .syncEdge s = .next s.syncRise :=
  whenLive_of_live _ h

/-- A rise of a low sync line raises it, and is a pulse where the requested source is SYNC. -/
theorem State.syncRise_of_low {s : State} (h : s.pins.syncHigh = false) :
    s.syncRise = match s.tempo.source with
      | .sync _ => (s.setPins { s.pins with syncHigh := true }).pulse
      | _ => s.setPins { s.pins with syncHigh := true } := by
  unfold State.syncRise
  rw [if_neg (by simp [h])]
  dsimp only [State.setPins_tempo]
  split <;> simp_all

/-- Settles O38: pulses by the source and the count they find, and alignment points by the source state. -/
theorem pulsesCounted : Obligations.PulsesCounted := by
  refine fun s hl => ⟨fun rate k hlow hsrc hp hk => ?_, fun n k hsrc hp hk => ?_, fun n hsrc hp ha => ?_,
    fun n kind hsrc => ?_, fun n kind hsrc => ?_, fun hhigh => ?_, fun hsrc => ?_, fun n => ?_⟩
  · have hpulse := State.pulse_counts (s := s.setPins { s.pins with syncHigh := true }) hp
      (by simpa [hsrc, Source.pulsesPerBeat] using hk)
    rw [exec_syncEdge hl, State.syncRise_of_low hlow, hsrc]
    dsimp only
    rw [hpulse]
    exact ⟨_, rfl, ((State.setPins_sameBut s _).mono (by simp)).trans ((State.setTempo_sameBut _ _).mono (by simp)),
      rfl, rfl⟩
  · rw [exec_clock hl, State.timing_clock hsrc, State.pulse_counts hp (by rw [hsrc]; exact hk)]
    exact ⟨_, rfl, s.setTempo_sameBut _, rfl⟩
  · rw [exec_clock hl, State.timing_clock hsrc, State.pulse_first hp ha]
    exact ⟨_, rfl, s.setTempo_sameBut _, rfl⟩
  · rw [exec_alignmentPoint hl, State.timing_align hsrc]
    refine ⟨_, rfl, s.setTempo_sameBut _, ?_⟩
    unfold State.align
    by_cases ha : s.tempo.state = .acquiring <;> simp [ha, State.setReference, Tempo.setReference]
  · rw [exec_clock hl, exec_alignmentPoint hl, State.timing_other hsrc, State.timing_other hsrc]
    exact ⟨rfl, rfl⟩
  · rw [exec_syncEdge hl, State.syncRise, if_pos hhigh]
  · rw [exec_syncEdge hl]
    refine ⟨_, rfl, ?_⟩
    cases hhigh : s.pins.syncHigh
    · rw [State.syncRise_of_low hhigh]
      split
      · rename_i rate hr
        exact absurd hr (hsrc rate)
      · exact ⟨s.setPins_sameBut _, rfl⟩
    · rw [State.syncRise, if_pos hhigh]
      refine ⟨SameBut.rfl' _ s, ?_⟩
      rw [← hhigh]
  · rw [show exec (.stop n) s = .next (s.timing n .stop) from whenLive_of_live _ hl, State.timing_stop]

end Sys2Proof.Machine
end

section
/-! The arrival of events at the note inputs (O52): what the octets of an event leave behind, and which octet
completes which event. -/
namespace Sys2Proof.Machine

/-! ### Arrival (R20 to R24) -/

theorem State.setDeframer_sameBut (s : State) (n : Input) (d : Deframer) : SameBut [.inputs] s (s.setDeframer n d) :=
  s.setInputs_sameBut _

/-- The part once the octets of an event have arrived, before the event is delivered. -/
def State.arrived (s : State) (n : Input) (kind : ChannelKind) (c : Chan) (x : Seven) : State :=
  (s.setDeframer n ⟨.channel kind c, none⟩).setDesk (arrivedDesk s n kind c x)

theorem State.setDesk_self (s : State) : s.setDesk s.desk = s := rfl

theorem State.framingErrorIf_eq (s : State) (b : Bool) (n : Input) :
    s.framingErrorIf b n = s.setDesk (if b then s.desk.report .framingErrors n.val else s.desk) := by
  cases b <;> rfl

/-- Data held is cut short unless it is the event's own first octet. -/
theorem Deframer.cutBy_eq_false (d : Deframer) (kind : ChannelKind) (c : Chan) (x : Seven) :
    d.cutBy kind c x = false ↔ d.held = none ∨ (d = ⟨.channel kind c, some x⟩ ∧ kind.single = false) := by
  obtain ⟨k, held⟩ := d
  cases held with
  | none => simp [Deframer.cutBy]
  | some y => simp [Deframer.cutBy, and_assoc]

/-- An event arrives and is then delivered. -/
theorem State.eventArrives_eq (s : State) (n : Input) (kind : ChannelKind) (c : Chan) (x y : Seven) :
    s.eventArrives n kind c x y = (s.arrived n kind c x).deliver n c (assemble kind x y) := by
  have hd : (if (s.deframer n).cutBy kind c x then s.desk.report .framingErrors n.val else s.desk) =
      arrivedDesk s n kind c x := by
    unfold arrivedDesk
    by_cases h : (s.deframer n).held = none ∨ (s.deframer n = ⟨.channel kind c, some x⟩ ∧ kind.single = false)
    · rw [if_pos h, (Deframer.cutBy_eq_false _ _ _ _).mpr h]
      rfl
    · rw [if_neg h, if_pos (by simpa using fun hc => h ((Deframer.cutBy_eq_false _ _ _ _).mp hc))]
  rw [State.eventArrives, State.framingErrorIf_eq, State.arrived, ← hd]
  rfl

/-- An event that has arrived and is consumed. -/
theorem State.arrived_onlyArrives (s : State) (n : Input) (kind : ChannelKind) (c : Chan) (x : Seven) :
    OnlyArrives s (s.arrived n kind c x) n kind c x := by
  refine ⟨?_, rfl, fun i => s.deframer_setDeframer n i _⟩
  exact ((s.setDeframer_sameBut n _).mono (by simp)).trans ((State.setDesk_sameBut _ _).mono (by simp))

/-- In SETUP an event is discarded. -/
theorem State.deliver_setup {s : State} (h : s.scene.mode = .setupMode) (n : Input) (c : Chan) (e : LineEvent) :
    s.deliver n c e = s := by
  rw [State.deliver, h]

theorem State.deliver_show {s : State} (h : s.scene.mode = .showMode) (n : Input) (c : Chan) (e : LineEvent) :
    s.deliver n c e = s.deliverShow n c e := by
  rw [State.deliver, h]

/-- An event of the unused kind is discarded in either mode (R20). -/
theorem State.deliver_unused (s : State) (n : Input) (c : Chan) : s.deliver n c .unused = s := by
  unfold State.deliver
  split <;> rfl

/-! ### The commands of complete events -/

section
variable {s : State} (h : s.live = true) (n : Input) (c : Chan)
include h

theorem exec_noteOn (k v : Seven) : exec (.noteOn n c k v) s = .next (s.eventArrives n .noteOn c k v) :=
  whenLive_of_live (fun s => s.eventArrives n .noteOn c k v) h

theorem exec_noteOff (k : Seven) (asNoteOn : Bool) : exec (.noteOff n c k asNoteOn) s =
    .next (s.eventArrives n (if asNoteOn then .noteOn else .noteOff) c k 0) :=
  whenLive_of_live (fun s => s.eventArrives n (if asNoteOn then .noteOn else .noteOff) c k 0) h

theorem exec_sustainPedal (v : Seven) : exec (.sustainPedal n c v) s =
    .next (s.eventArrives n .control c (Fin.ofNat 128 s.mem.header.sustainController) v) :=
  whenLive_of_live (fun s => s.eventArrives n .control c (Fin.ofNat 128 s.mem.header.sustainController) v) h

theorem exec_continuousEvent (e : ContinuousEvent) :
    exec (.continuousEvent n c e) s = .next (s.continuousArrives n c e) :=
  whenLive_of_live (fun s => s.continuousArrives n c e) h

theorem exec_songSelect (program : Seven) :
    exec (.songSelect n c program) s = .next (s.eventArrives n .program c program program) :=
  whenLive_of_live (fun s => s.eventArrives n .program c program program) h

theorem exec_inputOctet (b : Byte) : exec (.inputOctet n b) s = .next (s.octetArrives n b) :=
  whenLive_of_live (fun s => s.octetArrives n b) h

end

/-! ### Octets (R20, R191) -/

theorem octetClass_data {b : Byte} (h : b.toNat < 128) : octetClass b = .data (Fin.ofNat 128 b.toNat) := if_pos h

theorem octetClass_channel {b : Byte} {k : ChannelKind} (h : 0x80 ≤ b.toNat)
    (hk : channelKindOf (b.toNat / 16) = some k) : octetClass b = .channel k (Fin.ofNat 16 b.toNat) := by
  rw [octetClass, if_neg (Nat.not_lt.mpr h), hk]

/-- The system octets that are not timing octets open a system message. -/
theorem octetClass_opening {b : Byte} (h : 0xF0 ≤ b.toNat) (h8 : b.toNat ≠ 0xF8) (hA : b.toNat ≠ 0xFA)
    (hB : b.toNat ≠ 0xFB) (hC : b.toNat ≠ 0xFC) : octetClass b = .opening := by
  have hk : channelKindOf (b.toNat / 16) = none := by
    have : b.toNat / 16 = 15 := by omega
    rw [this]
    rfl
  rw [octetClass, if_neg (by omega), hk]
  dsimp only
  unfold systemClass
  split
  case h_5 => rfl
  all_goals contradiction

theorem State.octetArrives_data (s : State) (n : Input) {b : Byte} (h : b.toNat < 128) :
    s.octetArrives n b = s.dataOctet n (Fin.ofNat 128 b.toNat) := by
  unfold State.octetArrives
  dsimp only
  rw [octetClass_data h]

/-- A data octet completes an event of one data octet. -/
theorem State.dataOctet_single {s : State} {n : Input} {kind : ChannelKind} {c : Chan}
    (h : s.deframer n = ⟨.channel kind c, none⟩) (hk : kind.single = true) (v : Seven) :
    s.dataOctet n v = s.eventArrives n kind c v v := by
  have hself : s.setDeframer n ⟨.channel kind c, none⟩ = s := by
    rw [← h]
    simp [State.setDeframer, State.deframer, State.setInputs]
  have harr : s.arrived n kind c v = s := by
    rw [State.arrived, hself, arrivedDesk, if_pos (.inl (by rw [h]))]
    exact s.setDesk_self
  rw [State.eventArrives_eq, harr]
  unfold State.dataOctet
  rw [h]
  exact if_pos hk

/-- The first data octet of an event of two is held. -/
theorem State.dataOctet_first {s : State} {n : Input} {kind : ChannelKind} {c : Chan}
    (h : s.deframer n = ⟨.channel kind c, none⟩) (hk : kind.single = false) (v : Seven) :
    s.dataOctet n v = s.setDeframer n ⟨.channel kind c, some v⟩ := by
  unfold State.dataOctet
  rw [h]
  exact if_neg (by simp [hk])

/-- The second data octet completes an event of two. -/
theorem State.dataOctet_second {s : State} {n : Input} {kind : ChannelKind} {c : Chan} {x : Seven}
    (h : s.deframer n = ⟨.channel kind c, some x⟩) (hk : kind.single = false) (v : Seven) :
    s.dataOctet n v = s.eventArrives n kind c x v := by
  have harr : s.arrived n kind c x = s.setDeframer n ⟨.channel kind c, none⟩ := by
    rw [State.arrived, arrivedDesk, if_pos (.inr ⟨h, hk⟩)]
    rfl
  rw [State.eventArrives_eq, harr]
  unfold State.dataOctet
  rw [h]
  exact if_neg (by simp [hk])

/-- The value of a data octet. -/
theorem seven_ofNat_eq {b : Byte} {y : Seven} (h : b.toNat = y.val) : Fin.ofNat 128 b.toNat = y := by
  rw [h]
  exact Fin.ext (Nat.mod_eq_of_lt y.isLt)

/-- A bend value is taken apart into its two data octets again. -/
theorem bend_octets (x y : Seven) : Fin.ofNat 128 (Fin.ofNat 16384 (x.val + 128 * y.val)).val = x ∧
    Fin.ofNat 128 ((Fin.ofNat 16384 (x.val + 128 * y.val)).val / 128) = y := by
  have hx := x.isLt
  have hy := y.isLt
  constructor <;> apply Fin.ext <;> simp only [Fin.ofNat] <;> omega

/-- A kind octet or a system opening puts its kind in force, and data held is a framing error. -/
theorem State.octetArrives_kind {s : State} {n : Input} {b : Byte} {kind : KindInForce}
    (h : s.octetArrives n b = (s.setDeframer n ⟨kind, none⟩).framingErrorIf (s.deframer n).held.isSome n) :
    SameBut [.inputs, .desk] s (s.octetArrives n b) ∧
      (∀ i, (s.octetArrives n b).deframer i = if i = n then ⟨kind, none⟩ else s.deframer i) ∧
      (s.octetArrives n b).desk =
        if (s.deframer n).held = none then s.desk else s.desk.report .framingErrors n.val := by
  rw [h, State.framingErrorIf_eq]
  refine ⟨((s.setDeframer_sameBut n _).mono (by simp)).trans ((State.setDesk_sameBut _ _).mono (by simp)),
    fun i => s.deframer_setDeframer n i _, ?_⟩
  cases (s.deframer n).held <;> rfl

/-- Settles O52, by the class of the octet and the kind in force. -/
theorem octetsDecoded : Obligations.OctetsDecoded := by
  intro s n b hl
  rw [exec_inputOctet hl]
  refine ⟨fun hb hk => ?_, fun hb hk => ?_, fun kind c hb hd hk => ?_, fun kind hk => ?_, fun c x hb hd => ?_,
    ?_, ?_, ?_, ?_, fun c x y hy => ?_⟩
  · refine ⟨_, rfl, ?_⟩
    rw [s.octetArrives_data n hb, State.dataOctet, hk]
    exact ⟨s.setDesk_sameBut _, rfl⟩
  · rw [s.octetArrives_data n hb, State.dataOctet, hk]
  · rw [s.octetArrives_data n hb, State.dataOctet_first hd hk]
    exact ⟨_, rfl, s.setDeframer_sameBut n _, fun i => s.deframer_setDeframer n i _⟩
  · refine ⟨_, rfl, State.octetArrives_kind ?_⟩
    unfold State.octetArrives
    dsimp only
    rcases hk with ⟨k, hlow, -, hkind, rfl⟩ | ⟨hF, h8, hA, hB, hC, rfl⟩
    · rw [octetClass_channel hlow hkind]
    · rw [octetClass_opening hF h8 hA hB hC]
  · rw [s.octetArrives_data n hb, State.dataOctet_second hd rfl, State.eventArrives_eq]
    have hdesk : arrivedDesk s n .keyPressure c x = s.desk := if_pos (.inr ⟨hd, rfl⟩)
    have harr : s.arrived n .keyPressure c x = s.setDeframer n ⟨.channel .keyPressure c, none⟩ := by
      rw [State.arrived, hdesk]
      rfl
    rw [harr, show assemble .keyPressure x (Fin.ofNat 128 b.toNat) = .unused from rfl, State.deliver_unused]
    exact ⟨_, rfl, s.setDeframer_sameBut n _, fun i => s.deframer_setDeframer n i _⟩
  · rw [exec_inputOctet hl, exec_clock hl]
    rfl
  · rw [exec_inputOctet hl, exec_alignmentPoint hl]
    rfl
  · rw [exec_inputOctet hl, exec_alignmentPoint hl]
    rfl
  · rw [exec_inputOctet hl, show exec (.stop n) s = .next (s.timing n .stop) from whenLive_of_live _ hl]
    rfl
  · have hb : b.toNat < 128 := hy ▸ y.isLt
    rw [s.octetArrives_data n hb, seven_ofNat_eq hy]
    refine ⟨fun hd => ?_, fun hd => ?_, fun hd => ?_, fun hd => ?_, fun hd => ?_, fun hd => ?_⟩
    · rw [State.dataOctet_second hd rfl]
      split
      · rename_i h0
        have : y = 0 := Fin.ext h0
        rw [exec_noteOff hl, this]
        rfl
      · rw [exec_noteOn hl]
    · rw [State.dataOctet_second hd rfl, exec_noteOff hl, State.eventArrives_eq, State.eventArrives_eq]
      rfl
    · rw [State.dataOctet_second hd rfl, exec_continuousEvent hl]
      rfl
    · obtain ⟨hx, hy⟩ := bend_octets x y
      rw [State.dataOctet_second hd rfl, exec_continuousEvent hl, State.continuousArrives, hx, hy]
    · rw [State.dataOctet_single hd rfl, exec_continuousEvent hl]
      rfl
    · rw [State.dataOctet_single hd rfl, exec_songSelect hl]

end Sys2Proof.Machine
end

section
/-! RESTART and the panic as commands (O31, O44). -/
namespace Sys2Proof.Machine

/-! ### Outputs and pedals left behind -/

/-- Pedals that are all UP. -/
theorem Rig.pedal_of_up {r : Rig} (h : r.pedals = Vector.replicate 64 false) (n : Input) (c : Chan) :
    r.pedal n c = false := by
  simp [Rig.pedal, h]

/-- A purged output that appends an ALL-NOTES-OFF first: a busy line goes on, and an idle one begins it. -/
theorem nextTransmit_allNotesOff (now : StageTime) (es : List Urgent) (bulk : List BulkPlace) :
    nextTransmit now (allChans.map Urgent.allNotesOff ++ es) bulk = .sending .urgent (now + 960) := rfl

/-- What RESTART leaves of an output, field by field. -/
theorem restartedOut_spec (now : StageTime) (q : OutPort) :
    (restartedOut now q).enabled = q.enabled ∧ (restartedOut now q).level = 40 ∧
      (restartedOut now q).overflow = false ∧ (restartedOut now q).critical = false ∧
      (restartedOut now q).urgent = (if q.urgentOnLine then q.urgent.take 1 else []) ++
        (if q.enabled then allChans.map Urgent.allNotesOff else []) ∧
      (restartedOut now q).bulk =
        ((if q.bulkOnLine then q.bulk.take 1 else []).map fun b => { b with followUp := none }) ∧
      (∀ k last, q.transmit = .sending k last → (restartedOut now q).transmit = .sending k last) ∧
      (q.transmit = .idle → (restartedOut now q).transmit =
        if q.enabled then .sending .urgent (now + 960) else .idle) := by
  have hlen := q.purge_urgent_length
  have hne : allChans.map Urgent.allNotesOff ≠ [] := by simp [allChans]
  have h16 : (allChans.map Urgent.allNotesOff).length = 16 := rfl
  unfold restartedOut
  by_cases he : q.enabled = true
  · rw [if_pos he, appendedOut, if_neg hne]
    refine ⟨rfl, rfl, rfl, ?_, by simp [he, OutPort.purge], rfl, fun k last h => ?_, fun h => ?_⟩
    · dsimp only
      rw [Bool.false_or, decide_eq_false_iff_not]
      omega
    · simp [OutPort.purge, h]
    · have hu : q.purge.urgent = [] := OutPort.purge_idle h
      dsimp only
      rw [if_pos (show q.purge.transmit = .idle from h), hu, if_pos he]
      rfl
  · rw [Bool.not_eq_true] at he
    rw [if_neg (by simp [he])]
    exact ⟨rfl, rfl, rfl, rfl, by simp [he, OutPort.purge], rfl, fun k last h => h, fun h => h.trans (if_neg (by simp [he])).symm⟩

/-! ### RESTART (R184) -/

theorem exec_restart {s : State} {p : Port} {r : Request} {rest : List Request} (h : Heads s p .restart r rest) :
    exec (.restart p) s = .next ((s.restartScene.restartNotes.restartRest.answer p .done []).raise
      (.mode .setupMode)) := whenLive_serve_of_heads h (State.restartRequest p)

/-- The desk keeps its ports through RESTART, and answers from them. -/
theorem Desk.restart_setPort (d : Desk) (p : Port) (x : PortState) :
    d.restart.setPort p x = { d.setPort p x with
      counters := Vector.replicate 4 ⟨none, 0, 0, 0, false⟩
      capture := ⟨Vector.replicate 32 none, .disarmed, 0, 0⟩ } := by
  cases p <;> rfl

/-- The part after the stages of RESTART, before the answer. -/
abbrev State.restarted (s : State) : State := s.restartScene.restartNotes.restartRest

theorem State.restarted_rig (s : State) : s.restarted.rig =
    (s.rig.restart s.moment).setDesk s.desk.restart := by
  obtain ⟨-, -, -, -, -, h⟩ := s.rig.restart_spec s.moment
  have hn : s.restartScene.restartNotes.rig = s.rig.restart s.moment := s.restartScene.restartNotes_rig
  have hd : s.restartScene.restartNotes.desk = s.desk := by rw [State.desk, hn, h, State.desk]
  rw [State.restarted, State.restartRest, State.setDesk_rig, State.setClick_rig, State.setTempo_rig, hn, hd]

theorem State.restarted_sameBut (s : State) :
    SameBut [.mem, .desk, .outputs, .records, .table, .pedals, .inputs, .router, .scene, .tempo, .click]
      s s.restarted := by
  intro b hb
  have hr := s.restarted_rig
  obtain ⟨-, -, hl, -⟩ := s.rig.restart_spec s.moment
  cases b with
  | legs =>
    show s.restarted.rig.nextLeg = s.rig.nextLeg
    rw [hr, Rig.setDesk_nextLeg, hl]
  | time | pins | pending => rfl
  | _ => exact absurd (by decide) hb

/-- Settles O31: the stages of RESTART block by block, its outputs by `restartedOut_spec`. -/
theorem restartRule : Obligations.RestartRule := by
  intro s p r rest h
  rw [exec_restart h]
  obtain ⟨-, hq, -⟩ := h
  obtain ⟨ht, hp, -, ho, hx, -⟩ := s.rig.restart_spec s.moment
  have hrig := s.restarted_rig
  have hsame : SameBut [.desk] s.restarted ((s.restarted.answer p .done []).raise (.mode .setupMode)) :=
    (State.answer_sameBut _ p _ _).trans (State.raise_sameBut _ _)
  have hdesk : ((s.restarted.answer p .done []).raise (.mode .setupMode)).desk =
      ({ answeredDesk s p r rest .done [] with
        counters := Vector.replicate 4 ⟨none, 0, 0, 0, false⟩
        capture := ⟨Vector.replicate 32 none, .disarmed, 0, 0⟩ }).raise (.mode .setupMode) := by
    have hport : s.restarted.port p = s.port p := by
      rw [State.port, State.desk, hrig, Rig.setDesk_desk]
      cases p <;> rfl
    have hrequests : (s.restarted.port p).requests = r :: rest := by rw [hport, hq]
    rw [State.raise, State.setDesk_desk, State.answer_desk _ p r rest _ _ hrequests, answeredDesk, hport,
      State.desk, hrig, Rig.setDesk_desk, Desk.restart_setPort]
    rfl
  generalize (s.restarted.answer p .done []).raise (.mode .setupMode) = t at hsame hdesk ⊢
  have ttable : t.rig.table = [] := by
    rw [show t.rig.table = s.restarted.rig.table from hsame .table (by decide), hrig, Rig.setDesk_table, ht]
  have tpedals : t.rig.pedals = Vector.replicate 64 false := by
    rw [show t.rig.pedals = s.restarted.rig.pedals from hsame .pedals (by decide), hrig, Rig.setDesk_pedals, hp]
  have tout : ∀ o, t.rig.out o = restartedOut s.time (s.rig.out o) := fun o => by
    rw [Rig.out, show t.rig.outputs = s.restarted.rig.outputs from hsame .outputs (by decide), hrig, Rig.setDesk_outputs]
    exact ho o
  have tchan : ∀ o c, t.rig.chan o c = ChanRec.clear := fun o c => by
    rw [Rig.chan, show t.rig.records = s.restarted.rig.records from hsame .records (by decide), hrig, Rig.setDesk_records]
    exact hx o c
  have ttempo : t.tempo = s.tempo.restart s.mem.header.followShift := hsame .tempo (by decide)
  have tclick : t.click = s.click.restart { s.mem with underCopy := none } := hsame .click (by decide)
  refine ⟨t, rfl, hsame .mem (by decide), hsame .scene (by decide), hsame .router (by decide),
    ttable, Rig.pedal_of_up tpedals, tchan, fun n => ?_, fun o => ?_, ?_⟩
  · rw [State.deframer, show t.inputs = s.restarted.inputs from hsame .inputs (by decide)]
    simp [State.restarted, State.restartRest, State.restartNotes, Deframer.clear]
  · rw [tout]
    exact restartedOut_spec s.time (s.rig.out o)
  · refine ⟨?_, ?_, ?_, ?_, ?_, ?_, ?_, ?_, ?_, ?_, ?_, ?_, ?_, ?_, ?_, ?_, fun i => ?_, ?_, ?_, ?_, ?_, hdesk,
      s.restarted_sameBut.trans (hsame.mono (by simp))⟩
    case refine_16 =>
      rw [tempoInStep, ttempo]
      obtain ⟨he, hc, hi, hu⟩ := Tempo.recompute_spec
        { Tempo.pinReset with trim := s.tempo.trim, followShift := s.mem.header.followShift }
      exact ⟨he, hc, hi⟩
    case refine_17 =>
      rw [tclick]
      simp [ClickGen.restart, ClickGen.handover, ClickGen.stopAll]
    case refine_18 | refine_19 | refine_20 | refine_21 =>
      rw [tclick]
      rfl
    all_goals
      rw [ttempo]
      rfl

end Sys2Proof.Machine
end

section
/-! The panic as a command (O44): what it leaves of table, records and queues, and how it is reported. -/
namespace Sys2Proof.Machine

/-! ### The program of a spill expiry that a panic purges (R85) -/

/-- The program of a queued event that a spill expiry had released. -/
def expiredOf : Option Urgent → Option Program
  | some (.program _ y true) => some y
  | _ => none

/-- The newest PROGRAM of a channel in a purged part of the queue, where a spill expiry had released it. -/
theorem expiredProgram_eq (c : Chan) (l : List Urgent) :
    expiredProgram c l = expiredOf (l.filter (·.isProgramOf c)).getLast? := by
  induction l with
  | nil => rfl
  | cons e l ih =>
    unfold expiredProgram
    by_cases hl : l.any (·.isProgramOf c) = true
    · have hne : l.filter (·.isProgramOf c) ≠ [] := by
        obtain ⟨x, hx, hc⟩ := List.any_eq_true.mp hl
        exact List.ne_nil_of_mem (List.mem_filter.mpr ⟨hx, hc⟩)
      obtain ⟨y, ys, hy⟩ := List.exists_cons_of_ne_nil hne
      have hlast : ((e :: l).filter (·.isProgramOf c)).getLast? = (l.filter (·.isProgramOf c)).getLast? := by
        rw [List.filter_cons]
        split
        · rw [hy, List.getLast?_cons_cons]
        · rfl
      rw [if_pos hl, hlast, ih]
    · have hnil : l.filter (·.isProgramOf c) = [] := by
        rw [List.filter_eq_nil_iff]
        exact fun x hx hc => hl (List.any_eq_true.mpr ⟨x, hx, hc⟩)
      rw [if_neg hl, List.filter_cons, hnil]
      cases e with
      | program d p x => by_cases hd : d = c <;> cases x <;> simp [Urgent.isProgramOf, hd, expiredOf]
      | noteOn d k v i => rfl
      | noteOff d k => rfl
      | allNotesOff d => rfl

/-- What a panic offers for a record is what O44 says. -/
theorem panicOffer_eq (q : OutPort) (x : ChanRec) (c : Chan) :
    panicOffer q x c = x.panicProgram (expiredProgram c q.purged) := by
  unfold panicOffer ChanRec.panicProgram
  cases x.pending with
  | some y => rfl
  | none =>
    cases x.held with
    | some y => rfl
    | none =>
      rw [expiredProgram_eq]
      exact congrArg (fun f => expiredOf (q.purged.filter f).getLast?)
        (funext fun e => by cases e <;> rfl)

/-! ### What a panic leaves -/

/-- What a panic leaves of an output, field by field. -/
theorem panickedOut_spec (now : StageTime) (q : OutPort) (x : Chan → ChanRec) :
    (panickedOut now q x).enabled = q.enabled ∧ (panickedOut now q x).overflow = false ∧
      (panickedOut now q x).level = q.level ∧
      (panickedOut now q x).critical = (q.enabled && decide (q.level < (panickedOut now q x).urgent.length)) ∧
      (panickedOut now q x).urgent = keptUrgent q ++ (if q.enabled then
        allChans.map Urgent.allNotesOff ++ allChans.filterMap fun c =>
          (panicOffer q (x c) c).map fun p => .program c p false else []) ∧
      (panickedOut now q x).bulk =
        ((if q.bulkOnLine then q.bulk.take 1 else []).map fun b => { b with followUp := none }) ∧
      (∀ k last, q.transmit = .sending k last → (panickedOut now q x).transmit = .sending k last) ∧
      (q.transmit = .idle → (panickedOut now q x).transmit =
        if q.enabled then .sending .urgent (now + 960) else .idle) := by
  have hes : (allChans.map Urgent.allNotesOff ++ allChans.filterMap fun c =>
      (panicOffer q (x c) c).map fun p => .program c p false) = panicEvents q x := by
    simp only [panicOffer_eq, panicEvents]
  have hne : panicEvents q x ≠ [] := by simp [panicEvents, allChans]
  rw [hes]
  unfold panickedOut
  by_cases he : q.enabled = true
  · rw [if_pos he, appendedOut, if_neg hne, if_pos he]
    refine ⟨rfl, rfl, rfl, ?_, rfl, rfl, fun k last h => ?_, fun h => ?_⟩
    · simp [he, OutPort.purge]
    · dsimp only
      rw [if_neg (by simp [OutPort.purge, h])]
      exact h
    · dsimp only
      rw [if_pos (show q.purge.transmit = .idle from h), OutPort.purge_idle h, if_pos he]
      rfl
  · rw [Bool.not_eq_true] at he
    rw [if_neg (by simp [he]), if_neg (by simp [he])]
    exact ⟨rfl, rfl, rfl, by simp [he], (List.append_nil _).symm, rfl, fun k last h => h,
      fun h => h.trans (if_neg (by simp [he])).symm⟩

/-- What a panic leaves of a record, field by field. -/
theorem panickedRec_spec (enabled : Bool) (x : ChanRec) :
    (panickedRec enabled x).sounding = 0 ∧ (panickedRec enabled x).old = 0 ∧
      (panickedRec enabled x).panicOwed = false ∧ (panickedRec enabled x).redirect = none ∧
      (panickedRec enabled x).pending = none ∧
      (panickedRec enabled x).program = (match x.pending with
        | none => x.program
        | some y => some y.program.number) ∧
      (panickedRec enabled x).bank = (match x.pending with
        | none => x.bank
        | some y => match y.program.bank with
          | none => x.bank
          | some b => some b) ∧
      (panickedRec enabled x).held = (if enabled then none else match x.pending with
        | none => x.held
        | some y => some y.program) := by
  obtain ⟨program, bank, pending, sounding, old, redirect, owed, held⟩ := x
  cases pending with
  | none => exact ⟨rfl, rfl, rfl, rfl, rfl, rfl, rfl, rfl⟩
  | some y => exact ⟨rfl, rfl, rfl, rfl, rfl, rfl, rfl, rfl⟩

/-- The reports of a panic, by the urgent queues that it leaves. -/
theorem panicTells_foldl {s t : State} (h : ∀ o, t.rig.out o = panickedOut s.time (s.rig.out o) (s.rig.chan o))
    (d : Desk) :
    allOutputs.foldl (fun d o => panicTells (s.rig.out o) (s.rig.chan o) d o) d =
      allOutputs.foldl (fun d o =>
        if (s.rig.out o).enabled = true ∧ (s.rig.out o).level < (t.rig.out o).urgent.length then
          d.raise (.queueCritical o
            (max ((s.rig.out o).level + 1) ((keptUrgent (s.rig.out o)).length + 1)) (s.rig.out o).level)
        else d) d := by
  congr 1
  funext d o
  unfold panicTells
  refine if_congr (and_congr_right fun he => ?_) rfl rfl
  have hne : panicEvents (s.rig.out o) (s.rig.chan o) ≠ [] := by simp [panicEvents, allChans]
  rw [h, panickedOut, if_pos he, appendedOut, if_neg hne, List.length_append]

/-- A panic of a part `u` that has the instrument side of `s`, but for its desk, at the same time. -/
theorem State.panic_silences {s u : State} (hu : SameBut [.desk, .pins] s u) (cause : PanicCause) :
    SameBut [.desk, .outputs, .records, .table, .pedals] u (u.panic cause) ∧ Silenced s (u.panic cause) ∧
      (u.panic cause).desk = panicDesk s (u.panic cause) u.desk cause := by
  obtain ⟨ht, hp, hn, ho, hx, hd⟩ := u.rig.panic_spec u.moment cause
  have hrig : (u.panic cause).rig = u.rig.panic u.moment cause := by rw [State.panic, State.setRig_rig]
  have htime : u.time = s.time := hu .time (by decide)
  have hout : ∀ o, u.rig.out o = s.rig.out o := fun o => by
    rw [Rig.out, show u.rig.outputs = s.rig.outputs from hu .outputs (by decide)]
    rfl
  have hchan : ∀ o c, u.rig.chan o c = s.rig.chan o c := fun o c => by
    rw [Rig.chan, show u.rig.records = s.rig.records from hu .records (by decide)]
    rfl
  have tout : ∀ o, (u.panic cause).rig.out o = panickedOut s.time (s.rig.out o) (s.rig.chan o) := fun o => by
    rw [hrig, ho, hout, funext (hchan o), ← htime]
    rfl
  have tchan : ∀ o c, (u.panic cause).rig.chan o c = panickedRec (s.rig.out o).enabled (s.rig.chan o c) :=
    fun o c => by rw [hrig, hx, hout, hchan]
  refine ⟨fun b hb => ?_, ⟨by rw [hrig, ht], Rig.pedal_of_up (by rw [hrig, hp]), fun o c => ?_, fun o => ?_⟩, ?_⟩
  · cases b with
    | legs =>
      show (u.panic cause).rig.nextLeg = u.rig.nextLeg
      rw [hrig, hn]
    | mem | inputs | router | scene | tempo | click | time | pins | pending =>
      simp only [Block.same, State.panic, State.setRig_mem, State.setRig_inputs, State.setRig_router,
        State.setRig_scene, State.setRig_tempo, State.setRig_click, State.setRig_time, State.setRig_pins,
        State.setRig_pending]
    | _ => exact absurd (by decide) hb
  · rw [tchan]
    exact panickedRec_spec _ _
  · rw [tout]
    exact panickedOut_spec _ _ _
  · rw [State.desk, hrig, hd, panicDesk, ← panicTells_foldl tout, ← htime]
    simp only [hout, funext (hchan _)]
    rfl

/-! ### The commands (R73, R164) -/

/-- Settles O44: a panic behind the answer of its request, or behind the fall of its input. -/
theorem panicRule : Obligations.PanicRule := by
  refine ⟨fun s p r rest h => ?_, fun s hl => ⟨fun hlow => ?_, fun hhigh => ?_⟩⟩
  · obtain ⟨-, hq, -⟩ := id h
    have hexec : exec (.panic p) s = .next ((s.answer p .done []).panic (panicCauseOf p)) :=
      whenLive_serve_of_heads h (State.panicRequest p)
    have hanswer := s.answer_sameBut p .done []
    obtain ⟨hsame, hsilent, hdesk⟩ := State.panic_silences (hanswer.mono (by simp)) (panicCauseOf p)
    rw [s.answer_desk p r rest _ _ hq] at hdesk
    exact ⟨_, hexec, (hanswer.mono (by simp)).trans hsame, hsilent, by cases p <;> exact hdesk⟩
  · rw [show exec .panicLineEdge s = .next s.panicFall from whenLive_of_live _ hl, State.panicFall, if_pos hlow]
  · rw [show exec .panicLineEdge s = .next s.panicFall from whenLive_of_live _ hl, State.panicFall,
      if_neg (by simp [hhigh])]
    have hpins := s.setPins_sameBut { s.pins with panicLow := true }
    obtain ⟨hsame, hsilent, hdesk⟩ := State.panic_silences (hpins.mono (by simp)) .line
    exact ⟨_, rfl, (hpins.mono (by simp)).trans (hsame.mono (by simp)), hsilent, hsame .pins (by decide), hdesk⟩

end Sys2Proof.Machine
end

section
/-! The offers to an urgent queue and what a discard does in the table, as O45 states them: room, the full queue and
its refusals, and the settlement of a discarded note-on (R31 to R34, R36, R39, R65, R86). -/
namespace Sys2Proof.Machine

/-! ### The overflow flag and its reports (R36) -/

theorem Rig.raiseOverflow_eq (r : Rig) (o : Output) :
    r.raiseOverflow o = (r.setOut o { r.out o with overflow := true }).setDesk
      (if (r.out o).overflow then r.desk else r.desk.raise (.queueOverflow o (r.out o).urgent.length)) := by
  have same : r.setOut o (r.out o) = r := by simp [Rig.setOut, Rig.out]
  unfold Rig.raiseOverflow
  cases h : (r.out o).overflow
  · rfl
  · rw [if_pos rfl, if_pos rfl, ← h]
    exact same.symm

/-- The flag, behind reports that have left the desk `d`. -/
theorem Rig.raiseOverflow_setDesk (r : Rig) (d : Desk) (o : Output) :
    (r.setDesk d).raiseOverflow o = (r.setOut o { r.out o with overflow := true }).setDesk
      (if (r.out o).overflow then d else d.raise (.queueOverflow o (r.out o).urgent.length)) := by
  rw [Rig.raiseOverflow_eq]
  rfl

/-- A discarded note-on is reported. -/
theorem Rig.reportDiscard_eq (r : Rig) (m : Moment) (o : Output) (c : Chan) :
    r.reportDiscard m o c = (r.setOut o { r.out o with overflow := true }).setDesk
      (discardedDesk r.desk m.now o c (r.out o).overflow (r.out o).urgent.length) := by
  simp only [Rig.reportDiscard, Rig.report, Rig.record, Rig.setDesk_desk, discardedDesk]
  exact r.raiseOverflow_setDesk _ o

/-- A channel is owed an ALL-NOTES-OFF, and that is reported. -/
theorem Rig.owe_eq (r : Rig) (m : Moment) (o : Output) (c : Chan) :
    r.owe m o c = ((r.setChan o c { r.chan o c with panicOwed := true }).setOut o
        { r.out o with overflow := true }).setDesk
      (owedDesk r.desk m.now o c (r.out o).overflow (r.out o).urgent.length) := by
  simp only [Rig.owe, Rig.report, Rig.record, Rig.setDesk_desk, owedDesk]
  exact (r.setChan o c { r.chan o c with panicOwed := true }).raiseOverflow_setDesk _ o

/-! ### The oldest note-on (R32) -/

/-- The first note-on of a list is taken, and the rest keeps its order. -/
theorem takeNoteOn_append {before later : List Urgent} (h : ∀ e ∈ before, e.isNoteOn = false) (c : Chan)
    (k v : Seven) (leg : Nat) :
    takeNoteOn (before ++ .noteOn c k v leg :: later) = some (c, leg, before ++ later) := by
  induction before with
  | nil => rfl
  | cons e before ih =>
    have hrest := ih fun x hx => h x (List.mem_cons_of_mem _ hx)
    have he := h e List.mem_cons_self
    cases e with
    | noteOn d x y i => exact absurd he (by simp [Urgent.isNoteOn])
    | noteOff d x => simp [takeNoteOn, hrest]
    | program d p x => simp [takeNoteOn, hrest]
    | allNotesOff d => simp [takeNoteOn, hrest]

theorem takeNoteOn_none {l : List Urgent} (h : ∀ e ∈ l, e.isNoteOn = false) : takeNoteOn l = none := by
  rw [Option.eq_none_iff_forall_ne_some]
  rintro ⟨c, leg, rest⟩ hx
  obtain ⟨before, k, v, later, rfl, -, -⟩ := takeNoteOn_some hx
  have := h (.noteOn c k v leg) (by simp)
  simp [Urgent.isNoteOn] at this

/-- The note-on that O45 names is the one that is discarded. -/
theorem OldestNoteOn.discardable {q : OutPort} {before later : List Urgent} {d : Chan} {leg : Nat}
    (h : OldestNoteOn q before d leg later) : q.discardable = some (d, leg, before ++ later) := by
  obtain ⟨⟨k, v, hu⟩, hb⟩ := h
  unfold OutPort.discardable
  split at hb
  · rename_i hon
    obtain ⟨hne, hb⟩ := hb
    obtain ⟨e, before, rfl⟩ := List.exists_cons_of_ne_nil hne
    rw [if_pos hon, hu]
    simp only [List.cons_append, List.drop_succ_cons, List.drop_zero] at hb ⊢
    rw [takeNoteOn_append hb]
    rfl
  · rename_i hon
    rw [if_neg hon, hu, takeNoteOn_append hb]

/-- No note-on is left to discard. -/
theorem OutPort.discardable_none {q : OutPort}
    (h : ∀ x ∈ (if q.urgentOnLine then q.urgent.drop 1 else q.urgent), x.isNoteOn = false) :
    q.discardable = none := by
  unfold OutPort.discardable
  split at h
  · rename_i hon
    rw [if_pos hon, takeNoteOn_none h]
    rfl
  · rename_i hon
    rw [if_neg hon, takeNoteOn_none h]

theorem OutPort.discardable_rest {q : OutPort} {c : Chan} {leg : Nat} {rest : List Urgent}
    (h : q.discardable = some (c, leg, rest)) : rest.length + 1 = q.urgent.length :=
  q.discardable_length c leg rest h

/-! ### The full queue (R32 to R34) -/

/-- An event takes the place of the oldest note-on: the instrument side, block by block. -/
theorem Rig.replace_spec (r : Rig) (m : Moment) (o : Output) (e : Urgent) (refuse : Rig → Rig) {d : Chan}
    {leg : Nat} {rest : List Urgent} (h : (r.out o).discardable = some (d, leg, rest)) :
    (r.replace m o e refuse).appended = true ∧ (r.replace m o e refuse).discarded = some leg ∧
      r.sameNotes (r.replace m o e refuse).rig ∧
      (∀ p, (r.replace m o e refuse).rig.out p = if p = o then { r.out o with
        urgent := rest ++ [e]
        overflow := true
        transmit := if (r.out o).transmit = .idle then nextTransmit m.now (rest ++ [e]) (r.out o).bulk
          else (r.out o).transmit } else r.out p) ∧
      (r.replace m o e refuse).rig.desk =
        (if (r.out o).transmit = .idle ∧ (rest ++ [e]).head?.map Urgent.isNoteOn = some true then
          (discardedDesk r.desk m.now o d (r.out o).overflow (r.out o).urgent.length).report .legsSent o.val
        else discardedDesk r.desk m.now o d (r.out o).overflow (r.out o).urgent.length) ∧
      ∀ p c, (r.replace m o e refuse).rig.chan p c =
        if p = o ∧ e.isProgramOf c = true then { r.chan p c with held := none } else r.chan p c := by
  have hlen := OutPort.discardable_rest h
  have hr : r.replace m o e refuse =
      ⟨(((r.setOut o { r.out o with urgent := rest ++ [e] }).dropHeld o e).reportDiscard m o d).startLine m o,
        true, some leg⟩ := by
    rw [Rig.replace, h]
  rw [hr, Rig.startLine_eq, Rig.reportDiscard_eq]
  have hdrop : ∀ t : Rig, (t.dropHeld o e).desk = t.desk ∧ ∀ p, (t.dropHeld o e).out p = t.out p := fun t => by
    cases e <;> exact ⟨rfl, fun p => rfl⟩
  obtain ⟨hdesk, hout⟩ := hdrop (r.setOut o { r.out o with urgent := rest ++ [e] })
  have hlen' : (rest ++ [e]).length = (r.out o).urgent.length := by simpa using hlen
  refine ⟨rfl, rfl, ?_, fun p => ?_, ?_, fun p c => ?_⟩
  · exact Rig.sameNotes_trans ⟨rfl, rfl, rfl⟩ (Rig.dropHeld_notes _ o e)
  · simp only [Rig.out_setDesk, Rig.out_setOut, hout, if_true]
    split <;> rfl
  · simp only [Rig.out_setDesk, Rig.out_setOut, hout, if_true, Rig.setDesk_desk, hdesk, hlen']
    rfl
  · simp only [Rig.chan_setDesk, Rig.chan_setOut]
    cases e with
    | program x y z =>
      rw [Rig.dropHeld, Rig.chan_setChan]
      simp only [Urgent.isProgramOf, decide_eq_true_eq, Rig.chan_setOut]
      by_cases hp : p = o ∧ c = x
      · obtain ⟨rfl, rfl⟩ := hp
        simp
      · rw [if_neg hp, if_neg (fun h => hp ⟨h.1, h.2.symm⟩)]
    | noteOn x k v l => simp [Rig.dropHeld, Urgent.isProgramOf]
    | noteOff x k => simp [Rig.dropHeld, Urgent.isProgramOf]
    | allNotesOff x => simp [Rig.dropHeld, Urgent.isProgramOf]

theorem Rig.replace_none (r : Rig) (m : Moment) (o : Output) (e : Urgent) (refuse : Rig → Rig)
    (h : (r.out o).discardable = none) : r.replace m o e refuse = ⟨refuse r, false, none⟩ := by
  rw [Rig.replace, h]

/-! ### Offers (R32 to R34, R39) -/

/-- What a full queue with no note-on to discard makes of an event. -/
def Rig.refuse (r : Rig) (m : Moment) (o : Output) : Urgent → Rig
  | .noteOn c _ _ _ => r.reportDiscard m o c
  | .noteOff c _ => r.owe m o c
  | .allNotesOff c => if (r.chan o c).panicOwed then r else r.owe m o c
  | .program c p _ => r.hold o c p

/-- An offer to a disabled output. -/
theorem offerEvent_disabled {r : Rig} {o : Output} (h : (r.out o).enabled = false) (m : Moment) (e : Urgent) :
    offerEvent r m o e = ⟨match e with
      | .program c p _ => r.setChan o c { r.chan o c with held := some p }
      | _ => r, false, none⟩ := by
  cases e <;>
    simp [offerEvent, Rig.offerNoteOn, Rig.offerNoteOff, Rig.offerAllNotesOff, Rig.offerProgram, h, Rig.hold]

/-- An offer to an output with room. -/
theorem offerEvent_room {r : Rig} {o : Output} {e : Urgent} (h : (r.out o).enabled = true)
    (hroom : ¬fullFor (r.out o) e) (he : ∀ c p, e ≠ .program c p true) (m : Moment) :
    offerEvent r m o e = ⟨appendedRig m.now r o e, true, none⟩ := by
  simp only [fullFor, not_or, not_and, Nat.not_le] at hroom
  obtain ⟨hu, hn⟩ := hroom
  rw [← Rig.append_eq]
  cases e with
  | noteOn c k v l =>
    have hn := hn rfl
    simp [offerEvent, Rig.offerNoteOn, h, hu, hn, Config.urgentNoteOns, Config.urgentSize]
  | noteOff c k => simp [offerEvent, Rig.offerNoteOff, h, hu, Config.urgentSize]
  | allNotesOff c => simp [offerEvent, Rig.offerAllNotesOff, h, hu, Config.urgentSize]
  | program c p x =>
    cases x with
    | true => exact absurd rfl (he c p)
    | false => simp [offerEvent, Rig.offerProgram, h, hu, Config.urgentSize]

/-- An offer to a full output. -/
theorem offerEvent_full {r : Rig} {o : Output} {e : Urgent} (h : (r.out o).enabled = true)
    (hfull : fullFor (r.out o) e) (he : ∀ c p, e ≠ .program c p true) (m : Moment) :
    offerEvent r m o e = r.replace m o e fun r => r.refuse m o e := by
  cases e with
  | noteOn c k v l =>
    have hno : ¬((r.out o).noteOns < 32 ∧ (r.out o).urgent.length < 48) := by
      rintro ⟨h1, h2⟩
      rcases hfull with hu | ⟨-, hn⟩ <;> omega
    simp [offerEvent, Rig.offerNoteOn, h, hno, Config.urgentNoteOns, Config.urgentSize, Rig.refuse]
  | noteOff c k =>
    have hu := hfull.resolve_right (by simp [Urgent.isNoteOn])
    simp [offerEvent, Rig.offerNoteOff, h, Nat.not_lt.mpr hu, Config.urgentSize, Rig.refuse]
  | allNotesOff c =>
    have hu := hfull.resolve_right (by simp [Urgent.isNoteOn])
    simp [offerEvent, Rig.offerAllNotesOff, h, Nat.not_lt.mpr hu, Config.urgentSize, Rig.refuse]
  | program c p x =>
    have hu := hfull.resolve_right (by simp [Urgent.isNoteOn])
    cases x with
    | true => exact absurd rfl (he c p)
    | false => simp [offerEvent, Rig.offerProgram, h, Nat.not_lt.mpr hu, Config.urgentSize, Rig.refuse]

theorem queueOffers : QueueOffers := by
  intro r m o e he
  refine ⟨fun hdis => ?_, fun hen hroom => ?_, fun hen hfull => ⟨fun before d leg later hold => ?_, fun hnone => ?_⟩⟩
  · rw [offerEvent_disabled hdis]
    exact ⟨rfl, rfl, rfl⟩
  · rw [offerEvent_room hen hroom he]
    exact ⟨rfl, rfl, rfl⟩
  · rw [offerEvent_full hen hfull he]
    obtain ⟨ha, hd, -, ho, hdesk, hc⟩ := r.replace_spec m o e (fun r => r.refuse m o e) (OldestNoteOn.discardable hold)
    exact ⟨ha, hd, (ho o).trans (if_pos rfl), hdesk, hc⟩
  · rw [offerEvent_full hen hfull he, r.replace_none m o e _ (OutPort.discardable_none hnone)]
    refine ⟨rfl, rfl, ?_⟩
    cases e with
    | noteOn c k v l =>
      dsimp only [Rig.refuse]
      rw [Rig.reportDiscard_eq]
      exact ⟨by simp [Rig.out_setOut], rfl, rfl⟩
    | noteOff c k =>
      dsimp only [Rig.refuse]
      rw [Rig.owe_eq]
      exact ⟨by simp [Rig.out_setOut], by simp [Rig.chan_setChan], rfl⟩
    | allNotesOff c =>
      dsimp only [Rig.refuse]
      split
      · rfl
      · rw [Rig.owe_eq]
        exact ⟨by simp [Rig.out_setOut], by simp [Rig.chan_setChan], rfl⟩
    | program c p x => rfl

/-! ### Discards in the table (R65, R86) -/

theorem Rig.settleDiscard_none (fuel : Nat) (m : Moment) (r : Rig) : r.settleDiscard fuel m none = r := by
  cases fuel <;> rfl

/-- A leg that has ended is left as it is. -/
theorem Rig.settleDiscard_ended {r : Rig} {id : Nat} (h : findLeg r.table id = none) (m : Moment) (fuel : Nat) :
    r.settleDiscard (fuel + 1) m (some id) = r := by
  simp only [Rig.settleDiscard, h]

/-- An unsent leg is left as it is. -/
theorem Rig.settleDiscard_unsent {r : Rig} {id : Nat} {g : Generation} {l : Leg}
    (h : findLeg r.table id = some (g, l)) (hl : l.sent = false) (m : Moment) (fuel : Nat) :
    r.settleDiscard (fuel + 1) m (some id) = r := by
  simp [Rig.settleDiscard, h, hl]

/-- A sent leg becomes unsent and leaves the counts of its record. -/
theorem Rig.settleDiscard_sent {r : Rig} {id : Nat} {g : Generation} {l : Leg}
    (h : findLeg r.table id = some (g, l)) (hl : l.sent = true) (m : Moment) (fuel : Nat) :
    r.settleDiscard (fuel + 1) m (some id) =
      let old := (r.chan l.output l.channel).isOld m.generation g
      let u := (r.setTable (markLeg r.table id false)).setChan l.output l.channel { r.chan l.output l.channel with
        sounding := (r.chan l.output l.channel).sounding - 1
        old := if old then (r.chan l.output l.channel).old - 1 else (r.chan l.output l.channel).old }
      if old = true ∧ (r.chan l.output l.channel).old ≤ 1 then
        (u.release m l.output l.channel).1.settleDiscard fuel m (u.release m l.output l.channel).2
      else u := by
  simp only [Rig.settleDiscard, h, hl, if_true, Rig.lowerCounts, Bool.and_eq_true, decide_eq_true_eq,
    Rig.chan_setTable, Nat.sub_eq_zero_iff_le]

/-- A pending program is released on an output that is disabled or has room. -/
theorem Rig.release_room {r : Rig} {o : Output} {c : Chan} {p : Pending} (hp : (r.chan o c).pending = some p)
    (h : (r.out o).enabled = false ∨ (r.out o).urgent.length < 48) (m : Moment) :
    r.release m o c = (releasedRig m.now r o c p.program, none) := by
  have hmade : ∀ x : ChanRec, (x.setCurrent p.program).clearPending = { madeCurrent p.program x with pending := none } :=
    fun x => rfl
  have hoffer : r.offerProgram m o c p.program = offerEvent r m o (.program c p.program false) := rfl
  cases he : (r.out o).enabled
  · simp only [Rig.release, hp, hmade, hoffer, offerEvent_disabled he, releasedRig, he, Bool.false_eq_true, if_false]
  · have hu := h.resolve_left (by simp [he])
    have hroom : ¬fullFor (r.out o) (.program c p.program false) := by simp [fullFor, Urgent.isNoteOn, hu]
    simp only [Rig.release, hp, hmade, hoffer, offerEvent_room he hroom (by simp), releasedRig, he, if_true]

theorem discardSettles : DiscardSettles := by
  refine fun r m id => ⟨fun h => Rig.settleDiscard_ended h m 96, fun g l h => ⟨fun hl =>
    Rig.settleDiscard_unsent h hl m 96, ?_⟩⟩
  rintro hl here isOld u rfl rfl rfl
  refine ⟨fun hstay => ?_, fun p hold hlast hp hroom => ?_⟩
  · rw [show discardFuel = 96 + 1 from rfl, Rig.settleDiscard_sent h hl]
    refine if_neg ?_
    rintro ⟨hold, hone⟩
    rcases hstay with hfalse | hmore
    · simp [hfalse] at hold
    · omega
  · rw [show discardFuel = 96 + 1 from rfl, Rig.settleDiscard_sent h hl]
    dsimp only
    rw [if_pos ⟨hold, hlast⟩, Rig.release_room (p := p) ?_ ?_, Rig.settleDiscard_none]
    · simpa [Rig.chan_setChan] using hp
    · exact hroom

end Sys2Proof.Machine
end

section
/-! Settlement: what an output owes, offered event by event (R35), and OUTPUT ENABLE (O42). -/
namespace Sys2Proof.Machine

/-! ### The events that a record owes (R35) -/

/-- What settlement offers for channel `c`: the ALL-NOTES-OFF of the mark, and then the held program. -/
def owedOn (x : ChanRec) (c : Chan) : List Urgent :=
  (if x.panicOwed = true then [Urgent.allNotesOff c] else []) ++
    match x.held with
    | none => []
    | some p => [.program c p false]

theorem owedEvents_eq (r : Rig) (o : Output) :
    owedEvents r o = allChans.flatMap fun c => owedOn (r.chan o c) c := rfl

/-- An event that settlement offers: an ALL-NOTES-OFF, or a program that no expiry released. -/
inductive Urgent.Owed : Urgent → Prop
  | off (c : Chan) : Urgent.Owed (.allNotesOff c)
  | program (c : Chan) (p : Program) : Urgent.Owed (.program c p false)

theorem owedOn_owed {x : ChanRec} {c : Chan} {e : Urgent} (h : e ∈ owedOn x c) : e.Owed := by
  unfold owedOn at h
  rcases List.mem_append.mp h with h | h
  · split at h
    · rw [List.mem_singleton.mp h]
      exact .off c
    · simp at h
  · split at h
    · simp at h
    · rw [List.mem_singleton.mp h]
      exact .program c _

theorem owedEvents_owed {r : Rig} {o : Output} {e : Urgent} (h : e ∈ owedEvents r o) : e.Owed := by
  obtain ⟨c, -, hc⟩ := List.mem_flatMap.mp (owedEvents_eq r o ▸ h)
  exact owedOn_owed hc

theorem Urgent.Owed.quiet {e : Urgent} (h : e.Owed) : e.isNoteOn = false := by cases h <;> rfl

theorem Urgent.Owed.plain {e : Urgent} (h : e.Owed) : ∀ c p, e ≠ .program c p true := by
  cases h <;> simp

theorem owedOn_length (x : ChanRec) (c : Chan) : (owedOn x c).length ≤ 2 := by
  unfold owedOn
  split <;> split <;> simp

theorem owedEvents_length (r : Rig) (o : Output) : (owedEvents r o).length ≤ 32 := by
  have h : ∀ cs : List Chan, (cs.flatMap fun c => owedOn (r.chan o c) c).length ≤ 2 * cs.length := by
    intro cs
    induction cs with
    | nil => simp
    | cons c cs ih =>
      have := owedOn_length (r.chan o c) c
      simp only [List.flatMap_cons, List.length_append, List.length_cons]
      omega
  exact h allChans

/-- A record once the events `es` have been settled for channel `c`. -/
def settledRec (es : List Urgent) (c : Chan) (x : ChanRec) : ChanRec :=
  { x with
    panicOwed := x.panicOwed && !es.contains (.allNotesOff c)
    held := if es.any (·.isProgramOf c) = true then none else x.held }

theorem settledRec_nil (c : Chan) (x : ChanRec) : settledRec [] c x = x := by
  simp [settledRec]

theorem settledRec_append (es fs : List Urgent) (c : Chan) (x : ChanRec) :
    settledRec fs c (settledRec es c x) = settledRec (es ++ fs) c x := by
  have hany : (es ++ fs).any (·.isProgramOf c) = (es.any (·.isProgramOf c) || fs.any (·.isProgramOf c)) :=
    List.any_append
  have hoff : (x.panicOwed && !es.contains (.allNotesOff c) && !fs.contains (.allNotesOff c)) =
      (x.panicOwed && !(es ++ fs).contains (.allNotesOff c)) := by
    rw [List.contains_append, Bool.not_or, Bool.and_assoc]
  unfold settledRec
  rw [hany]
  dsimp only
  rw [hoff]
  cases es.any (·.isProgramOf c) <;> cases fs.any (·.isProgramOf c) <;> rfl

/-- What one channel is owed names no other. -/
theorem owedOn_other {c d : Chan} (h : d ≠ c) (x : ChanRec) :
    (owedOn x c).contains (.allNotesOff d) = false ∧ (owedOn x c).any (·.isProgramOf d) = false := by
  unfold owedOn
  constructor
  · cases x.panicOwed <;> cases x.held <;> simp [h]
  · cases x.panicOwed <;> cases x.held <;> simp [Urgent.isProgramOf, h.symm]

theorem settledRec_owedOn_other {c d : Chan} (h : d ≠ c) (x y : ChanRec) : settledRec (owedOn x c) d y = y := by
  obtain ⟨hoff, hprog⟩ := owedOn_other h x
  rw [settledRec, hoff, hprog]
  simp

/-- Settling what a record owes clears its mark and its held program. -/
theorem settledRec_owedEvents (r : Rig) (o : Output) (c : Chan) :
    settledRec (owedEvents r o) c (r.chan o c) = { r.chan o c with panicOwed := false, held := none } := by
  have hmem : ∀ e ∈ owedOn (r.chan o c) c, e ∈ owedEvents r o := fun e he =>
    List.mem_flatMap.mpr ⟨c, mem_allChans c, he⟩
  have hoff : ((r.chan o c).panicOwed && !(owedEvents r o).contains (.allNotesOff c)) = false := by
    cases hp : (r.chan o c).panicOwed
    · rfl
    · have := hmem (.allNotesOff c) (by simp [owedOn, hp])
      simp [this]
  have hheld : (if (owedEvents r o).any (·.isProgramOf c) = true then none else (r.chan o c).held) = none := by
    cases hh : (r.chan o c).held with
    | none => split <;> rfl
    | some p =>
      have := hmem (.program c p false) (by simp [owedOn, hh])
      exact if_pos (List.any_eq_true.mpr ⟨_, this, by simp [Urgent.isProgramOf]⟩)
  rw [settledRec, hoff, hheld]

/-! ### One event offered in settlement -/

/-- Settlement offers one event; a mark clears only when its event is appended. -/
def Rig.settleOne (m : Moment) (o : Output) (r : Rig) : Urgent → Rig
  | .allNotesOff c =>
    (if (r.offerAllNotesOff m o c).appended then
        (r.offerAllNotesOff m o c).rig.setChan o c
          { (r.offerAllNotesOff m o c).rig.chan o c with panicOwed := false }
      else (r.offerAllNotesOff m o c).rig).settleDiscard discardFuel m (r.offerAllNotesOff m o c).discarded
  | .program c p _ => (r.offerProgram m o c p).settled m
  | _ => r

/-- Settlement of a channel offers what its record owes, where the held program outlives the ALL-NOTES-OFF. -/
theorem Rig.settleChan_eq (r : Rig) (m : Moment) (o : Output) (c : Chan)
    (h : (r.chan o c).panicOwed = true →
      ((r.settleOne m o (.allNotesOff c)).chan o c).held = (r.chan o c).held) :
    r.settleChan m o c = (owedOn (r.chan o c) c).foldl (fun r e => r.settleOne m o e) r := by
  have program : ∀ t : Rig, (t.chan o c).held = (r.chan o c).held →
      (match (t.chan o c).held with
        | none => t
        | some p => (t.offerProgram m o c p).settled m) =
      (match (r.chan o c).held with
        | none => []
        | some p => [Urgent.program c p false]).foldl (fun r e => r.settleOne m o e) t := fun t ht => by
    rw [ht]
    cases (r.chan o c).held <;> rfl
  rw [owedOn, List.foldl_append]
  by_cases hp : (r.chan o c).panicOwed = true
  · rw [if_pos hp, Rig.settleChan]
    simp only [hp, if_true]
    exact program (r.settleOne m o (.allNotesOff c)) (h hp)
  · rw [if_neg hp, Rig.settleChan]
    simp only [hp, Bool.false_eq_true, if_false]
    exact program r rfl

/-- One event of settlement with room for it, block by block. -/
theorem Rig.settleOne_room {r : Rig} {o : Output} {e : Urgent} (he : e.Owed) (hen : (r.out o).enabled = true)
    (hu : (r.out o).urgent.length < 48) (m : Moment) :
    r.sameNotes (r.settleOne m o e) ∧ (r.settleOne m o e).desk = (r.append m o e).desk ∧
      (∀ p, (r.settleOne m o e).out p = (r.append m o e).out p) ∧
      ∀ p c, (r.settleOne m o e).chan p c =
        if p = o then settledRec [e] c (r.chan p c) else r.chan p c := by
  have hroom : ¬fullFor (r.out o) e := by simp [fullFor, he.quiet, hu]
  have hoffer := offerEvent_room hen hroom he.plain m
  rw [← Rig.append_eq] at hoffer
  cases he with
  | off c =>
    have hoff : r.offerAllNotesOff m o c = ⟨r.append m o (.allNotesOff c), true, none⟩ := hoffer
    have hone : r.settleOne m o (.allNotesOff c) = (r.append m o (.allNotesOff c)).setChan o c
        { (r.append m o (.allNotesOff c)).chan o c with panicOwed := false } := by
      simp only [Rig.settleOne, hoff, if_true, Rig.settleDiscard_none]
    rw [hone]
    refine ⟨r.append_notes m o _, rfl, fun p => rfl, fun p d => ?_⟩
    rw [Rig.chan_setChan, Rig.append_eq, appendedRig_chan, appendedRig_chan]
    by_cases hp : p = o
    · subst hp
      by_cases hd : d = c
      · subst hd
        simp [settledRec, Urgent.isProgramOf]
      · simp [settledRec, Urgent.isProgramOf, hd]
    · simp [hp, Urgent.isProgramOf]
  | program c x =>
    have hoff : r.offerProgram m o c x = ⟨r.append m o (.program c x false), true, none⟩ := hoffer
    have hone : r.settleOne m o (.program c x false) = r.append m o (.program c x false) := by
      simp only [Rig.settleOne, hoff, Offer.settled, Rig.settleDiscard_none]
    rw [hone]
    refine ⟨r.append_notes m o _, rfl, fun p => rfl, fun p d => ?_⟩
    rw [Rig.append_eq, appendedRig_chan]
    by_cases hp : p = o <;> by_cases hd : c = d <;> simp [settledRec, Urgent.isProgramOf, hp, hd]

/-! ### Appends with room, whatever the records -/

/-- What appends leave of an output and its desk rests on that output and on the desk alone. -/
theorem Rig.appendAll_congr {r t : Rig} {o : Output} (hd : t.desk = r.desk) (ho : t.out o = r.out o) (m : Moment)
    (es : List Urgent) :
    (t.appendAll m o es).desk = (r.appendAll m o es).desk ∧
      (t.appendAll m o es).out o = (r.appendAll m o es).out o := by
  induction es generalizing r t with
  | nil => exact ⟨hd, ho⟩
  | cons e es ih =>
    rw [Rig.appendAll_cons, Rig.appendAll_cons]
    refine ih ?_ ?_
    · rw [Rig.append_eq, Rig.append_eq]
      show appendedDesk t.desk o (t.out o) e = appendedDesk r.desk o (r.out o) e
      rw [hd, ho]
    · rw [Rig.append_eq, Rig.append_eq, appendedRig_out, appendedRig_out, ho]

theorem appendedOut_length (now : StageTime) (q : OutPort) (es : List Urgent) :
    (appendedOut now q es).urgent.length = q.urgent.length + es.length := by
  unfold appendedOut
  split
  · rename_i h
    simp [h]
  · simp

theorem appendedOut_enabled (now : StageTime) (q : OutPort) (es : List Urgent) :
    (appendedOut now q es).enabled = q.enabled := by
  unfold appendedOut
  split <;> rfl

/-- The instrument side once an output has settled the events `es` with room for all of them. -/
structure Rig.SettlesRoom (m : Moment) (o : Output) (es : List Urgent) (r t : Rig) : Prop where
  notes : r.sameNotes t
  desk : t.desk = (r.appendAll m o es).desk
  out : ∀ p, t.out p = if p = o then appendedOut m.now (r.out o) es else r.out p
  chan : ∀ p c, t.chan p c = if p = o then settledRec es c (r.chan p c) else r.chan p c

theorem Rig.SettlesRoom.nil (m : Moment) (o : Output) (r : Rig) : Rig.SettlesRoom m o [] r r := by
  refine ⟨r.sameNotes_refl, rfl, fun p => ?_, fun p c => ?_⟩
  · rw [appendedOut_nil]
    split
    · rename_i h
      rw [h]
    · rfl
  · rw [settledRec_nil, ite_self]

theorem Rig.SettlesRoom.trans {m : Moment} {o : Output} {es fs : List Urgent} {r t u : Rig}
    (h : Rig.SettlesRoom m o es r t) (k : Rig.SettlesRoom m o fs t u) : Rig.SettlesRoom m o (es ++ fs) r u := by
  have ho : t.out o = (r.appendAll m o es).out o := by
    rw [h.out, if_pos rfl, Rig.appendAll_out, if_pos rfl]
  refine ⟨Rig.sameNotes_trans h.notes k.notes, ?_, fun p => ?_, fun p c => ?_⟩
  · rw [k.desk, Rig.appendAll_append]
    exact (Rig.appendAll_congr h.desk ho m fs).1
  · rw [k.out, h.out, h.out, if_pos rfl, appendedOut_append]
    split <;> rfl
  · rw [k.chan, h.chan]
    split
    · exact settledRec_append es fs c _
    · rfl

/-- Events are settled one after another with room for all of them. -/
theorem Rig.settleAll_room {r : Rig} {o : Output} {es : List Urgent} (he : ∀ e ∈ es, e.Owed)
    (hen : (r.out o).enabled = true) (hu : (r.out o).urgent.length + es.length ≤ 48) (m : Moment) :
    Rig.SettlesRoom m o es r (es.foldl (fun r e => r.settleOne m o e) r) := by
  induction es generalizing r with
  | nil => exact .nil m o r
  | cons e es ih =>
    rw [List.length_cons] at hu
    obtain ⟨hn, hd, ho, hx⟩ := Rig.settleOne_room (he e List.mem_cons_self) hen (by omega) m
    have first : Rig.SettlesRoom m o [e] r (r.settleOne m o e) := by
      refine ⟨hn, hd, fun p => ?_, hx⟩
      rw [ho, Rig.append_eq, appendedRig_out]
    have hq : (r.settleOne m o e).out o = appendedOut m.now (r.out o) [e] := by rw [first.out, if_pos rfl]
    refine first.trans (ih (fun x hx => he x (List.mem_cons_of_mem _ hx)) ?_ ?_)
    · rw [hq, appendedOut_enabled, hen]
    · rw [hq, appendedOut_length, List.length_singleton]
      omega

/-- Settlement with room for all that is owed. -/
theorem Rig.settle_room {r : Rig} {o : Output} (hen : (r.out o).enabled = true)
    (hu : (r.out o).urgent.length + (owedEvents r o).length ≤ 48) (m : Moment) :
    Rig.SettlesRoom m o (owedEvents r o) r (r.settle m o) := by
  have chans : ∀ cs : List Chan, cs.Nodup → ∀ r : Rig, (r.out o).enabled = true →
      (r.out o).urgent.length + (cs.flatMap fun c => owedOn (r.chan o c) c).length ≤ 48 →
      Rig.SettlesRoom m o (cs.flatMap fun c => owedOn (r.chan o c) c) r
        (cs.foldl (fun r c => r.settleChan m o c) r) := by
    intro cs
    induction cs with
    | nil => exact fun _ r _ _ => .nil m o r
    | cons c cs ih =>
      intro hnd r hen hu
      obtain ⟨hc, hcs⟩ := List.nodup_cons.mp hnd
      rw [List.flatMap_cons, List.length_append] at hu
      have howed : ∀ e ∈ owedOn (r.chan o c) c, e.Owed := fun e he => owedOn_owed he
      have hone : r.settleChan m o c = (owedOn (r.chan o c) c).foldl (fun r e => r.settleOne m o e) r := by
        refine r.settleChan_eq m o c fun hp => ?_
        have hlen : 0 < (owedOn (r.chan o c) c).length := by simp [owedOn, hp]
        obtain ⟨-, -, -, hx⟩ := Rig.settleOne_room (.off c) hen (by omega) m
        rw [hx, if_pos rfl]
        simp [settledRec, Urgent.isProgramOf]
      have first := Rig.settleAll_room howed hen (by omega) m
      rw [← hone] at first
      have hq : (r.settleChan m o c).out o = appendedOut m.now (r.out o) (owedOn (r.chan o c) c) := by
        rw [first.out, if_pos rfl]
      have hother : ∀ d ∈ cs, owedOn ((r.settleChan m o c).chan o d) d = owedOn (r.chan o d) d := by
        intro d hd
        have hdc : d ≠ c := fun h => hc (h ▸ hd)
        rw [first.chan, if_pos rfl, settledRec_owedOn_other hdc]
      have hrest : (cs.flatMap fun d => owedOn ((r.settleChan m o c).chan o d) d) =
          cs.flatMap fun d => owedOn (r.chan o d) d := by
        rw [List.flatMap_def, List.flatMap_def, List.map_congr_left hother]
      have := ih hcs (r.settleChan m o c) (by rw [hq, appendedOut_enabled, hen])
        (by rw [hq, appendedOut_length, hrest]; omega)
      rw [hrest] at this
      exact first.trans this
  exact chans allChans allChans_nodup r hen hu

/-! ### Disabling (R39) -/

/-- The program of an urgent event for channel `c`. -/
def Urgent.programFor (c : Chan) : Urgent → Option Program
  | .program d p _ => if d = c then some p else none
  | _ => none

theorem Rig.holdPurged_chan (r : Rig) (o p : Output) (c : Chan) (e : Urgent) :
    (r.holdPurged o e).chan p c =
      if p = o then { r.chan p c with held := (r.chan p c).held.or (e.programFor c) } else r.chan p c := by
  cases e with
  | program d x z =>
    rw [Rig.holdPurged]
    by_cases hp : p = o
    · subst hp
      by_cases hd : d = c
      · subst hd
        cases hh : (r.chan p d).held with
        | none => simp [Urgent.programFor, Rig.hold, Rig.chan_setChan]
        | some y =>
          rw [if_pos rfl, Option.isSome_some, if_pos rfl, Option.some_or, ← hh]

      · have : ¬(c = d) := fun h => hd h.symm
        split <;> simp [Urgent.programFor, Rig.hold, Rig.chan_setChan, hd, this]
    · split <;> simp [Rig.hold, Rig.chan_setChan, hp]
  | noteOn d k v l => simp [Rig.holdPurged, Urgent.programFor]
  | noteOff d k => simp [Rig.holdPurged, Urgent.programFor]
  | allNotesOff d => simp [Rig.holdPurged, Urgent.programFor]

theorem Rig.holdPurged_frame (r : Rig) (o : Output) (e : Urgent) :
    r.sameNotes (r.holdPurged o e) ∧ (r.holdPurged o e).desk = r.desk ∧
      ∀ p, (r.holdPurged o e).out p = r.out p := by
  cases e with
  | program d x z =>
    rw [Rig.holdPurged]
    split
    · exact ⟨r.sameNotes_refl, rfl, fun p => rfl⟩
    · exact ⟨⟨rfl, rfl, rfl⟩, rfl, fun p => rfl⟩
  | noteOn d k v l => exact ⟨r.sameNotes_refl, rfl, fun p => rfl⟩
  | noteOff d k => exact ⟨r.sameNotes_refl, rfl, fun p => rfl⟩
  | allNotesOff d => exact ⟨r.sameNotes_refl, rfl, fun p => rfl⟩

/-- The purged programs, newest first, are held where nothing is held yet. -/
theorem Rig.holdPurged_foldl (r : Rig) (o : Output) (es : List Urgent) :
    let t := es.reverse.foldl (fun r e => r.holdPurged o e) r
    r.sameNotes t ∧ t.desk = r.desk ∧ (∀ p, t.out p = r.out p) ∧
      ∀ p c, t.chan p c = if p = o then { r.chan p c with
        held := (r.chan p c).held.or (es.filterMap (Urgent.programFor c)).getLast? } else r.chan p c := by
  intro t
  have ht : t = es.foldr (fun e r => r.holdPurged o e) r := List.foldl_reverse
  rw [ht]
  clear ht t
  induction es with
  | nil => exact ⟨r.sameNotes_refl, rfl, fun p => rfl, fun p c => by simp⟩
  | cons e es ih =>
    obtain ⟨hn, hd, ho, hx⟩ := ih
    rw [List.foldr_cons]
    obtain ⟨kn, kd, ko⟩ := (es.foldr (fun e r => r.holdPurged o e) r).holdPurged_frame o e
    refine ⟨Rig.sameNotes_trans hn kn, kd.trans hd, fun p => (ko p).trans (ho p), fun p c => ?_⟩
    rw [Rig.holdPurged_chan, hx]
    by_cases hp : p = o
    · simp only [if_pos hp, Option.or_assoc]
      congr 2
      cases he : e.programFor c with
      | none => simp [he]
      | some y =>
        rw [List.filterMap_cons_some he]
        cases hl : es.filterMap (Urgent.programFor c) with
        | nil => rfl
        | cons z zs => simp [List.getLast?_eq_some_getLast]
    · simp [hp]

/-- The held program that O42 names. -/
theorem heldAfterPurge_eq (q : OutPort) (x : ChanRec) (c : Chan) :
    heldAfterPurge q x c = x.held.or (q.purged.filterMap (Urgent.programFor c)).getLast? := by
  unfold heldAfterPurge
  cases x.held with
  | some p => rfl
  | none =>
    exact congrArg (fun f => (q.purged.filterMap f).getLast?)
      (funext fun e => by cases e <;> rfl)

/-- An output that becomes disabled, block by block. -/
theorem Rig.disable_spec (r : Rig) (o : Output) :
    r.sameNotes (r.disable o) ∧ (r.disable o).desk = r.desk ∧
      (∀ p, (r.disable o).out p = if p = o then { r.out o with
        enabled := false
        urgent := if (r.out o).urgentOnLine then (r.out o).urgent.take 1 else []
        bulk := (if (r.out o).bulkOnLine then (r.out o).bulk.take 1 else []).map fun b => { b with followUp := none }
        overflow := false
        critical := false } else r.out p) ∧
      ∀ p c, (r.disable o).chan p c =
        if p = o then { r.chan p c with held := heldAfterPurge (r.out o) (r.chan p c) c } else r.chan p c := by
  obtain ⟨hn, hd, ho, hx⟩ := Rig.holdPurged_foldl
    (r.setOut o { (r.out o).purge with enabled := false, overflow := false, critical := false }) o (r.out o).purged
  refine ⟨hn, hd, fun p => ?_, fun p c => ?_⟩
  · exact (ho p).trans (r.out_setOut o p _)
  · simp only [heldAfterPurge_eq]
    exact hx p c

end Sys2Proof.Machine
end

section
/-! OUTPUT ENABLE (O42): what the mask does at each output, and the answer that stays in the port's queue. -/
namespace Sys2Proof.Machine

/-! ### Answers in the outbound queue -/

/-- A notice offered to a port leaves the frames that are no POSITION in its queue. -/
theorem PortState.offer_mem {x : PortState} {f : Frame} (h : f ∈ x.outbound) (hf : f.isPosition = false)
    (n : Notice) : f ∈ (x.offer n).outbound := by
  obtain ⟨-, hr⟩ | ⟨-, -, -, hr⟩ | ⟨-, -, hr⟩ := x.offer_cases n <;> rw [hr]
  · exact h
  · rw [← x.shifting_append_waiting] at h
    refine List.mem_append.mpr ((List.mem_append.mp h).imp_right fun hw => ?_)
    exact List.mem_map.mpr ⟨f, hw, by simp [hf]⟩
  · obtain ⟨-, ha⟩ | ⟨-, ha⟩ := x.admitNotice_cases n <;> rw [ha]
    · exact List.mem_append_left _ h
    · exact h

theorem Desk.raiseAt_mem {d : Desk} {q : Port} {f : Frame} (h : f ∈ (d.port q).outbound)
    (hf : f.isPosition = false) (p : Port) (n : Notice) : f ∈ ((d.raiseAt p n).port q).outbound := by
  rw [Desk.raiseAt, Desk.port_setPort]
  split
  · rename_i hp
    exact PortState.offer_mem (hp ▸ h) hf n
  · exact h

theorem Desk.raise_mem {d : Desk} {q : Port} {f : Frame} (h : f ∈ (d.port q).outbound)
    (hf : f.isPosition = false) (n : Notice) : f ∈ ((d.raise n).port q).outbound :=
  Desk.raiseAt_mem (Desk.raiseAt_mem h hf _ n) hf _ n

theorem Desk.count_mem {d : Desk} {q : Port} {f : Frame} (h : f ∈ (d.port q).outbound)
    (hf : f.isPosition = false) (ev : CounterEvent) (named : Nat) (i : Fin 4) :
    f ∈ ((d.count ev named i).port q).outbound := by
  have hd : ∀ c, f ∈ (Desk.port { d with counters := c } q).outbound := fun c => by cases q <;> exact h
  obtain ⟨-, hr⟩ | ⟨-, d', rfl, hr | hr⟩ := d.count_cases ev named i <;> rw [hr]
  · exact h
  · exact hd _
  · exact Desk.raise_mem (hd _) hf _

theorem Desk.report_mem {d : Desk} {q : Port} {f : Frame} (h : f ∈ (d.port q).outbound)
    (hf : f.isPosition = false) (ev : CounterEvent) (named : Nat) :
    f ∈ ((d.report ev named).port q).outbound :=
  Desk.count_mem (Desk.count_mem (Desk.count_mem (Desk.count_mem h hf _ _ 0) hf _ _ 1) hf _ _ 2) hf _ _ 3

theorem Desk.record_mem {d : Desk} {q : Port} {f : Frame} (h : f ∈ (d.port q).outbound)
    (hf : f.isPosition = false) (x : CaptureRecord) : f ∈ ((d.record x).port q).outbound := by
  have hd : ∀ l, f ∈ (Desk.port { d with capture := l } q).outbound := fun l => by cases q <;> exact h
  obtain hr | ⟨_, -, -, ⟨-, hr⟩ | ⟨-, hr⟩⟩ := d.record_cases x <;> rw [hr]
  · exact h
  · exact Desk.raise_mem (hd _) hf _
  · exact hd _

/-- Reports leave the answers of every port in its queue. -/
theorem Desk.Hears.response_mem {d e : Desk} (h : d.Hears e) {q : Port} {f : Frame}
    (hf : f ∈ (d.port q).outbound) (hp : f.isPosition = false) : f ∈ (e.port q).outbound := by
  induction h with
  | refl => exact hf
  | tail _ told ih =>
    cases told with
    | notice p n => exact Desk.raiseAt_mem ih hp p n
    | count ev named => exact Desk.report_mem ih hp ev named
    | capture x => exact Desk.record_mem ih hp x

/-! ### One output of the mask (R39) -/

/-- An output that a mask with the bit `on` leaves, found as `q` and owing `es`. -/
def enabledOut (now : StageTime) (on : Bool) (q : OutPort) (es : List Urgent) : OutPort :=
  if q.enabled = on then q
  else if on then appendedOut now { q with enabled := true } es
  else { q with
    enabled := false
    urgent := if q.urgentOnLine then q.urgent.take 1 else []
    bulk := (if q.bulkOnLine then q.bulk.take 1 else []).map fun b => { b with followUp := none }
    overflow := false
    critical := false }

/-- A record of channel `c` that a mask with the bit `on` leaves, of an output found as `q`. -/
def enabledRec (on : Bool) (q : OutPort) (c : Chan) (x : ChanRec) : ChanRec :=
  if q.enabled = on then x
  else if on then { x with panicOwed := false, held := none }
  else { x with held := heldAfterPurge q x c }

/-- The desk that a mask with the bit `on` leaves, from the desk `d`, of output `o` of the instrument side `r`. -/
def Rig.enabledDesk (r : Rig) (m : Moment) (on : Bool) (d : Desk) (o : Output) : Desk :=
  if (r.out o).enabled = false ∧ on = true then
    (((r.setDesk d).setOut o { r.out o with enabled := true }).appendAll m o (owedEvents r o)).desk
  else d

theorem enabledOut_off {q : OutPort} (h : q.enabled = true) (now : StageTime) (es : List Urgent) :
    enabledOut now false q es = { q with
      enabled := false
      urgent := if q.urgentOnLine then q.urgent.take 1 else []
      bulk := (if q.bulkOnLine then q.bulk.take 1 else []).map fun b => { b with followUp := none }
      overflow := false
      critical := false } := by
  rw [enabledOut, if_neg (by simp [h]), if_neg Bool.false_ne_true]

theorem enabledRec_on {q : OutPort} (h : q.enabled = false) (c : Chan) (x : ChanRec) :
    enabledRec true q c x = { x with panicOwed := false, held := none } := by
  rw [enabledRec, if_neg (by simp [h]), if_pos rfl]

theorem enabledRec_off {q : OutPort} (h : q.enabled = true) (c : Chan) (x : ChanRec) :
    enabledRec false q c x = { x with held := heldAfterPurge q x c } := by
  rw [enabledRec, if_neg (by simp [h]), if_neg Bool.false_ne_true]

/-- The mask at one output, found as `r` has it: a disabled output holds at most the event on its line. -/
theorem Rig.setEnable_spec {r t : Rig} {o : Output} (m : Moment) (on : Bool) (ho : t.out o = r.out o)
    (hx : ∀ c, t.chan o c = r.chan o c) (hshort : (r.out o).enabled = false → (r.out o).urgent.length ≤ 1) :
    t.sameNotes (t.setEnable m o on) ∧
      (t.setEnable m o on).out o = enabledOut m.now on (r.out o) (owedEvents r o) ∧
      (∀ c, (t.setEnable m o on).chan o c = enabledRec on (r.out o) c (r.chan o c)) ∧
      (t.setEnable m o on).desk = r.enabledDesk m on t.desk o ∧
      ∀ p, p ≠ o → (t.setEnable m o on).out p = t.out p ∧ ∀ c, (t.setEnable m o on).chan p c = t.chan p c := by
  have howed : owedEvents t o = owedEvents r o := by
    simp only [owedEvents_eq, hx]
  by_cases hsame : (r.out o).enabled = on
  · rw [Rig.setEnable, ho, if_pos hsame]
    refine ⟨t.sameNotes_refl, ho.trans (if_pos hsame).symm, fun c => (hx c).trans (if_pos hsame).symm, ?_,
      fun p _ => ⟨rfl, fun c => rfl⟩⟩
    rw [Rig.enabledDesk, if_neg]
    rintro ⟨h1, h2⟩
    rw [h1, h2] at hsame
    contradiction
  · rw [Rig.setEnable, ho, if_neg hsame]
    cases on with
    | true =>
      have hdis : (r.out o).enabled = false := by simpa using hsame
      have hq : (t.setOut o { t.out o with enabled := true }).out o = { r.out o with enabled := true } := by
        rw [Rig.out_setOut, if_pos rfl, ho]
      have hlen := owedEvents_length r o
      have hone := hshort hdis
      have hes : owedEvents (t.setOut o { t.out o with enabled := true }) o = owedEvents r o := howed
      have h := Rig.settle_room (r := t.setOut o { t.out o with enabled := true }) (o := o) (by rw [hq])
        (by rw [hq, hes]; dsimp only; omega) m
      rw [hes] at h
      obtain ⟨hn, hd, hout, hchan⟩ := h
      rw [if_pos rfl, Rig.enable]
      refine ⟨hn, ?_, fun c => ?_, ?_, fun p hp => ⟨?_, fun c => ?_⟩⟩
      · rw [hout, if_pos rfl, hq, enabledOut, if_neg hsame, if_pos rfl]
      · rw [hchan, if_pos rfl, Rig.chan_setOut, hx, settledRec_owedEvents, enabledRec_on hdis]
      · rw [hd, Rig.enabledDesk, if_pos ⟨hdis, rfl⟩]
        exact (Rig.appendAll_congr (t := t.setOut o { t.out o with enabled := true })
          (r := (r.setDesk t.desk).setOut o { r.out o with enabled := true }) rfl
          (by rw [hq, Rig.out_setOut, if_pos rfl]) m _).1
      · rw [hout, if_neg hp, Rig.out_setOut, if_neg hp]
      · rw [hchan, if_neg hp, Rig.chan_setOut]
    | false =>
      have hen : (r.out o).enabled = true := by simpa using hsame
      obtain ⟨hn, hd, hout, hchan⟩ := t.disable_spec o
      rw [if_neg Bool.false_ne_true]
      refine ⟨hn, ?_, fun c => ?_, ?_, fun p hp => ⟨?_, fun c => ?_⟩⟩
      · rw [hout, if_pos rfl, ho, enabledOut_off hen]
      · rw [hchan, if_pos rfl, ho, hx, enabledRec_off hen]
      · rw [hd, Rig.enabledDesk, if_neg (by simp)]
      · rw [hout, if_neg hp]
      · rw [hchan, if_neg hp]

/-! ### The whole mask -/

/-- The mask at every output. -/
theorem Rig.enableMask_spec (r : Rig) (m : Moment) (mask : BitVec 6)
    (hshort : ∀ o, (r.out o).enabled = false → (r.out o).urgent.length ≤ 1) :
    r.sameNotes (r.enableMask m mask) ∧
      (r.enableMask m mask).desk =
        allOutputs.foldl (fun d o => r.enabledDesk m (mask.getLsbD o.val) d o) r.desk ∧
      ∀ o, (r.enableMask m mask).out o = enabledOut m.now (mask.getLsbD o.val) (r.out o) (owedEvents r o) ∧
        ∀ c, (r.enableMask m mask).chan o c = enabledRec (mask.getLsbD o.val) (r.out o) c (r.chan o c) :=
  r.foldl_allOutputs fun _ o ho hx => Rig.setEnable_spec m (mask.getLsbD o.val) ho hx (hshort o)

/-- The reports of an output that becomes enabled with nothing waiting on an idle line. -/
theorem Rig.enabledDesk_eq {r : Rig} {o : Output}
    (hidle : (r.out o).enabled = false → (r.out o).transmit = .idle → (r.out o).urgent = []) (m : Moment)
    (on : Bool) (d : Desk) :
    r.enabledDesk m on d o =
      if (r.out o).enabled = false ∧ on = true ∧ owedEvents r o ≠ [] ∧ (r.out o).critical = false ∧
          (r.out o).level < ((r.out o).urgent ++ owedEvents r o).length then
        d.raise (.queueCritical o (max ((r.out o).level + 1) ((r.out o).urgent.length + 1)) (r.out o).level)
      else d := by
  unfold Rig.enabledDesk
  by_cases h : (r.out o).enabled = false ∧ on = true
  · rw [if_pos h, Rig.appendAll_desk]
    · simp only [Rig.out_setOut, if_true, List.length_append]
      exact if_congr ⟨fun ⟨a, b, c⟩ => ⟨h.1, h.2, a, b, c⟩, fun ⟨_, _, a, b, c⟩ => ⟨a, b, c⟩⟩ rfl rfl
    · simp only [Rig.out_setOut, if_true]
      intro ht e he
      rw [hidle h.1 ht, List.nil_append] at he
      exact (owedEvents_owed (List.mem_of_mem_head? he)).quiet
  · rw [if_neg h, if_neg fun ⟨a, b, _⟩ => h ⟨a, b⟩]

/-- An output that becomes enabled, field by field. -/
theorem enabledOut_on {q : OutPort} (h : q.enabled = false) (now : StageTime) (es : List Urgent) :
    enabledOut now true q es = { q with
      enabled := true
      urgent := q.urgent ++ es
      transmit := if q.transmit = .idle ∧ es ≠ [] then nextTransmit now (q.urgent ++ es) q.bulk else q.transmit
      critical := q.critical || decide (es ≠ [] ∧ q.level < (q.urgent ++ es).length) } := by
  rw [enabledOut, if_neg (by simp [h]), if_pos rfl, appendedOut]
  by_cases he : es = []
  · simp [he]
  · simp [he]

/-- Settles O42, output by output. -/
theorem outputEnableRule : Obligations.OutputEnableRule := by
  intro s p r rest mask h hmask hshort
  subst hmask
  have hexec : exec (.outputEnable p) s = .next (s.outputEnableRequest p r) :=
    whenLive_serve_of_heads h (State.outputEnableRequest p)
  obtain ⟨-, hq, -⟩ := h
  generalize hmask : BitVec.ofNat 6 (r.octetAt 0) = mask
  have hdesk := s.answer_desk p r rest .done [] hq
  generalize hu : s.answer p .done [] = u at hdesk
  have hsame : SameBut [.desk] s u := hu ▸ s.answer_sameBut p .done []
  have huout : ∀ o, u.rig.out o = s.rig.out o := fun o => by
    rw [Rig.out, show u.rig.outputs = s.rig.outputs from hsame .outputs (by decide)]
    rfl
  have huchan : ∀ o c, u.rig.chan o c = s.rig.chan o c := fun o c => by
    rw [Rig.chan, show u.rig.records = s.rig.records from hsame .records (by decide)]
    rfl
  have howed : ∀ o, owedEvents u.rig o = owedEvents s.rig o := fun o => by simp only [owedEvents_eq, huchan]
  have htime : u.moment.now = s.time := hsame .time (by decide)
  have ht : s.outputEnableRequest p r = u.setRig (u.rig.enableMask u.moment mask) := by
    rw [State.outputEnableRequest, hu, hmask]
  obtain ⟨⟨tt, tp, tn⟩, td, tall⟩ := u.rig.enableMask_spec u.moment mask
    (fun o => by rw [huout]; exact hshort o)
  have hears : u.rig.desk.Hears (u.rig.enableMask u.moment mask).desk := Rig.enableMask_reports _ _ _
  simp only [huout, huchan, howed, htime] at tall
  refine ⟨_, hexec, ?_⟩
  rw [ht]
  generalize u.rig.enableMask u.moment mask = g at *
  have hframe : SameBut [.desk, .outputs, .records] u (u.setRig g) := by
    intro b hb
    cases b with
    | table => exact tt
    | pedals => exact tp
    | legs => exact tn
    | desk | outputs | records => exact absurd (by decide) hb
    | _ => rfl
  refine ⟨(hsame.mono (by simp)).trans hframe, ?_, ?_, fun o => ?_, fun o ho => ?_, fun o hen hoff => ?_,
    fun o hdis hon => ?_, fun hidle => ?_⟩
  · refine ((hears.sameQueue p).1).trans ?_
    show (u.desk.port p).requests = rest
    rw [hdesk, answeredDesk, Desk.port_setPort, if_pos rfl]
  · refine hears.response_mem ?_ rfl
    show _ ∈ (u.desk.port p).outbound
    rw [hdesk, answeredDesk, Desk.port_setPort, if_pos rfl]
    simp
  · show (g.out o).enabled = _
    rw [(tall o).1, enabledOut]
    split
    · assumption
    · split
      · rw [appendedOut_enabled]
        exact Eq.symm ‹_›
      · exact Eq.symm (by simpa using ‹¬mask.getLsbD o.val = true›)
  · exact ⟨(tall o).1.trans (if_pos ho), fun c => ((tall o).2 c).trans (if_pos ho)⟩
  · obtain ⟨hout, hchan⟩ := tall o
    rw [hoff, enabledOut_off hen] at hout
    simp only [hoff, enabledRec_off hen] at hchan
    exact ⟨hout, hchan⟩
  · obtain ⟨hout, hchan⟩ := tall o
    rw [hon, enabledOut_on hdis] at hout
    simp only [hon, enabledRec_on hdis] at hchan
    exact ⟨hout, hchan⟩
  · refine td.trans ?_
    rw [show u.rig.desk = answeredDesk s p r rest .done [] from hdesk]
    refine List.foldl_ext _ _ _ fun d o _ => ?_
    rw [Rig.enabledDesk_eq (by rw [huout]; exact hidle o), huout, howed]

end Sys2Proof.Machine
end

section
/-! The end of a transmission (O45): settlement where the queue has room and where it fills on the way. -/
namespace Sys2Proof.Machine

/-! ### Discarded note-ons where no program is pending (R65) -/

/-- No program is pending, and no two legs have one number. -/
structure Rig.Calm (r : Rig) : Prop where
  pending : ∀ x c, (r.chan x c).pending = none
  legs : ((allLegs r).map fun l => l.id).Nodup

/-- A table whose legs of some numbers are unsent. -/
def unsend (ids : List Nat) (es : List Entry) : List Entry :=
  es.map fun e => { e with legs := e.legs.map fun l => { l with sent := l.sent && !ids.contains l.id } }

/-- The number of sent legs of some numbers that name a record. -/
def sentAmong (ids : List Nat) (es : List Entry) (x : Output) (c : Chan) : Nat :=
  ((es.flatMap fun e => e.legs).filter fun l => l.sent && l.output = x && l.channel = c && ids.contains l.id).length

theorem unsend_append (a b : List Nat) (es : List Entry) : unsend b (unsend a es) = unsend (a ++ b) es := by
  simp only [unsend, List.map_map]
  refine List.map_congr_left fun e _ => ?_
  simp only [Function.comp_apply, List.map_map, Entry.mk.injEq, true_and]
  refine List.map_congr_left fun l _ => ?_
  simp only [Function.comp_apply, List.contains_append, Bool.not_or, Bool.and_assoc]

theorem unsend_legs (ids : List Nat) (es : List Entry) : (unsend ids es).flatMap (fun e => e.legs) =
    (es.flatMap fun e => e.legs).map fun l => { l with sent := l.sent && !ids.contains l.id } := by
  simp [unsend, List.flatMap_map, List.map_flatMap]

/-- Legs that become unsent one after another each leave the count once. -/
theorem sentAmong_append (a b : List Nat) (es : List Entry) (x : Output) (c : Chan) :
    sentAmong (a ++ b) es x c = sentAmong a es x c + sentAmong b (unsend a es) x c := by
  unfold sentAmong
  rw [unsend_legs]
  simp only [← List.countP_eq_length_filter, List.countP_map]
  induction es.flatMap fun e => e.legs with
  | nil => rfl
  | cons l ls ih =>
    rw [List.countP_cons, List.countP_cons, List.countP_cons, ih]
    by_cases hs : l.sent = true
    · by_cases ha : l.id ∈ a <;> by_cases hb : l.id ∈ b <;> simp [hs, ha, hb] <;> omega
    · simp [hs]

theorem sentAmong_nil (es : List Entry) (x : Output) (c : Chan) : sentAmong [] es x c = 0 := by
  simp [sentAmong]

theorem unsend_nil (es : List Entry) : unsend [] es = es := by
  simp [unsend]

/-- A number that no sent leg has unsends nothing. -/
theorem unsend_idle {ids : List Nat} {es : List Entry}
    (h : ∀ l ∈ es.flatMap (fun e => e.legs), l.sent = true → l.id ∉ ids) :
    unsend ids es = es ∧ ∀ x c, sentAmong ids es x c = 0 := by
  constructor
  · conv_rhs => rw [← List.map_id es]
    refine List.map_congr_left fun e he => ?_
    have hlegs : (e.legs.map fun l => { l with sent := l.sent && !ids.contains l.id }) = e.legs := by
      conv_rhs => rw [← List.map_id e.legs]
      refine List.map_congr_left fun l hl => ?_
      have hkept := h l (List.mem_flatMap.mpr ⟨e, he, hl⟩)
      have hsent : (l.sent && !ids.contains l.id) = l.sent := by
        by_cases hs : l.sent = true
        · simp [hs, hkept hs]
        · simp [hs]
      rw [hsent]
      rfl
    rw [hlegs]
    rfl
  · intro x c
    rw [sentAmong, List.length_eq_zero_iff, List.filter_eq_nil_iff]
    intro l hl
    have := h l hl
    simp only [Bool.and_eq_true, List.contains_iff_mem]
    rintro ⟨⟨⟨hs, -⟩, -⟩, hi⟩
    exact this hs hi

theorem findLeg_some {es : List Entry} {id : Nat} {g : Generation} {l : Leg} (h : findLeg es id = some (g, l)) :
    l ∈ es.flatMap (fun e => e.legs) ∧ l.id = id ∧ ∃ e ∈ es, l ∈ e.legs ∧ e.generation = g := by
  induction es with
  | nil => simp [findLeg] at h
  | cons e es ih =>
    rw [findLeg] at h
    split at h
    · rename_i k hk
      simp only [Option.some.injEq, Prod.mk.injEq] at h
      obtain ⟨rfl, rfl⟩ := h
      have hmem := List.mem_of_find?_eq_some hk
      exact ⟨List.mem_flatMap.mpr ⟨e, List.mem_cons_self, hmem⟩, by simpa using List.find?_some hk,
        e, List.mem_cons_self, hmem, rfl⟩
    · obtain ⟨hm, hi, e', he', hrest⟩ := ih h
      exact ⟨by rw [List.flatMap_cons]; exact List.mem_append_right _ hm, hi, e', List.mem_cons_of_mem _ he', hrest⟩

/-- A leg of its own number, unsent. -/
theorem markLeg_eq_unsend (es : List Entry) (id : Nat) : markLeg es id false = unsend [id] es := by
  refine List.map_congr_left fun e _ => ?_
  simp only [Entry.mk.injEq, true_and]
  refine List.map_congr_left fun l _ => ?_
  by_cases h : l.id = id <;> simp [h]

/-- The one sent leg of a number counts for its own record. -/
theorem sentAmong_singleton {es : List Entry} {l : Leg} (hn : ((es.flatMap fun e => e.legs).map fun l => l.id).Nodup)
    (hl : l ∈ es.flatMap fun e => e.legs) (hs : l.sent = true) (x : Output) (c : Chan) :
    sentAmong [l.id] es x c = if x = l.output ∧ c = l.channel then 1 else 0 := by
  unfold sentAmong
  generalize es.flatMap (fun e => e.legs) = ls at hn hl
  have hone : (ls.filter fun k => k.sent && k.output = x && k.channel = c && [l.id].contains k.id) =
      (ls.filter fun k => k.id = l.id).filter fun k => k.sent && k.output = x && k.channel = c := by
    rw [List.filter_filter]
    refine List.filter_congr fun k _ => ?_
    by_cases h : k.id = l.id <;> simp [h]
  have hself : (ls.filter fun k => k.id = l.id) = [l] := by
    obtain ⟨before, after, rfl⟩ := List.append_of_mem hl
    have hne : ∀ k ∈ before ++ after, ¬k.id = l.id := by
      intro k hk he
      have hp : (before ++ l :: after).Perm (l :: (before ++ after)) := List.perm_middle
      have hnd := (hp.map fun l => l.id).nodup_iff.mp hn
      rw [List.map_cons, List.nodup_cons] at hnd
      exact hnd.1 (List.mem_map.mpr ⟨k, hk, he⟩)
    rw [List.filter_append, List.filter_cons_of_pos (by simp)]
    have h1 : (before.filter fun k => decide (k.id = l.id)) = [] :=
      List.filter_eq_nil_iff.mpr fun k hk => by simpa using hne k (List.mem_append_left _ hk)
    have h2 : (after.filter fun k => decide (k.id = l.id)) = [] :=
      List.filter_eq_nil_iff.mpr fun k hk => by simpa using hne k (List.mem_append_right _ hk)
    rw [h1, h2]
    rfl
  rw [hone, hself]
  split
  · rename_i hx
    simp [hs, hx]
  · rename_i hx
    rw [List.length_eq_zero_iff, List.filter_eq_nil_iff]
    intro k hk
    rw [List.mem_singleton.mp hk]
    simp only [Bool.and_eq_true, decide_eq_true_eq]
    rintro ⟨⟨-, ho⟩, hc⟩
    exact hx ⟨ho.symm, hc.symm⟩

/-- A discarded note-on where no program is pending: its leg, if it is sent, becomes unsent and leaves the sounding
count, and nothing else changes. -/
theorem Rig.settleDiscard_calm {r : Rig} (h : r.Calm) (m : Moment) (id fuel : Nat) :
    let t := r.settleDiscard (fuel + 1) m (some id)
    t.table = unsend [id] r.table ∧ t.pedals = r.pedals ∧ t.nextLeg = r.nextLeg ∧ t.desk = r.desk ∧
      (∀ p, t.out p = r.out p) ∧
      ∀ x c, t.chan x c = { r.chan x c with sounding := (r.chan x c).sounding - sentAmong [id] r.table x c } := by
  intro t
  have idle : (∀ l ∈ r.table.flatMap (fun e => e.legs), l.sent = true → l.id ∉ [id]) → t = r →
      t.table = unsend [id] r.table ∧ t.pedals = r.pedals ∧ t.nextLeg = r.nextLeg ∧ t.desk = r.desk ∧
      (∀ p, t.out p = r.out p) ∧
      ∀ x c, t.chan x c = { r.chan x c with sounding := (r.chan x c).sounding - sentAmong [id] r.table x c } := by
    intro hidle hr
    obtain ⟨ht, hc⟩ := unsend_idle hidle
    rw [hr]
    exact ⟨ht.symm, rfl, rfl, rfl, fun p => rfl, fun x c => by rw [hc, Nat.sub_zero]⟩
  cases hf : findLeg r.table id with
  | none =>
    refine idle (fun l hl _ hi => ?_) (Rig.settleDiscard_ended hf m fuel)
    obtain ⟨e, he, hle⟩ := List.mem_flatMap.mp hl
    exact findLeg_none_iff.mp hf e he l hle (by simpa using hi)
  | some x =>
    obtain ⟨g, l⟩ := x
    obtain ⟨hmem, rfl, -⟩ := findLeg_some hf
    by_cases hs : l.sent = true
    case neg =>
      rw [Bool.not_eq_true] at hs
      refine idle (fun k hk hks hi => ?_) (Rig.settleDiscard_unsent hf hs m fuel)
      have : k = l := List.inj_on_of_nodup_map h.legs hk hmem (by simpa using hi)
      rw [this, hs] at hks
      contradiction
    case pos =>
      have hold : (r.chan l.output l.channel).isOld m.generation g = false := by
        simp [ChanRec.isOld, h.pending]
      have ht : t = (r.setTable (markLeg r.table l.id false)).setChan l.output l.channel
          { r.chan l.output l.channel with sounding := (r.chan l.output l.channel).sounding - 1 } := by
        have := Rig.settleDiscard_sent hf hs m fuel
        simp only [hold, Bool.false_eq_true, false_and, if_false] at this
        exact this
      rw [ht]
      refine ⟨markLeg_eq_unsend _ _, rfl, rfl, rfl, fun p => rfl, fun x c => ?_⟩
      rw [Rig.chan_setChan, sentAmong_singleton h.legs hmem hs, Rig.chan_setTable]
      split
      · rename_i hx
        obtain ⟨rfl, rfl⟩ := hx
        rfl
      · rfl

/-! ### One event offered to a full queue -/

/-- One event of settlement at a full queue takes the place of the oldest note-on. -/
theorem Rig.settleOne_discard {r : Rig} {o : Output} {e : Urgent} (he : e.Owed) (hcalm : r.Calm)
    (hen : (r.out o).enabled = true) (hu : 48 ≤ (r.out o).urgent.length) {d : Chan} {leg : Nat} {rest : List Urgent}
    (hd : (r.out o).discardable = some (d, leg, rest)) (m : Moment) :
    let t := r.settleOne m o e
    t.table = unsend [leg] r.table ∧ t.pedals = r.pedals ∧ t.nextLeg = r.nextLeg ∧
      t.desk = (r.replace m o e fun r => r.refuse m o e).rig.desk ∧
      (∀ p, t.out p = (r.replace m o e fun r => r.refuse m o e).rig.out p) ∧
      ∀ x c, t.chan x c = { (if x = o then settledRec [e] c (r.chan x c) else r.chan x c) with
        sounding := (r.chan x c).sounding - sentAmong [leg] r.table x c } := by
  intro t
  obtain ⟨ha, hg, ⟨hn1, hn2, hn3⟩, -, -, hc⟩ := r.replace_spec m o e (fun r => r.refuse m o e) hd
  have hfull := offerEvent_full hen (.inl hu) he.plain m
  have hdisc : ∀ u : Rig, u.Calm → u.table = r.table → u.pedals = r.pedals → u.nextLeg = r.nextLeg →
      u.desk = (r.replace m o e fun r => r.refuse m o e).rig.desk →
      (∀ p, u.out p = (r.replace m o e fun r => r.refuse m o e).rig.out p) →
      (∀ x c, u.chan x c = if x = o then settledRec [e] c (r.chan x c) else r.chan x c) →
      t = u.settleDiscard discardFuel m (some leg) →
      t.table = unsend [leg] r.table ∧ t.pedals = r.pedals ∧ t.nextLeg = r.nextLeg ∧
        t.desk = (r.replace m o e fun r => r.refuse m o e).rig.desk ∧
        (∀ p, t.out p = (r.replace m o e fun r => r.refuse m o e).rig.out p) ∧
        ∀ x c, t.chan x c = { (if x = o then settledRec [e] c (r.chan x c) else r.chan x c) with
          sounding := (r.chan x c).sounding - sentAmong [leg] r.table x c } := by
    intro u hu ht hp hl hdk ho hx hsettle
    obtain ⟨k1, k2, k3, k4, k5, k6⟩ := Rig.settleDiscard_calm hu m leg 96
    rw [hsettle]
    refine ⟨k1.trans (by rw [ht]), k2.trans hp, k3.trans hl, k4.trans hdk, fun p => (k5 p).trans (ho p), fun x c => ?_⟩
    rw [k6, hx, ht]
    split <;> rfl
  have calm : ∀ u : Rig, (∀ x c, u.chan x c = if x = o then settledRec [e] c (r.chan x c) else r.chan x c) →
      u.table = r.table → u.Calm := by
    intro u hx ht
    refine ⟨fun x c => ?_, by rw [allLegs, ht]; exact hcalm.legs⟩
    rw [hx]
    split <;> exact hcalm.pending x c
  cases he with
  | off c =>
    have hoff : r.offerAllNotesOff m o c = r.replace m o (.allNotesOff c) fun r => r.refuse m o (.allNotesOff c) :=
      hfull
    generalize r.replace m o (.allNotesOff c) (fun r => r.refuse m o (.allNotesOff c)) = x at *
    have hchan : ∀ p d, (x.rig.setChan o c { x.rig.chan o c with panicOwed := false }).chan p d =
        if p = o then settledRec [.allNotesOff c] d (r.chan p d) else r.chan p d := by
      intro p d
      rw [Rig.chan_setChan, hc, hc]
      by_cases hp : p = o
      · subst hp
        by_cases hd : d = c
        · subst hd
          simp [settledRec, Urgent.isProgramOf]
        · simp [settledRec, Urgent.isProgramOf, hd]
      · simp [hp, Urgent.isProgramOf]
    refine hdisc _ (calm _ hchan hn1) hn1 hn2 hn3 rfl (fun p => rfl) hchan ?_
    show (if (r.offerAllNotesOff m o c).appended then _ else _ : Rig).settleDiscard _ _ _ = _
    rw [hoff, if_pos ha, hg]
  | program c y =>
    have hoff : r.offerProgram m o c y = r.replace m o (.program c y false) fun r => r.refuse m o (.program c y false) :=
      hfull
    generalize r.replace m o (.program c y false) (fun r => r.refuse m o (.program c y false)) = x at *
    have hchan : ∀ p d, x.rig.chan p d =
        if p = o then settledRec [.program c y false] d (r.chan p d) else r.chan p d := by
      intro p d
      rw [hc]
      by_cases hp : p = o <;> by_cases hd : c = d <;> simp [settledRec, Urgent.isProgramOf, hp, hd]
    refine hdisc _ (calm _ hchan hn1) hn1 hn2 hn3 rfl (fun p => rfl) hchan ?_
    show (r.offerProgram m o c y).settled m = _
    rw [hoff, Offer.settled, hg]

/-- What a record still owes is owed on where a full queue has no note-on to discard. -/
theorem Rig.settleOne_refused {r : Rig} {o : Output} {e : Urgent}
    (howed : (∃ c, e = .allNotesOff c ∧ (r.chan o c).panicOwed = true) ∨
      ∃ c p, e = .program c p false ∧ (r.chan o c).held = some p)
    (hen : (r.out o).enabled = true) (hu : 48 ≤ (r.out o).urgent.length)
    (hd : (r.out o).discardable = none) (m : Moment) : r.settleOne m o e = r := by
  rcases howed with ⟨c, rfl, hp⟩ | ⟨c, p, rfl, hp⟩
  · have hoff : r.offerAllNotesOff m o c = ⟨r, false, none⟩ := by
      have hfull : r.offerAllNotesOff m o c = _ := offerEvent_full (e := .allNotesOff c) hen (.inl hu) (by simp) m
      rw [hfull, r.replace_none _ _ _ _ hd]
      simp [Rig.refuse, hp]
    simp only [Rig.settleOne, hoff, Bool.false_eq_true, if_false, Rig.settleDiscard_none]
  · have hoff : r.offerProgram m o c p = ⟨r, false, none⟩ := by
      have hfull : r.offerProgram m o c p = _ :=
        offerEvent_full (e := .program c p false) hen (.inl hu) (by simp) m
      have hold : r.hold o c p = r := by
        rw [Rig.hold, ← hp]
        exact r.setChan_chan o c
      rw [hfull, r.replace_none _ _ _ _ hd]
      simp only [Rig.refuse, hold]
    simp only [Rig.settleOne, hoff, Offer.settled, Rig.settleDiscard_none]

end Sys2Proof.Machine
end

section
/-! The end of a transmission as a command (O45). -/
namespace Sys2Proof.Machine

/-! ### The note-ons of a queue, oldest first -/

theorem noteOnsIn_append (es fs : List Urgent) : noteOnsIn (es ++ fs) = noteOnsIn es ++ noteOnsIn fs :=
  List.filterMap_append

theorem noteOnsIn_quiet {es : List Urgent} (h : ∀ e ∈ es, e.isNoteOn = false) : noteOnsIn es = [] := by
  refine List.filterMap_eq_nil_iff.mpr fun e he => ?_
  have := h e he
  cases e <;> simp_all [Urgent.isNoteOn]

theorem quiet_of_noteOnsIn {es : List Urgent} (h : noteOnsIn es = []) : ∀ e ∈ es, e.isNoteOn = false := by
  intro e he
  have := List.filterMap_eq_nil_iff.mp h e he
  cases e <;> simp_all [Urgent.isNoteOn]

/-- Events that are no note-ons stay behind the note-ons that leave. -/
theorem withoutNoteOns_append {fs : List Urgent} (h : ∀ e ∈ fs, e.isNoteOn = false) (k : Nat) (es : List Urgent) :
    withoutNoteOns k (es ++ fs) = withoutNoteOns k es ++ fs := by
  have quiet : ∀ (k : Nat) (fs : List Urgent), (∀ e ∈ fs, e.isNoteOn = false) → withoutNoteOns k fs = fs := by
    intro k fs
    induction fs with
    | nil => exact fun _ => by cases k <;> rfl
    | cons f fs ih =>
      intro hf
      cases k with
      | zero => rfl
      | succ k =>
        have hrest := ih fun e he => hf e (List.mem_cons_of_mem _ he)
        simp only [withoutNoteOns, hf f List.mem_cons_self, Bool.false_eq_true, if_false, hrest]
  induction es generalizing k with
  | nil =>
    rw [List.nil_append, quiet k fs h]
    cases k <;> rfl
  | cons e es ih =>
    cases k with
    | zero => rfl
    | succ k =>
      rw [List.cons_append, withoutNoteOns, withoutNoteOns]
      split
      · exact ih k
      · rw [ih (k + 1), List.cons_append]

theorem noteOnsIn_withoutNoteOns (k : Nat) (es : List Urgent) :
    noteOnsIn (withoutNoteOns k es) = (noteOnsIn es).drop k := by
  induction es generalizing k with
  | nil => cases k <;> simp [withoutNoteOns, noteOnsIn]
  | cons e es ih =>
    cases k with
    | zero => rfl
    | succ k =>
      rw [withoutNoteOns]
      cases e with
      | noteOn c x v l => exact ih k
      | noteOff c x => exact ih (k + 1)
      | program c p x => exact ih (k + 1)
      | allNotesOff c => exact ih (k + 1)

/-- Taking the oldest note-on leaves the list without its first note-on. -/
theorem takeNoteOn_of_noteOnsIn {es : List Urgent} {d : Chan} {leg : Nat} {gs : List (Chan × Nat)}
    (h : noteOnsIn es = (d, leg) :: gs) :
    ∃ rest, takeNoteOn es = some (d, leg, rest) ∧ noteOnsIn rest = gs ∧
      ∀ k, withoutNoteOns k rest = withoutNoteOns (k + 1) es := by
  induction es with
  | nil => simp [noteOnsIn] at h
  | cons e es ih =>
    have behind : e.isNoteOn = false → noteOnsIn (e :: es) = noteOnsIn es →
        takeNoteOn (e :: es) = (takeNoteOn es).map (fun x => (x.1, x.2.1, e :: x.2.2)) →
        ∃ rest, takeNoteOn (e :: es) = some (d, leg, rest) ∧ noteOnsIn rest = gs ∧
          ∀ k, withoutNoteOns k rest = withoutNoteOns (k + 1) (e :: es) := by
      intro he hn ht
      obtain ⟨rest, hr, hg, hw⟩ := ih (hn ▸ h)
      refine ⟨e :: rest, by rw [ht, hr]; rfl, ?_, fun k => ?_⟩
      · have hone : noteOnsIn [e] = [] := noteOnsIn_quiet (by simpa using he)
        rw [← List.singleton_append, noteOnsIn_append, hone, List.nil_append, hg]
      · rw [withoutNoteOns, if_neg (by simp [he]), ← hw]
        cases k with
        | zero => rw [withoutNoteOns, withoutNoteOns]
        | succ k => rw [withoutNoteOns, if_neg (by simp [he])]
    cases e with
    | noteOn c x v l =>
      simp only [noteOnsIn, List.filterMap_cons, List.cons.injEq, Prod.mk.injEq] at h
      obtain ⟨⟨rfl, rfl⟩, hg⟩ := h
      exact ⟨es, rfl, hg, fun k => rfl⟩
    | noteOff c x => exact behind rfl rfl rfl
    | program c p x => exact behind rfl rfl rfl
    | allNotesOff c => exact behind rfl rfl rfl

/-! ### A full queue, event by event (R35) -/

/-- The desk and the overflow flag once a note-on has been discarded from a full queue. -/
def discardTold (now : StageTime) (o : Output) (x : Desk × Bool) (g : Chan × Nat) : Desk × Bool :=
  (discardedDesk x.1 now o g.1 x.2 48, true)

/-- The instrument side once a full queue, with `tail` behind the head on its line, has settled `es`, each in the
place of a note-on. -/
structure Rig.SettlesFull (m : Moment) (o : Output) (head : Urgent) (tail es : List Urgent) (r t : Rig) : Prop where
  table : t.table = unsend (((noteOnsIn tail).take es.length).map Prod.snd) r.table
  pedals : t.pedals = r.pedals
  nextLeg : t.nextLeg = r.nextLeg
  desk : t.desk = (((noteOnsIn tail).take es.length).foldl (discardTold m.now o) (r.desk, (r.out o).overflow)).1
  out : ∀ p, t.out p = if p = o then { r.out o with
    urgent := head :: (withoutNoteOns es.length tail ++ es)
    overflow := decide (es ≠ []) || (r.out o).overflow } else r.out p
  chan : ∀ x c, t.chan x c = { (if x = o then settledRec es c (r.chan x c) else r.chan x c) with
    sounding := (r.chan x c).sounding -
      sentAmong (((noteOnsIn tail).take es.length).map Prod.snd) r.table x c }

theorem Rig.Calm.of_unsend {r t : Rig} (h : r.Calm) {ids : List Nat} (ht : t.table = unsend ids r.table)
    (hp : ∀ x c, (t.chan x c).pending = (r.chan x c).pending) : t.Calm := by
  refine ⟨fun x c => (hp x c).trans (h.pending x c), ?_⟩
  have hlegs : (allLegs t).map (fun l => l.id) = (allLegs r).map fun l => l.id := by
    rw [allLegs, ht, unsend_legs, List.map_map]
    rfl
  exact hlegs ▸ h.legs

theorem Rig.settleAll_full {r : Rig} {o : Output} {head : Urgent} {tail es : List Urgent} {last : StageTime}
    (he : ∀ e ∈ es, e.Owed) (hcalm : r.Calm) (hen : (r.out o).enabled = true)
    (hu : (r.out o).urgent = head :: tail) (hlen : (r.out o).urgent.length = 48)
    (hline : (r.out o).transmit = .sending .urgent last) (hk : es.length ≤ (noteOnsIn tail).length) (m : Moment) :
    Rig.SettlesFull m o head tail es r (es.foldl (fun r e => r.settleOne m o e) r) := by
  induction es generalizing r tail with
  | nil =>
    refine ⟨by simp [unsend_nil], rfl, rfl, rfl, fun p => ?_, fun x c => ?_⟩
    · split
      · rename_i h
        rw [h]
        simp [withoutNoteOns, ← hu]
      · rfl
    · simp only [List.length_nil, List.take_zero, List.map_nil, sentAmong_nil, Nat.sub_zero, settledRec_nil, ite_self]
      rfl
  | cons e es ih =>
    obtain ⟨⟨d, leg⟩, gs, hgs⟩ := List.exists_cons_of_length_pos (Nat.lt_of_lt_of_le (Nat.succ_pos _) hk)
    obtain ⟨rest, htake, hrest, hwithout⟩ := takeNoteOn_of_noteOnsIn hgs
    have hd : (r.out o).discardable = some (d, leg, head :: rest) := by
      have hon : (r.out o).urgentOnLine = true := by simp [OutPort.urgentOnLine, hline]
      rw [OutPort.discardable, if_pos hon, hu]
      simp [htake]
    have howed := he e List.mem_cons_self
    obtain ⟨-, -, -, ro, rd, -⟩ := r.replace_spec m o e (fun r => r.refuse m o e) hd
    obtain ⟨kt, kp, kl, kd, ko, kx⟩ := Rig.settleOne_discard howed hcalm hen hlen.ge hd m
    have hout : (r.settleOne m o e).out o = { r.out o with
        urgent := head :: (rest ++ [e]), overflow := true } := by
      rw [ko, ro, if_pos rfl, if_neg (by simp [hline]), List.cons_append]
    have hdesk : (r.settleOne m o e).desk =
        discardedDesk r.desk m.now o d (r.out o).overflow 48 := by
      rw [kd, rd, if_neg (by simp [hline]), hlen]
    have hcalm' : (r.settleOne m o e).Calm := hcalm.of_unsend kt fun x c => by
      rw [kx]
      split <;> rfl
    have htail : noteOnsIn (rest ++ [e]) = gs := by
      rw [noteOnsIn_append, hrest, noteOnsIn_quiet (es := [e]) (by simpa using howed.quiet), List.append_nil]
    have hlen' : rest.length + 1 = tail.length := by
      have := OutPort.discardable_rest hd
      rw [hu] at this
      simpa using this
    rw [hgs, List.length_cons, List.length_cons] at hk
    obtain ⟨it, ip, il, id', io, ix⟩ := ih (fun x hx => he x (List.mem_cons_of_mem _ hx)) hcalm' (by rw [hout, hen])
      (by rw [hout]) (by rw [hout]; rw [hu] at hlen; simp at hlen ⊢; omega) (by rw [hout]; exact hline)
      (by rw [htail]; omega)
    rw [htail] at it id' ix
    have hids : ((noteOnsIn tail).take (e :: es).length).map Prod.snd = [leg] ++ (gs.take es.length).map Prod.snd := by
      rw [hgs]
      rfl
    refine ⟨?_, ip.trans kp, il.trans kl, ?_, fun p => ?_, fun x c => ?_⟩
    · rw [hids, ← unsend_append, ← kt]
      exact it
    · rw [hgs]
      refine id'.trans ?_
      rw [hdesk, hout]
      rfl
    · refine (io p).trans ?_
      rw [hout]
      split
      · rw [withoutNoteOns_append (fs := [e]) (by simpa using howed.quiet), hwithout]
        simp
      · rename_i hp
        rw [ko, ro, if_neg hp]
    · refine (ix x c).trans ?_
      rw [hids, sentAmong_append, ← Nat.sub_sub, ← kt, kx]
      by_cases hx : x = o
      · have hrec : settledRec (e :: es) c (r.chan x c) = settledRec es c (settledRec [e] c (r.chan x c)) :=
          (settledRec_append [e] es c _).symm
        rw [if_pos hx, if_pos hx, if_pos hx, hrec]
        rfl
      · rw [if_neg hx, if_neg hx, if_neg hx]

/-- What is still owed where no note-on is left to discard. -/
theorem Rig.settleAll_refused {r : Rig} {o : Output} {es : List Urgent}
    (howed : ∀ e ∈ es, (∃ c, e = .allNotesOff c ∧ (r.chan o c).panicOwed = true) ∨
      ∃ c p, e = .program c p false ∧ (r.chan o c).held = some p)
    (hen : (r.out o).enabled = true) (hu : 48 ≤ (r.out o).urgent.length)
    (hd : (r.out o).discardable = none) (m : Moment) : es.foldl (fun r e => r.settleOne m o e) r = r := by
  induction es with
  | nil => rfl
  | cons e es ih =>
    rw [List.foldl_cons, Rig.settleOne_refused (howed e List.mem_cons_self) hen hu hd m]
    exact ih fun x hx => howed x (List.mem_cons_of_mem _ hx)

/-! ### Settlement over the channels where no program is pending -/

theorem owedOn_cases {x : ChanRec} {c : Chan} {e : Urgent} (h : e ∈ owedOn x c) :
    (e = .allNotesOff c ∧ x.panicOwed = true) ∨ ∃ p, e = .program c p false ∧ x.held = some p := by
  unfold owedOn at h
  rcases List.mem_append.mp h with h | h
  · split at h
    · exact .inl ⟨List.mem_singleton.mp h, ‹_›⟩
    · simp at h
  · split at h
    · simp at h
    · rename_i p hp
      exact .inr ⟨p, List.mem_singleton.mp h, hp⟩

/-- From `r` to `t` the output `o` stays enabled and calm, and of its marks and held programs at most those that
the events `es` name have been cleared. -/
structure Rig.OwesStill (o : Output) (es : List Urgent) (r t : Rig) : Prop where
  calm : t.Calm
  enabled : (t.out o).enabled = true
  mark : ∀ d, es.contains (.allNotesOff d) = false → (t.chan o d).panicOwed = (r.chan o d).panicOwed
  held : ∀ d, es.any (·.isProgramOf d) = false → (t.chan o d).held = (r.chan o d).held

theorem Rig.OwesStill.nil {r : Rig} {o : Output} (hcalm : r.Calm) (hen : (r.out o).enabled = true) :
    Rig.OwesStill o [] r r := ⟨hcalm, hen, fun _ _ => rfl, fun _ _ => rfl⟩

theorem Rig.OwesStill.trans {o : Output} {es fs : List Urgent} {r t u : Rig} (h : Rig.OwesStill o es r t)
    (k : Rig.OwesStill o fs t u) : Rig.OwesStill o (es ++ fs) r u := by
  refine ⟨k.calm, k.enabled, fun d hd => ?_, fun d hd => ?_⟩
  · rw [List.contains_append, Bool.or_eq_false_iff] at hd
    exact (k.mark d hd.2).trans (h.mark d hd.1)
  · rw [List.any_append, Bool.or_eq_false_iff] at hd
    exact (k.held d hd.2).trans (h.held d hd.1)

theorem Rig.settleOne_owesStill {r : Rig} {o : Output} {c : Chan} {e : Urgent} (he : e ∈ owedOn (r.chan o c) c)
    (hcalm : r.Calm) (hen : (r.out o).enabled = true) (m : Moment) :
    Rig.OwesStill o [e] r (r.settleOne m o e) := by
  have hmark : ∀ (d : Chan) (y : ChanRec), [e].contains (.allNotesOff d) = false →
      (settledRec [e] d y).panicOwed = y.panicOwed := fun d y h => by rw [settledRec, h, Bool.not_false, Bool.and_true]
  have hheld : ∀ (d : Chan) (y : ChanRec), [e].any (·.isProgramOf d) = false → (settledRec [e] d y).held = y.held :=
    fun d y h => by rw [settledRec, h]; rfl
  have howed := owedOn_owed he
  by_cases hu : (r.out o).urgent.length < 48
  · obtain ⟨⟨ht, -, -⟩, -, ho, hx⟩ := Rig.settleOne_room howed hen hu m
    refine ⟨hcalm.of_unsend (ids := []) (by rw [ht, unsend_nil]) fun x d => ?_, ?_, fun d hd => ?_, fun d hd => ?_⟩
    · rw [hx]
      split <;> rfl
    · rw [ho, Rig.append_eq, appendedRig_out, if_pos rfl, appendedOut_enabled, hen]
    · rw [hx, if_pos rfl, hmark d _ hd]
    · rw [hx, if_pos rfl, hheld d _ hd]
  · rw [Nat.not_lt] at hu
    cases hd : (r.out o).discardable with
    | none =>
      have hstay : r.settleOne m o e = r :=
        Rig.settleOne_refused ((owedOn_cases he).imp (fun h => ⟨c, h⟩) fun ⟨p, h⟩ => ⟨c, p, h⟩) hen hu hd m
      rw [hstay]
      exact ⟨hcalm, hen, fun d _ => rfl, fun d _ => rfl⟩
    | some x =>
      obtain ⟨g, leg, rest⟩ := x
      obtain ⟨-, -, -, ro, -⟩ := r.replace_spec m o e (fun r => r.refuse m o e) hd
      obtain ⟨kt, -, -, -, ko, kx⟩ := Rig.settleOne_discard howed hcalm hen hu hd m
      refine ⟨hcalm.of_unsend kt fun x d => ?_, ?_, fun d hd => ?_, fun d hd => ?_⟩
      · rw [kx]
        split <;> rfl
      · rw [ko, ro, if_pos rfl]
        exact hen
      · rw [kx, if_pos rfl]
        exact hmark d _ hd
      · rw [kx, if_pos rfl]
        exact hheld d _ hd

/-- Settlement of one channel of a calm output. -/
theorem Rig.settleChan_calm {r : Rig} {o : Output} {c : Chan} (hcalm : r.Calm) (hen : (r.out o).enabled = true)
    (m : Moment) :
    r.settleChan m o c = (owedOn (r.chan o c) c).foldl (fun r e => r.settleOne m o e) r ∧
      Rig.OwesStill o (owedOn (r.chan o c) c) r (r.settleChan m o c) := by
  have off : (r.chan o c).panicOwed = true → Rig.OwesStill o [.allNotesOff c] r (r.settleOne m o (.allNotesOff c)) :=
    fun hp => Rig.settleOne_owesStill (c := c) (by simp [owedOn, hp]) hcalm hen m
  have hone := r.settleChan_eq m o c fun hp => (off hp).held c (by simp [Urgent.isProgramOf])
  refine ⟨hone, ?_⟩
  rw [hone]
  have program : ∀ t : Rig, t.Calm → (t.out o).enabled = true → ∀ p, (t.chan o c).held = some p →
      Rig.OwesStill o [.program c p false] t (t.settleOne m o (.program c p false)) := fun t hc he p hp =>
    Rig.settleOne_owesStill (c := c) (by simp [owedOn, hp]) hc he m
  unfold owedOn
  cases hp : (r.chan o c).panicOwed with
  | false =>
    cases hh : (r.chan o c).held with
    | none => exact .nil hcalm hen
    | some p => exact program r hcalm hen p hh
  | true =>
    have first := off hp
    cases hh : (r.chan o c).held with
    | none => exact first
    | some p =>
      have hheld := first.held c (by simp [Urgent.isProgramOf])
      exact first.trans (program _ first.calm first.enabled p (hheld.trans hh))

/-- Settlement of a calm output offers what it owes, event by event. -/
theorem Rig.settle_calm {r : Rig} {o : Output} (hcalm : r.Calm) (hen : (r.out o).enabled = true) (m : Moment) :
    r.settle m o = (owedEvents r o).foldl (fun r e => r.settleOne m o e) r := by
  have chans : ∀ cs : List Chan, cs.Nodup → ∀ r : Rig, r.Calm → (r.out o).enabled = true →
      cs.foldl (fun r c => r.settleChan m o c) r =
        (cs.flatMap fun c => owedOn (r.chan o c) c).foldl (fun r e => r.settleOne m o e) r := by
    intro cs
    induction cs with
    | nil => exact fun _ r _ _ => rfl
    | cons c cs ih =>
      intro hnd r hcalm hen
      obtain ⟨hc, hcs⟩ := List.nodup_cons.mp hnd
      obtain ⟨hone, hstill⟩ := Rig.settleChan_calm (c := c) hcalm hen m
      have hother : ∀ d ∈ cs, owedOn ((r.settleChan m o c).chan o d) d = owedOn (r.chan o d) d := fun d hd => by
        obtain ⟨hoff, hprog⟩ := owedOn_other (fun h => hc (h ▸ hd) : d ≠ c) (r.chan o c)
        rw [owedOn, hstill.mark d hoff, hstill.held d hprog]
        rfl
      rw [List.foldl_cons, ih hcs _ hstill.calm hstill.enabled, List.flatMap_def, List.map_congr_left hother,
        ← List.flatMap_def, hone, List.flatMap_cons, List.foldl_append]
  exact chans allChans allChans_nodup r hcalm hen

/-- Nothing is owed, and nothing is settled. -/
theorem Rig.settle_nothing {r : Rig} {o : Output}
    (h : ∀ c, (r.chan o c).panicOwed = false ∧ (r.chan o c).held = none) (m : Moment) : r.settle m o = r := by
  have hone : ∀ c, r.settleChan m o c = r := fun c => by
    obtain ⟨hp, hh⟩ := h c
    rw [r.settleChan_eq m o c (fun hp' => by simp [hp] at hp'), owedOn, hp, hh]
    rfl
  have hall : ∀ cs : List Chan, cs.foldl (fun r c => r.settleChan m o c) r = r := by
    intro cs
    induction cs with
    | nil => rfl
    | cons c cs ih => rw [List.foldl_cons, hone, ih]
  exact hall allChans

/-! ### What is owed names each mark and each program once -/

/-- The mark or the held program that an owed event stands for. -/
def owedKey : Urgent → Bool × Chan
  | .program c _ _ => (true, c)
  | .allNotesOff c => (false, c)
  | .noteOn c _ _ _ => (false, c)
  | .noteOff c _ => (false, c)

theorem owedEvents_keys (r : Rig) (o : Output) : ((owedEvents r o).map owedKey).Nodup := by
  have hsub : ∀ cs : List Chan, ((cs.flatMap fun c => owedOn (r.chan o c) c).map owedKey).Sublist
      (cs.flatMap fun c => [(false, c), (true, c)]) := by
    intro cs
    induction cs with
    | nil => exact .slnil
    | cons c cs ih =>
      rw [List.flatMap_cons, List.flatMap_cons, List.map_append]
      refine List.Sublist.append ?_ ih
      unfold owedOn
      cases (r.chan o c).panicOwed <;> cases (r.chan o c).held <;> simp [owedKey]
  exact List.Nodup.sublist (hsub allChans) (by decide)

/-- An event still to settle is owed on, when those before it have been settled. -/
theorem owed_behind {r : Rig} {o : Output} {before later : List Urgent} (h : owedEvents r o = before ++ later)
    {e : Urgent} (he : e ∈ later) {y : Chan → ChanRec}
    (hy : ∀ c, (y c).panicOwed = (settledRec before c (r.chan o c)).panicOwed ∧
      (y c).held = (settledRec before c (r.chan o c)).held) :
    (∃ c, e = .allNotesOff c ∧ (y c).panicOwed = true) ∨
      ∃ c p, e = .program c p false ∧ (y c).held = some p := by
  have hkeys := owedEvents_keys r o
  rw [h, List.map_append, List.nodup_append] at hkeys
  obtain ⟨-, -, hapart⟩ := hkeys
  have habsent : ∀ x ∈ before, owedKey x ≠ owedKey e := fun x hx =>
    hapart _ (List.mem_map_of_mem hx) _ (List.mem_map_of_mem he)
  obtain ⟨c, -, hc⟩ := List.mem_flatMap.mp (owedEvents_eq r o ▸ (h ▸ List.mem_append_right before he :
    e ∈ owedEvents r o))
  obtain ⟨hpc, hhc⟩ := hy c
  rcases owedOn_cases hc with ⟨rfl, hp⟩ | ⟨p, rfl, hp⟩
  · refine .inl ⟨c, rfl, ?_⟩
    have : ¬(.allNotesOff c ∈ before) := fun hm => habsent _ hm rfl
    rw [hpc, settledRec]
    simp [hp, this]
  · refine .inr ⟨c, p, rfl, ?_⟩
    have hnone : before.any (·.isProgramOf c) = false := by
      rw [List.any_eq_false]
      intro x hx hprog
      refine habsent x hx ?_
      cases x with
      | program d q z => simpa [Urgent.isProgramOf, owedKey] using hprog
      | _ => simp [Urgent.isProgramOf] at hprog
    rw [hhc, settledRec, hnone]
    exact hp

end Sys2Proof.Machine
end

section
/-! TRANSMISSION_COMPLETE (O45): what the end of an event leaves of its output, and what is settled then. -/
namespace Sys2Proof.Machine

/-- What the queues are left with is the output whose event has completed, its flags judged. -/
theorem LineLeaves.completeHead {q : OutPort} {line : LineQueue} {urgent : List Urgent} {bulk : List BulkPlace}
    (h : LineLeaves q line urgent bulk) {last : StageTime} (hline : q.transmit = .sending line last) :
    q.completeHead.clearFlags = leftOut q urgent bulk := by
  unfold OutPort.completeHead
  rw [hline]
  rcases h with ⟨rfl, ⟨e, hu⟩, rfl⟩ | ⟨rfl, rfl, b, more, hb, rfl⟩
  · simp [hu, OutPort.clearFlags, leftOut]
  · rw [hb]
    cases hf : b.followUp <;> simp [OutPort.clearFlags, leftOut, hf]

/-- The command once the last octet has gone out. -/
theorem exec_transmissionComplete {s : State} (hl : s.live = true) {o : Output} {q : LineQueue} {last : StageTime}
    (hline : (s.rig.out o).transmit = .sending q last) (hdue : (s.time - last).toNat < 2 ^ 31)
    {urgent : List Urgent} {bulk : List BulkPlace} (h : LineLeaves (s.rig.out o) q urgent bulk) :
    exec (.transmissionComplete o) s = .next (s.setRig
      ((if (s.rig.out o).enabled = true ∧ urgent.length ≤ 24 then
          (s.rig.setOut o (leftOut (s.rig.out o) urgent bulk)).settle s.moment o
        else s.rig.setOut o (leftOut (s.rig.out o) urgent bulk)).startLine s.moment o)) := by
  have hexec : exec (.transmissionComplete o) s = .next (s.lineDue o) := whenLive_of_live (fun s => s.lineDue o) hl
  have hreached : s.rig.lineDue s.time o = true := by
    unfold Rig.lineDue
    rw [hline]
    exact decide_eq_true hdue
  have hleft := LineLeaves.completeHead h hline
  rw [hexec, State.lineDue, if_pos hreached]
  congr 2
  unfold Rig.completeLine
  rw [hline]
  dsimp only
  rw [hleft]
  refine congrArg (fun r => Rig.startLine r s.moment o) (if_congr ?_ rfl rfl)
  rw [Bool.and_eq_true]
  exact and_congr_right fun _ => decide_eq_true_iff

/-- A busy line goes on. -/
theorem Rig.startLine_of_sending {r : Rig} {o : Output} {q : LineQueue} {last : StageTime}
    (h : (r.out o).transmit = .sending q last) (m : Moment) : r.startLine m o = r := by
  unfold Rig.startLine
  dsimp only
  rw [h]

/-- What an output owes does not rest on its queues. -/
theorem owedEvents_setOut (r : Rig) (o p : Output) (x : OutPort) : owedEvents (r.setOut p x) o = owedEvents r o := rfl

theorem settledRig_desk (s : State) (o : Output) (urgent : List Urgent) (bulk : List BulkPlace) (es : List Urgent) :
    (settledRig s o urgent bulk es).desk =
      ((s.rig.setOut o (leftOut (s.rig.out o) urgent bulk)).appendAll s.moment o es).desk := by
  have h : ∀ r : Rig, es.foldl (fun r e => appendedRig s.time r o e) r = r.appendAll s.moment o es := by
    intro r
    refine List.foldl_ext _ _ _ fun r e _ => ?_
    rw [Rig.append_eq]
    rfl
  rw [settledRig, h]

/-- The instrument side changed but for its notes. -/
theorem State.setRig_frame {s : State} {r : Rig} (h : s.rig.sameNotes r) :
    SameBut [.desk, .outputs, .records] s (s.setRig r) ∧
      (r.records = s.rig.records → SameBut [.desk, .outputs] s (s.setRig r)) := by
  obtain ⟨ht, hp, hn⟩ := h
  refine ⟨fun b hb => ?_, fun hr b hb => ?_⟩
  · cases b with
    | table => exact ht
    | pedals => exact hp
    | legs => exact hn
    | desk | outputs | records => exact absurd (by decide) hb
    | _ => rfl
  · cases b with
    | table => exact ht
    | pedals => exact hp
    | legs => exact hn
    | records => exact hr
    | desk | outputs => exact absurd (by decide) hb
    | _ => rfl

/-- The end of an event where nothing is settled. -/
theorem transmissionCompletes_idle {s : State} (hl : s.live = true) {o : Output} {q : LineQueue} {last : StageTime}
    (hline : (s.rig.out o).transmit = .sending q last) (hdue : (s.time - last).toNat < 2 ^ 31)
    {urgent : List Urgent} {bulk : List BulkPlace} (h : LineLeaves (s.rig.out o) q urgent bulk)
    (hidle : (∀ c, (s.rig.chan o c).panicOwed = false ∧ (s.rig.chan o c).held = none) ∨
      24 < urgent.length ∨ (s.rig.out o).enabled = false) :
    ∃ t, exec (.transmissionComplete o) s = .next t ∧ SameBut [.desk, .outputs] s t ∧
      (∀ x, x ≠ o → t.rig.out x = s.rig.out x) ∧
      t.rig.out o = { s.rig.out o with
        urgent := urgent
        bulk := bulk
        transmit := nextTransmit s.time urgent bulk
        overflow := (s.rig.out o).overflow && !urgent.isEmpty
        critical := (s.rig.out o).critical && decide ((s.rig.out o).level < urgent.length) } ∧
      t.desk = if (urgent.head?.map Urgent.isNoteOn) = some true
        then s.desk.report .legsSent o.val else s.desk := by
  have hsettle : (if (s.rig.out o).enabled = true ∧ urgent.length ≤ 24 then
        (s.rig.setOut o (leftOut (s.rig.out o) urgent bulk)).settle s.moment o
      else s.rig.setOut o (leftOut (s.rig.out o) urgent bulk)) =
      s.rig.setOut o (leftOut (s.rig.out o) urgent bulk) := by
    split
    · rename_i hen
      obtain ⟨hon, hshort⟩ := hen
      have hnothing : ∀ c, (s.rig.chan o c).panicOwed = false ∧ (s.rig.chan o c).held = none := by
        refine hidle.resolve_right ?_
        rintro (hlong | hoff)
        · omega
        · simp [hon] at hoff
      exact Rig.settle_nothing (r := s.rig.setOut o (leftOut (s.rig.out o) urgent bulk)) (o := o)
        (fun c => hnothing c) s.moment
    · rfl
  have hexec := exec_transmissionComplete hl hline hdue h
  rw [hsettle, Rig.startLine_eq] at hexec
  refine ⟨_, hexec, (State.setRig_frame ?_).2 rfl, fun x hx => ?_, ?_, ?_⟩
  · exact ⟨rfl, rfl, rfl⟩
  · rw [State.setRig_rig, Rig.out_setDesk, Rig.out_setOut, if_neg hx, Rig.out_setOut, if_neg hx]
  · rw [State.setRig_rig, Rig.out_setDesk, Rig.out_setOut, if_pos rfl, Rig.out_setOut, if_pos rfl]
    rfl
  · rw [State.desk, State.setRig_rig, Rig.setDesk_desk, Rig.out_setOut, if_pos rfl]
    exact if_congr (and_iff_right rfl) rfl rfl

section
variable {s : State} {o : Output} {urgent : List Urgent} {bulk : List BulkPlace}

theorem leftRig_out (s : State) (o : Output) (urgent : List Urgent) (bulk : List BulkPlace) :
    (s.rig.setOut o (leftOut (s.rig.out o) urgent bulk)).out o = leftOut (s.rig.out o) urgent bulk := by
  rw [Rig.out_setOut, if_pos rfl]

/-- An output that has settled events is busy with the head of its urgent queue. -/
theorem leftOut_appended {es : List Urgent} (hes : es ≠ []) (now : StageTime) (q : OutPort) :
    appendedOut now (leftOut q urgent bulk) es = { q with
      urgent := urgent ++ es
      bulk := bulk
      transmit := nextTransmit now (urgent ++ es) bulk
      overflow := q.overflow && !urgent.isEmpty
      critical := (q.critical && decide (q.level < urgent.length)) ||
        decide (q.level < urgent.length + es.length) } := by
  rw [appendedOut, if_neg hes]
  rfl

theorem nextTransmit_urgent (now : StageTime) {es : List Urgent} (h : es ≠ []) (bulk : List BulkPlace) :
    ∃ last, nextTransmit now es bulk = .sending .urgent last := by
  obtain ⟨e, es, rfl⟩ := List.exists_cons_of_ne_nil h
  exact ⟨_, rfl⟩

theorem critical_or (critical : Bool) {level a b : Nat} (h : a ≤ b) :
    ((critical && decide (level < a)) || decide (level < b)) = decide (level < b) := by
  cases critical
  · rfl
  · by_cases hb : level < b
    · simp [hb]
    · have : ¬level < a := by omega
      simp [hb, this]

end

/-- The end of an event where all that is owed has room. -/
theorem transmissionCompletes_room {s : State} (hl : s.live = true) {o : Output} {q : LineQueue} {last : StageTime}
    (hline : (s.rig.out o).transmit = .sending q last) (hdue : (s.time - last).toNat < 2 ^ 31)
    {urgent : List Urgent} {bulk : List BulkPlace} (h : LineLeaves (s.rig.out o) q urgent bulk)
    (hen : (s.rig.out o).enabled = true) (hshort : urgent.length ≤ 24) (hes : owedEvents s.rig o ≠ [])
    (hroom : urgent.length + (owedEvents s.rig o).length ≤ 48) :
    ∃ t, exec (.transmissionComplete o) s = .next t ∧ SameBut [.desk, .outputs, .records] s t ∧
      (∀ x, x ≠ o → t.rig.out x = s.rig.out x) ∧
      t.rig.out o = { s.rig.out o with
        urgent := urgent ++ owedEvents s.rig o
        bulk := bulk
        transmit := nextTransmit s.time (urgent ++ owedEvents s.rig o) bulk
        overflow := (s.rig.out o).overflow && !urgent.isEmpty
        critical := decide ((s.rig.out o).level < (urgent ++ owedEvents s.rig o).length) } ∧
      t.desk = (settledRig s o urgent bulk (owedEvents s.rig o)).desk ∧
      ∀ x c, t.rig.chan x c = if x = o
        then { s.rig.chan o c with panicOwed := false, held := none } else s.rig.chan x c := by
  have hleft := leftRig_out s o urgent bulk
  have hexec := exec_transmissionComplete hl hline hdue h
  rw [if_pos ⟨hen, hshort⟩] at hexec
  have hsettles := Rig.settle_room (r := s.rig.setOut o (leftOut (s.rig.out o) urgent bulk)) (o := o)
    (by rw [hleft]; exact hen) (by rw [hleft]; exact hroom) s.moment
  rw [owedEvents_setOut] at hsettles
  generalize (s.rig.setOut o (leftOut (s.rig.out o) urgent bulk)).settle s.moment o = t at hexec hsettles
  obtain ⟨⟨ht, hp, hn⟩, hd, hout, hchan⟩ := hsettles
  have hq : t.out o = _ := (hout o).trans (if_pos rfl)
  rw [hleft, leftOut_appended hes] at hq
  obtain ⟨busy, hbusy⟩ := nextTransmit_urgent s.time (es := urgent ++ owedEvents s.rig o) (by simp [hes]) bulk
  rw [Rig.startLine_of_sending (by rw [hq]; exact hbusy)] at hexec
  refine ⟨_, hexec, (State.setRig_frame ⟨ht, hp, hn⟩).1, fun x hx => ?_, ?_, ?_, fun x c => ?_⟩
  · rw [State.setRig_rig, hout, if_neg hx, Rig.out_setOut, if_neg hx]
  · rw [State.setRig_rig, hq, critical_or _ (Nat.le_add_right _ _), List.length_append]
    rfl
  · rw [State.desk, State.setRig_rig, hd, settledRig_desk]
  · rw [State.setRig_rig, hchan, Rig.chan_setOut]
    split
    · rename_i hx
      rw [hx, settledRec_owedEvents]
    · rfl

/-- How many events stay when note-ons leave. -/
theorem withoutNoteOns_length (k : Nat) (es : List Urgent) :
    (withoutNoteOns k es).length + min k (noteOnsIn es).length = es.length := by
  induction es generalizing k with
  | nil => cases k <;> simp [withoutNoteOns, noteOnsIn]
  | cons e es ih =>
    cases k with
    | zero => simp [withoutNoteOns]
    | succ k =>
      have hrest := ih (k + 1)
      have hnext := ih k
      cases e with
      | noteOn c x v l =>
        simp only [withoutNoteOns, Urgent.isNoteOn, if_true, noteOnsIn, List.filterMap_cons, List.length_cons] at hnext ⊢
        omega
      | noteOff c x =>
        simp only [withoutNoteOns, Urgent.isNoteOn, Bool.false_eq_true, if_false, noteOnsIn, List.filterMap_cons,
          List.length_cons] at hrest ⊢
        omega
      | program c p x =>
        simp only [withoutNoteOns, Urgent.isNoteOn, Bool.false_eq_true, if_false, noteOnsIn, List.filterMap_cons,
          List.length_cons] at hrest ⊢
        omega
      | allNotesOff c =>
        simp only [withoutNoteOns, Urgent.isNoteOn, Bool.false_eq_true, if_false, noteOnsIn, List.filterMap_cons,
          List.length_cons] at hrest ⊢
        omega

/-- The end of an event where the queue fills while what is owed is settled. -/
theorem transmissionCompletes_full {s : State} (hl : s.live = true) {o : Output} {q : LineQueue} {last : StageTime}
    (hline : (s.rig.out o).transmit = .sending q last) (hdue : (s.time - last).toNat < 2 ^ 31)
    {urgent : List Urgent} {bulk : List BulkPlace} (h : LineLeaves (s.rig.out o) q urgent bulk)
    (hen : (s.rig.out o).enabled = true) (hshort : urgent.length ≤ 24)
    (hfull : 48 < urgent.length + (owedEvents s.rig o).length) (hcalm : s.rig.Calm) {k : Nat}
    {gone : List (Chan × Nat)} {taken : List Urgent}
    (hk : k = min (noteOnsIn (urgent.drop 1)).length (urgent.length + (owedEvents s.rig o).length - 48))
    (hgone : gone = (noteOnsIn (urgent.drop 1)).take k)
    (htaken : taken = (owedEvents s.rig o).take (48 - urgent.length + k)) :
    ∃ t, exec (.transmissionComplete o) s = .next t ∧ SameBut [.desk, .outputs, .records, .table] s t ∧
      (∀ x, x ≠ o → t.rig.out x = s.rig.out x) ∧
      t.rig.out o = { s.rig.out o with
        urgent := urgent.take 1 ++ withoutNoteOns k (urgent.drop 1) ++ taken
        bulk := bulk
        transmit := nextTransmit s.time urgent bulk
        overflow := decide (k ≠ 0) || ((s.rig.out o).overflow && !urgent.isEmpty)
        critical := decide ((s.rig.out o).level < 48) } ∧
      t.rig.table = unsend (gone.map Prod.snd) s.rig.table ∧
      t.desk = (gone.foldl (discardTold s.time o)
        ((settledRig s o urgent bulk ((owedEvents s.rig o).take (48 - urgent.length))).desk,
          (s.rig.out o).overflow && !urgent.isEmpty)).1 ∧
      ∀ x c, t.rig.chan x c = { (if x = o then settledRec taken c (s.rig.chan x c) else s.rig.chan x c) with
        sounding := (s.rig.chan x c).sounding - sentAmong (gone.map Prod.snd) s.rig.table x c } := by
  have hleft := leftRig_out s o urgent bulk
  have hexec := exec_transmissionComplete hl hline hdue h
  rw [if_pos ⟨hen, hshort⟩] at hexec
  generalize hr₀ : s.rig.setOut o (leftOut (s.rig.out o) urgent bulk) = r₀ at hleft hexec
  have h32 := owedEvents_length s.rig o
  have howed₀ : owedEvents r₀ o = owedEvents s.rig o := hr₀ ▸ rfl
  have hcalm₀ : r₀.Calm := hr₀ ▸ ⟨hcalm.pending, hcalm.legs⟩
  have hen₀ : (r₀.out o).enabled = true := by rw [hleft]; exact hen
  have howed : ∀ e ∈ owedEvents s.rig o, e.Owed := fun e he => owedEvents_owed he
  rw [Rig.settle_calm hcalm₀ hen₀, howed₀] at hexec
  -- what has room, what takes the place of a note-on, and what is refused
  generalize hroom : (owedEvents s.rig o).take (48 - urgent.length) = room at *
  generalize hrest : (owedEvents s.rig o).drop (48 - urgent.length) = rest at *
  have hsplit : owedEvents s.rig o = room ++ rest := by rw [← hroom, ← hrest, List.take_append_drop]
  have hroomlen : room.length = 48 - urgent.length := by rw [← hroom, List.length_take]; omega
  have hrestlen : rest.length = urgent.length + (owedEvents s.rig o).length - 48 := by
    rw [← hrest, List.length_drop]; omega
  have htaken' : taken = room ++ rest.take k := by
    rw [htaken, List.take_add, hroom, hrest]
  rw [hsplit, List.foldl_append, ← List.take_append_drop k rest, List.foldl_append] at hexec
  obtain ⟨head, tail, rfl⟩ := List.exists_cons_of_length_pos (l := urgent) (by omega)
  have hroomne : room ≠ [] := List.ne_nil_of_length_pos (by omega)
  rw [List.drop_one, List.tail_cons] at hk hgone
  have hquiet : ∀ e ∈ room, e.isNoteOn = false := fun e he =>
    (howed e (hsplit ▸ List.mem_append_left _ he)).quiet
  have hons : noteOnsIn (tail ++ room) = noteOnsIn tail := by
    rw [noteOnsIn_append, noteOnsIn_quiet hquiet, List.append_nil]
  have hklen : (rest.take k).length = k := by rw [List.length_take]; omega
  -- the appends that have room
  have first := Rig.settleAll_room (r := r₀) (o := o) (es := room)
    (fun e he => howed e (hsplit ▸ List.mem_append_left _ he)) hen₀ (by rw [hleft]; simp only [leftOut]; omega) s.moment
  generalize room.foldl (fun r e => r.settleOne s.moment o e) r₀ = r₁ at hexec first
  obtain ⟨⟨ht₁, hp₁, hn₁⟩, hd₁, hout₁, hchan₁⟩ := first
  obtain ⟨busy, hbusy⟩ := nextTransmit_urgent s.time (es := head :: tail) (by simp) bulk
  have hq₁ : r₁.out o = { s.rig.out o with
      urgent := head :: (tail ++ room)
      bulk := bulk
      transmit := .sending .urgent busy
      overflow := (s.rig.out o).overflow && !(head :: tail).isEmpty
      critical := decide ((s.rig.out o).level < 48) } := by
    have hall : (head :: tail).length + room.length = 48 := by omega
    rw [hout₁, if_pos rfl, hleft, leftOut_appended hroomne, nextTransmit_append _ (by simp),
      critical_or _ (Nat.le_add_right _ _), hall, ← hbusy]
    rfl
  have hcalm₁ : r₁.Calm := hcalm₀.of_unsend (ids := []) (by rw [ht₁, unsend_nil]) fun x c => by
    rw [hchan₁]
    split <;> rfl
  have htable₁ : r₁.table = s.rig.table := ht₁.trans (hr₀ ▸ rfl)
  have hlen₁ : (r₁.out o).urgent.length = 48 := by
    rw [hq₁]
    simp only [List.length_cons, List.length_append] at hroomlen hshort ⊢
    omega
  -- the offers that take the place of a note-on
  have second := Rig.settleAll_full (es := rest.take k) (tail := tail ++ room) (head := head) (last := busy)
    (fun e he => howed e (hsplit ▸ List.mem_append_right _ (List.mem_of_mem_take he))) hcalm₁ (by rw [hq₁]; exact hen)
    (by rw [hq₁]) hlen₁ (by rw [hq₁]) (by rw [hons, hklen]; omega) s.moment
  generalize (rest.take k).foldl (fun r e => r.settleOne s.moment o e) r₁ = r₂ at hexec second
  obtain ⟨ht₂, hp₂, hn₂, hd₂, hout₂, hchan₂⟩ := second
  rw [hons, hklen, ← hgone] at ht₂ hd₂ hchan₂
  have hq₂ : r₂.out o = { s.rig.out o with
      urgent := head :: (withoutNoteOns k tail ++ room ++ rest.take k)
      bulk := bulk
      transmit := .sending .urgent busy
      overflow := decide (k ≠ 0) || ((s.rig.out o).overflow && !(head :: tail).isEmpty)
      critical := decide ((s.rig.out o).level < 48) } := by
    have hmade : decide (rest.take k ≠ []) = decide (k ≠ 0) :=
      decide_eq_decide.mpr (not_congr (List.length_eq_zero_iff.symm.trans (by rw [hklen])))
    rw [hout₂, if_pos rfl, hklen, hq₁, withoutNoteOns_append hquiet, hmade]
  have hchan : ∀ x c, r₂.chan x c = { (if x = o then settledRec taken c (s.rig.chan x c) else s.rig.chan x c) with
      sounding := (s.rig.chan x c).sounding - sentAmong (gone.map Prod.snd) s.rig.table x c } := fun x c => by
    have hx : r₀.chan x c = s.rig.chan x c := hr₀ ▸ rfl
    rw [hchan₂, hchan₁, hx, htable₁, htaken']
    by_cases hxo : x = o
    · rw [if_pos hxo, if_pos hxo, if_pos hxo, settledRec_append]
      rfl
    · rw [if_neg hxo, if_neg hxo, if_neg hxo]
  -- what is refused
  have third : (rest.drop k).foldl (fun r e => r.settleOne s.moment o e) r₂ = r₂ := by
    by_cases hnone : rest.drop k = []
    · rw [hnone]
      rfl
    · have hkmin : k = (noteOnsIn tail).length := by
        have := List.length_pos_iff.mpr hnone
        rw [List.length_drop] at this
        omega
      have hexhausted : noteOnsIn (withoutNoteOns k tail ++ room ++ rest.take k) = [] := by
        rw [noteOnsIn_append, noteOnsIn_append, noteOnsIn_withoutNoteOns, noteOnsIn_quiet hquiet, hkmin,
          List.drop_length, noteOnsIn_quiet]
        · rfl
        · exact fun e he => (howed e (hsplit ▸ List.mem_append_right _ (List.mem_of_mem_take he))).quiet
      refine Rig.settleAll_refused (fun e he => ?_) (by rw [hq₂]; exact hen) ?_ (OutPort.discardable_none ?_) s.moment
      · refine owed_behind (r := s.rig) (o := o) (before := taken) (later := rest.drop k) ?_ he fun c => ?_
        · rw [htaken', hsplit, List.append_assoc, List.take_append_drop]
        · rw [hchan, if_pos rfl]
          exact ⟨rfl, rfl⟩
      · have hleftover := withoutNoteOns_length k tail
        rw [hq₂]
        simp only [List.length_cons, List.length_append, hklen] at hroomlen hshort ⊢
        omega
      · rw [hq₂]
        exact quiet_of_noteOnsIn hexhausted
  rw [third, Rig.startLine_of_sending (by rw [hq₂])] at hexec
  refine ⟨_, hexec, fun b hb => ?_, fun x hx => ?_, ?_, ?_, ?_, hchan⟩
  · have hp₀ : r₀.pedals = s.rig.pedals := hr₀ ▸ rfl
    have hn₀ : r₀.nextLeg = s.rig.nextLeg := hr₀ ▸ rfl
    cases b with
    | pedals => exact hp₂.trans (hp₁.trans hp₀)
    | legs => exact hn₂.trans (hn₁.trans hn₀)
    | desk | outputs | records | table => exact absurd (by decide) hb
    | _ => rfl
  · have hx₀ : r₀.out x = s.rig.out x := by rw [← hr₀, Rig.out_setOut, if_neg hx]
    rw [State.setRig_rig, hout₂, if_neg hx, hout₁, if_neg hx, hx₀]
  · rw [State.setRig_rig, hq₂, htaken', hbusy]
    simp
  · rw [State.setRig_rig, ht₂, htable₁]
  · rw [State.desk, State.setRig_rig, hd₂, hd₁, settledRig_desk, hr₀, hq₁]
    rfl

/-- Settles O45: the offers, the discards, and the end of a transmission by what its output owes. -/
theorem transmissionCompletes : Obligations.TransmissionCompletes := by
  refine ⟨queueOffers, discardSettles, fun s o q last hl hline => ⟨fun hearly => ?_, fun hdue urgent bulk h =>
    ⟨fun hidle => transmissionCompletes_idle hl hline hdue h hidle, fun hen hshort hes hroom =>
      transmissionCompletes_room hl hline hdue h hen hshort hes hroom, ?_⟩⟩⟩
  · have hnot : s.rig.lineDue s.time o = false := by
      unfold Rig.lineDue
      rw [hline]
      exact not_reached hearly
    have hexec : exec (.transmissionComplete o) s = .next (s.lineDue o) := whenLive_of_live (fun s => s.lineDue o) hl
    rw [hexec, State.lineDue, hnot]
    rfl
  · intro hen hshort hfull hpending hlegs k gone taken hk hgone htaken
    obtain ⟨t, hexec, hsame, hother, hout, htable, hdesk, hchan⟩ :=
      transmissionCompletes_full hl hline hdue h hen hshort hfull ⟨hpending, hlegs⟩ hk hgone htaken
    refine ⟨t, hexec, hsame, hother, hout, htable, hdesk, fun x c => ?_⟩
    rw [hchan]
    by_cases hx : x = o
    · simp only [settledRec, hx, true_and, decide_true, Bool.true_and]
      rfl
    · simp only [if_neg hx, hx, false_and, if_false, decide_false, Bool.false_and, Bool.not_false, Bool.and_true]
      rfl

end Sys2Proof.Machine
end

section
/-! Song selects and scene requests of origin CUE (O51). -/
namespace Sys2Proof.Machine

/-! ### What a request resolves to (R100, R101) -/

theorem Resolves.resolve {s : State} {rank : Nat} {ask : SceneAsk} {song scene : Nat}
    (h : Resolves s rank ask song scene) : s.resolve rank ask = .ok (song, scene) := by
  cases h with
  | song song scene => rfl
  | scene c scene hc => simp only [State.resolve, hc]
  | nextFirst hb => simp only [State.resolve, hb, State.resolveNext]
  | nextWithin song scene hb hlt => simp only [State.resolve, hb, State.resolveNext, if_pos hlt]
  | nextSong song scene hb hle hlt =>
    simp only [State.resolve, hb, State.resolveNext, if_neg (Nat.not_lt.mpr hle), if_pos hlt]
  | prevWithin song scene hb => simp [State.resolve, hb, State.resolvePrev]
  | prevSong song scene hb hc => simp [State.resolve, hb, State.resolvePrev, hc]

theorem Unresolved.resolve {s : State} {rank : Nat} {ask : SceneAsk} {st : Status}
    (h : Unresolved s rank ask st) : s.resolve rank ask = .error st := by
  cases h with
  | scene scene hc => simp only [State.resolve, hc]
  | next song scene hb hscenes hsongs =>
    simp only [State.resolve, hb, State.resolveNext, if_neg (Nat.not_lt.mpr hscenes), if_neg (Nat.not_lt.mpr hsongs)]
  | prevNone hb => simp only [State.resolve, hb, State.resolvePrev]
  | prevFirst hb => simp [State.resolve, hb, State.resolvePrev]
  | prevEmpty song hb hc => simp [State.resolve, hb, State.resolvePrev, hc]

/-! ### The checks of R97 -/

/-- CUE ranks as the panel does (R96). -/
theorem State.rank_cue (s : State) : s.rank .cue = s.rank .panelSide := by
  unfold State.rank rankOf
  cases s.mem.header.lead <;> rfl

section
variable {s : State} {g : Origin} {ask : SceneAsk}

theorem State.judge_show (hm : s.scene.mode = .showMode) : s.judge g ask = match s.resolve (s.rank g) ask with
    | .error st => .error ⟨st, none⟩
    | .ok t => s.checkTarget (s.rank g) t := if_neg (by simp [hm])

variable {rank song scene : Nat}

theorem State.checkTarget_range (h : s.mem.header.setlistLength ≤ song ∨ (s.mem.song song).sceneCount ≤ scene) :
    s.checkTarget rank (song, scene) = .error ⟨.range, some (song, scene)⟩ := if_pos (by simpa using h)

variable (hsong : song < s.mem.header.setlistLength) (hscene : scene < (s.mem.song song).sceneCount)
include hsong hscene

theorem State.checkTarget_already {c : Target} (hc : s.scene.current = some c) (h1 : c.song = song)
    (h2 : c.scene = scene) : s.checkTarget rank (song, scene) = .error ⟨.already, some (song, scene)⟩ := by
  rw [State.checkTarget, if_neg (by simp; omega), if_pos (by simp [hc, h1, h2])]

variable (hnew : ∀ c, s.scene.current = some c → ¬(c.song = song ∧ c.scene = scene))
include hnew

theorem State.checkTarget_slot : s.checkTarget rank (song, scene) = match s.scene.staged with
    | some c => if rank < c.rank then .error ⟨.outranked, some (song, scene)⟩ else .ok (song, scene)
    | none => .ok (song, scene) := by
  have hin : ¬(s.mem.header.setlistLength ≤ song || (s.mem.song song).sceneCount ≤ scene) = true := by simp; omega
  have hother : ¬s.scene.current.map (fun c => (c.song, c.scene)) = some (song, scene) := by
    intro h
    obtain ⟨c, hc, hcs⟩ := Option.map_eq_some_iff.mp h
    exact hnew c hc (by simpa using hcs)
  unfold State.checkTarget
  exact (if_neg hin).trans (if_neg hother)

end

/-! ### Acceptance (R95 to R98) -/

/-- An accepted request: its change in the slot, and a change that it displaces reported. -/
theorem State.accept_spec (s : State) (g : Origin) (song scene : Nat) (q : Option Quantize) (tag : Byte) :
    SameBut [.mem, .desk, .router, .scene] s (s.accept g (song, scene) q tag) ∧
      (s.accept g (song, scene) q tag).scene = { s.scene with staged := some (changeOf s g song scene q tag) } ∧
      (s.accept g (song, scene) q tag).mem = { s.mem with
        underCopy := some ⟨(changeOf s g song scene q tag).target.record,
          (changeOf s g song scene q tag).copy.layerFirst, (changeOf s g song scene q tag).copy.layerCount⟩ } ∧
      (s.accept g (song, scene) q tag).router =
        ⟨s.router.active, [], .filling, (changeOf s g song scene q tag).copy.echo, s.router.echo⟩ ∧
      (s.scene.staged = none → (s.accept g (song, scene) q tag).desk = s.desk) ∧
      ∀ c, s.scene.staged = some c → (s.accept g (song, scene) q tag).desk = supersededDesk s s.desk c .replaced := by
  have stage : ∀ (u : State) (d : Desk), u = s ∨ u = s.dropStaged.setDesk d →
      SameBut [.mem, .desk, .router, .scene] s (u.stage g (song, scene) q tag) ∧
      (u.stage g (song, scene) q tag).scene = { s.scene with staged := some (changeOf s g song scene q tag) } ∧
      (u.stage g (song, scene) q tag).mem = { s.mem with
        underCopy := some ⟨(changeOf s g song scene q tag).target.record,
          (changeOf s g song scene q tag).copy.layerFirst, (changeOf s g song scene q tag).copy.layerCount⟩ } ∧
      (u.stage g (song, scene) q tag).router =
        ⟨s.router.active, [], .filling, (changeOf s g song scene q tag).copy.echo, s.router.echo⟩ := by
    rintro u d (rfl | rfl)
    · refine ⟨fun b hb => ?_, rfl, rfl, rfl⟩
      cases b with
      | mem | desk | router | scene => exact absurd (by decide) hb
      | _ => rfl
    · refine ⟨fun b hb => ?_, rfl, rfl, rfl⟩
      cases b with
      | mem | desk | router | scene => exact absurd (by decide) hb
      | _ => rfl
  unfold State.accept
  dsimp only
  cases hs : s.scene.staged with
  | none =>
    obtain ⟨h1, h2, h3, h4⟩ := stage s s.desk (.inl rfl)
    exact ⟨h1, h2, h3, h4, fun _ => rfl, nofun⟩
  | some c =>
    have hdrop : s.dropStaged.reportSuperseded c .replaced =
        s.dropStaged.setDesk (supersededDesk s s.desk c .replaced) := rfl
    dsimp only
    rw [hdrop]
    obtain ⟨h1, h2, h3, h4⟩ := stage _ (supersededDesk s s.desk c .replaced) (.inr rfl)
    refine ⟨h1, h2, h3, h4, nofun, fun d hd => ?_⟩
    rw [← Option.some.inj hd]
    rfl

/-! ### Requests of origin CUE (R56, R99) -/

theorem cueRefuses_of_judge {u : State} {ask : SceneAsk} {tag : Byte} {target : Option (Nat × Nat)} {st : Status}
    (h : u.judge .cue ask = .error ⟨st, target⟩) : CueRefuses u ask tag target st := by
  have hc : u.cueRequest ask tag = u.recordRefused .cue target (.refusal st) tag := by
    rw [State.cueRequest, h]
  rw [CueRefuses, hc]
  exact ⟨u.record_sameBut _, rfl⟩

theorem cueRequests : CueRequests := by
  intro u ask tag hm
  have hjudge := State.judge_show (g := .cue) (ask := ask) hm
  rw [u.rank_cue] at hjudge
  refine ⟨fun st h => cueRefuses_of_judge (by rw [hjudge, h.resolve]), fun song scene h => ?_⟩
  rw [h.resolve] at hjudge
  dsimp only at hjudge
  refine ⟨fun hrange => cueRefuses_of_judge (by rw [hjudge, State.checkTarget_range hrange]),
    fun hsong hscene => ⟨fun c hc h1 h2 => cueRefuses_of_judge
      (by rw [hjudge, State.checkTarget_already hsong hscene hc h1 h2]), fun hnew => ?_⟩⟩
  rw [State.checkTarget_slot hsong hscene hnew] at hjudge
  refine ⟨fun c hc hlow => cueRefuses_of_judge (by rw [hjudge, hc]; exact if_pos hlow), fun hfree t change ht hch => ?_⟩
  have hok : u.judge .cue ask = .ok (song, scene) := by
    rw [hjudge]
    cases hs : u.scene.staged with
    | none => rfl
    | some c => exact if_neg (Nat.not_lt.mpr (hfree c hs))
  have hc : u.cueRequest ask tag = u.accept .cue (song, scene) none tag := by
    rw [State.cueRequest, hok]
  subst ht hch
  rw [hc]
  obtain ⟨h1, h2, h3, h4, h5, h6⟩ := u.accept_spec .cue song scene none tag
  exact ⟨h1, u.rank_cue, h2, h3, h4, h5, h6⟩

/-! ### Song selects (R27) -/

theorem State.arrived_frame (s : State) (n : Input) (kind : ChannelKind) (c : Chan) (x : Seven) :
    (s.arrived n kind c x).mem = s.mem ∧ (s.arrived n kind c x).scene = s.scene ∧
      (s.arrived n kind c x).router = s.router ∧ (s.arrived n kind c x).time = s.time ∧
      (s.arrived n kind c x).rig = s.rig.setDesk (arrivedDesk s n kind c x) := ⟨rfl, rfl, rfl, rfl, rfl⟩

/-- A PROGRAM event that is no song select is consumed. -/
theorem State.songSelect_consumed {s : State} {n : Input} {c : Chan} {program : Seven}
    (h : s.scene.mode = .setupMode ∨ s.mem.header.songSelect ≠ some (c.val + 1)) :
    s.eventArrives n .program c program program = s.arrived n .program c program := by
  rw [State.eventArrives_eq]
  cases hm : s.scene.mode with
  | setupMode => exact State.deliver_setup (s := s.arrived n .program c program) hm n c _
  | showMode =>
    have hother : s.mem.header.songSelect ≠ some (c.val + 1) := h.resolve_left (by simp [hm])
    rw [State.deliver_show (s := s.arrived n .program c program) hm]
    exact if_neg hother

/-- A PROGRAM event in SHOW on the song-select channel is a song select. -/
theorem State.songSelect_taken {s : State} {n : Input} {c : Chan} {program : Seven}
    (hm : s.scene.mode = .showMode) (h : s.mem.header.songSelect = some (c.val + 1)) :
    s.eventArrives n .program c program program = (s.arrived n .program c program).songSelect program := by
  rw [State.eventArrives_eq, State.deliver_show (s := s.arrived n .program c program) hm]
  exact if_pos h

/-- Settles O51: the checks of R97 on a request of origin CUE, and the song selects that make one. -/
theorem songSelectRule : Obligations.SongSelectRule := by
  refine ⟨cueRequests, fun s n c program hl => ⟨fun h => ?_, fun hm h => ?_⟩⟩
  · rw [exec_songSelect hl, State.songSelect_consumed h]
    exact ⟨_, rfl, s.arrived_onlyArrives n .program c program⟩
  rw [exec_songSelect hl, State.songSelect_taken hm h]
  have harr := s.arrived_onlyArrives n .program c program
  obtain ⟨hsame, hdesk, -⟩ := id harr
  have within : program.val < s.mem.header.setlistLength →
      (s.arrived n .program c program).songSelect program =
        (s.arrived n .program c program).cueRequest (.song program.val 0) 0 := fun hlt => if_neg (Nat.not_le.mpr hlt)
  refine ⟨fun hbeyond => ⟨_, rfl, ?_⟩, fun hlt hscenes hnew hnone => ⟨_, rfl, ?_⟩,
    fun hlt => ⟨_, harr, by rw [within hlt]⟩⟩
  · have hrec : (s.arrived n .program c program).songSelect program = (s.arrived n .program c program).record
        { emptyRecord s.time .changeRefused with
          origin := some .cue, song := some program.val, generation := some s.scene.generation
          detail := some (.refused (.refusal .range)) } := if_pos hbeyond
    rw [hrec]
    refine ⟨hsame.trans ((State.record_sameBut _ _).mono (by simp)), ?_⟩
    rw [State.record, State.setDesk_desk, hdesk]
    rfl
  · rw [within hlt]
    obtain ⟨-, hresolved⟩ := cueRequests (s.arrived n .program c program) (.song program.val 0) 0 hm
    obtain ⟨-, haccept⟩ := hresolved program.val 0 (.song program.val 0)
    obtain ⟨-, haccept⟩ := haccept hlt hscenes
    obtain ⟨-, haccept⟩ := haccept hnew
    obtain ⟨k1, -, k2, -, k3, k4, -⟩ := haccept (fun c hc => absurd (hnone.symm.trans hc) nofun) _ _ rfl rfl
    refine ⟨(hsame.mono (by simp)).trans (k1.mono (by simp)), (k4 hnone).trans hdesk, k2, ?_⟩
    rw [k3]

end Sys2Proof.Machine
end

section
/-! Continuous events (O50): the offers to a bulk queue, the deliveries in order, and the place that a delivery
with room leaves. -/
namespace Sys2Proof.Machine

/-! ### An offer to a bulk queue, branch by branch (R38) -/

section
variable (r : Rig) (m : Moment) (o : Output) (kind : ContinuousKind) (c : Chan) (v : Fourteen)

theorem Rig.offerBulk_disabled (he : (r.out o).enabled = false) : r.offerBulk m o kind c v = r := by
  rw [Rig.offerBulk]
  exact if_neg (by simp [he])

variable (he : (r.out o).enabled = true)
include he

theorem Rig.offerBulk_waiting (hw : (r.out o).bulkWaiting.any (·.sameAs kind c) = true) :
    r.offerBulk m o kind c v = { r.setOut o { r.out o with
        bulk := (r.out o).bulkSending ++ coalesceValue kind c v (r.out o).bulkWaiting } with
      desk := r.desk.report .coalesced o.val } := by
  rw [Rig.offerBulk]
  dsimp only
  rw [if_pos he, if_pos hw]
  rfl

variable (hw : (r.out o).bulkWaiting.any (·.sameAs kind c) = false)
include hw

theorem Rig.offerBulk_onLine (hs : (r.out o).bulkSending.any (·.sameAs kind c) = true) :
    r.offerBulk m o kind c v = { r.setOut o { r.out o with
        bulk := (r.out o).bulkSending.map (fun b => { b with followUp := some v }) ++ (r.out o).bulkWaiting } with
      desk := r.desk.report .coalesced o.val } := by
  rw [Rig.offerBulk]
  dsimp only
  rw [if_pos he, if_neg (by simp [hw]), if_pos hs]
  rfl

variable (hs : (r.out o).bulkSending.any (·.sameAs kind c) = false)
include hs

theorem Rig.offerBulk_append (hroom : (r.out o).bulk.length < 32) :
    r.offerBulk m o kind c v =
      (r.setOut o { r.out o with bulk := (r.out o).bulk ++ [⟨kind, c, v, none⟩] }).startLine m o := by
  rw [Rig.offerBulk]
  dsimp only
  rw [if_pos he, if_neg (by simp [hw]), if_neg (by simp [hs]), if_pos hroom]

theorem Rig.offerBulk_full (hfull : 32 ≤ (r.out o).bulk.length) :
    r.offerBulk m o kind c v =
      ((r.setOut o { r.out o with
        bulk := (r.out o).bulkSending ++ (r.out o).bulkWaiting.drop 1 ++ [⟨kind, c, v, none⟩] }).report
        .queueDiscards o.val).startLine m o := by
  rw [Rig.offerBulk]
  dsimp only
  rw [if_pos he, if_neg (by simp [hw]), if_neg (by simp [hs]), if_neg (Nat.not_lt.mpr hfull)]

end

/-! ### The rule of a bulk queue -/

theorem coalesceValue_fresh {kind : ContinuousKind} {c : Chan} {l : List BulkPlace}
    (h : ∀ x ∈ l, ¬(x.kind = kind ∧ x.channel = c)) (v : Fourteen) : coalesceValue kind c v l = l := by
  refine (List.map_congr_left fun x hx => ?_).trans (List.map_id l)
  exact if_neg (by simpa [BulkPlace.sameAs] using h x hx)

theorem any_sameAs_fresh {kind : ContinuousKind} {c : Chan} {l : List BulkPlace}
    (h : ∀ x ∈ l, ¬(x.kind = kind ∧ x.channel = c)) : l.any (·.sameAs kind c) = false := by
  simpa [BulkPlace.sameAs] using h

theorem OutPort.bulkWaiting_subset (q : OutPort) : q.bulkWaiting ⊆ q.bulk := by
  rw [← q.bulkSending_append_bulkWaiting]
  exact List.subset_append_right _ _

theorem OutPort.bulkSending_subset (q : OutPort) : q.bulkSending ⊆ q.bulk := by
  conv_rhs => rw [← q.bulkSending_append_bulkWaiting]
  exact List.subset_append_left _ _

/-- The line after a place has been added behind what was there: a line that was idle with no urgent event begins
the head. -/
theorem Rig.startLine_bulkAdded (r : Rig) (m : Moment) (o : Output) (bulk : List BulkPlace) (b : BulkPlace)
    (hidle : (r.out o).transmit = .idle → (r.out o).urgent = []) :
    (r.setOut o { r.out o with bulk := bulk ++ [b] }).startLine m o =
      r.setOut o (bulkAdded (r.out o) m.now bulk b) := by
  have hdesk : ¬((r.out o).transmit = .idle ∧ (r.out o).urgent.head?.map Urgent.isNoteOn = some true) := by
    rintro ⟨ht, hh⟩
    rw [hidle ht] at hh
    exact absurd hh nofun
  rw [Rig.startLine_eq, Rig.out_setOut, if_pos rfl, if_neg hdesk, Rig.setOut_setOut]
  rfl

theorem bulkOffers : BulkOffers := by
  rintro r m o kind c v q rfl
  refine ⟨r.offerBulk_disabled m o kind c v, fun he => ⟨?_, ?_, fun hfresh hidle => ?_⟩⟩
  · intro before b later hq hbefore rfl rfl hother
    have hb : coalesceValue b.kind b.channel v [b] = [{ b with value := v }] := by
      simp [coalesceValue, BulkPlace.sameAs]
    have hsplit : ∀ sending front, before = sending ++ front →
        (r.out o).bulkSending = sending → (r.out o).bulkWaiting = front ++ b :: later →
        r.offerBulk m o b.kind b.channel v =
          { r.setOut o { r.out o with bulk := before ++ { b with value := v } :: later } with
            desk := r.desk.report .coalesced o.val } := by
      rintro sending front rfl hs hw
      have hco : coalesceValue b.kind b.channel v (front ++ b :: later) = front ++ { b with value := v } :: later := by
        have happ : coalesceValue b.kind b.channel v (front ++ b :: later) =
            coalesceValue b.kind b.channel v front ++
              (coalesceValue b.kind b.channel v [b] ++ coalesceValue b.kind b.channel v later) := by
          simp [coalesceValue]
        rw [happ, hb, coalesceValue_fresh fun x hx => hother x (by simp [hx]),
          coalesceValue_fresh fun x hx => hother x (by simp [hx])]
        rfl
      rw [r.offerBulk_waiting m o _ _ v he (by simp [hw, BulkPlace.sameAs]), hs, hw, hco, List.append_assoc]
    by_cases hline : (r.out o).bulkOnLine = true
    · obtain ⟨x, front, rfl⟩ := List.exists_cons_of_ne_nil (hbefore hline)
      exact hsplit [x] front rfl (by simp [OutPort.bulkSending, hline, hq]) (by simp [OutPort.bulkWaiting, hline, hq])
    · exact hsplit [] before rfl (by simp [OutPort.bulkSending, hline]) (by simp [OutPort.bulkWaiting, hline, hq])
  · intro b later hq hline rfl rfl hother
    have hs : (r.out o).bulkSending = [b] := by simp [OutPort.bulkSending, hline, hq]
    have hw : (r.out o).bulkWaiting = later := by simp [OutPort.bulkWaiting, hline, hq]
    rw [r.offerBulk_onLine m o _ _ v he (by rw [hw]; exact any_sameAs_fresh hother)
      (by simp [hs, BulkPlace.sameAs]), hs, hw]
    rfl
  · have hw := any_sameAs_fresh fun x hx => hfresh x ((r.out o).bulkWaiting_subset hx)
    have hs := any_sameAs_fresh fun x hx => hfresh x ((r.out o).bulkSending_subset hx)
    refine ⟨fun hroom => ?_, fun hfull => ?_⟩
    · rw [r.offerBulk_append m o kind c v he hw hs hroom, r.startLine_bulkAdded m o _ _ hidle]
    · have hrest : (r.out o).bulkSending ++ (r.out o).bulkWaiting.drop 1 =
          if (r.out o).bulkOnLine then (r.out o).bulk.take 1 ++ (r.out o).bulk.drop 2 else (r.out o).bulk.drop 1 := by
        unfold OutPort.bulkSending OutPort.bulkWaiting
        by_cases hline : (r.out o).bulkOnLine = true <;> simp [hline]
      rw [r.offerBulk_full m o kind c v he hw hs hfull, hrest]
      exact (r.setDesk (r.desk.report .queueDiscards o.val)).startLine_bulkAdded m o _ _ hidle

/-! ### What an offer keeps, and the place it leaves -/

/-- A bulk queue gives a channel's kind a value: on the place, or as the follow-up of the one on the line. -/
def Carries (bulk : List BulkPlace) (kind : ContinuousKind) (c : Chan) (v : Fourteen) : Prop :=
  ∃ b ∈ bulk, b.kind = kind ∧ b.channel = c ∧ (b.value = v ∨ b.followUp = some v)

theorem Carries.mono {bulk more : List BulkPlace} {kind : ContinuousKind} {c : Chan} {v : Fourteen}
    (h : Carries bulk kind c v) (hsub : bulk ⊆ more) : Carries more kind c v := by
  obtain ⟨b, hb, hv⟩ := h
  exact ⟨b, hsub hb, hv⟩

theorem carries_append {a b : List BulkPlace} {kind : ContinuousKind} {c : Chan} {v : Fourteen} :
    Carries (a ++ b) kind c v ↔ Carries a kind c v ∨ Carries b kind c v := by
  simp only [Carries, List.mem_append, or_and_right, exists_or]

/-- An update of places that keeps their identities and a value already given. -/
theorem Carries.map {bulk : List BulkPlace} {kind : ContinuousKind} {c : Chan} {v : Fourteen} (h : Carries bulk kind c v)
    (f : BulkPlace → BulkPlace)
    (hf : ∀ b, (f b).kind = b.kind ∧ (f b).channel = b.channel ∧
      ((b.value = v ∨ b.followUp = some v) → ((f b).value = v ∨ (f b).followUp = some v))) :
    Carries (bulk.map f) kind c v := by
  obtain ⟨b, hb, hk, hc, hv⟩ := h
  obtain ⟨fk, fc, fv⟩ := hf b
  exact ⟨f b, List.mem_map_of_mem hb, fk.trans hk, fc.trans hc, fv hv⟩

theorem Rig.setOut_self (r : Rig) (o : Output) : r.setOut o (r.out o) = r := by
  rw [Rig.setOut, Rig.out]
  exact congrArg (fun v => { r with outputs := v }) (Vector.set_getElem_self _)

/-- An output after its bulk queue has been written and its line has had the chance to begin. -/
theorem Rig.startLine_bulk (r : Rig) (m : Moment) (o : Output) (bulk : List BulkPlace) :
    ∃ line desk, (r.setOut o { r.out o with bulk := bulk }).startLine m o =
      (r.setOut o { r.out o with bulk := bulk, transmit := line }).setDesk desk := by
  rw [Rig.startLine_eq, Rig.out_setOut, if_pos rfl, Rig.setOut_setOut]
  exact ⟨_, _, rfl⟩

/-- The effect of an offer on its output: the desk is told, the bulk queue and the line change, and nothing else;
with room the queue gains at most one place and keeps the values it gives, and an enabled output gives the value
offered. -/
theorem Rig.offerBulk_spec (r : Rig) (m : Moment) (o : Output) (kind : ContinuousKind) (c : Chan) (v : Fourteen) :
    ∃ bulk line desk, r.offerBulk m o kind c v =
        (r.setOut o { r.out o with bulk := bulk, transmit := line }).setDesk desk ∧
      ((r.out o).bulk.length < 32 →
        bulk.length ≤ (r.out o).bulk.length + 1 ∧
        (∀ d, Carries (r.out o).bulk kind d v → Carries bulk kind d v) ∧
        ((r.out o).enabled = true → Carries bulk kind c v)) := by
  have parts := (r.out o).bulkSending_append_bulkWaiting
  have hself : r = (r.setOut o (r.out o)).setDesk r.desk := by rw [Rig.setOut_self]; rfl
  by_cases he : (r.out o).enabled = true
  case neg =>
    refine ⟨(r.out o).bulk, (r.out o).transmit, r.desk, ?_, fun _ => ⟨Nat.le_succ _, fun d h => h, fun h => absurd h he⟩⟩
    rw [r.offerBulk_disabled m o kind c v (by simpa using he)]
    exact hself
  by_cases hw : (r.out o).bulkWaiting.any (·.sameAs kind c) = true
  · refine ⟨_, (r.out o).transmit, _, r.offerBulk_waiting m o kind c v he hw, fun _ => ⟨?_, fun d h => ?_, fun _ => ?_⟩⟩
    · rw [← parts]
      simp [coalesceValue]
    · rw [← parts] at h
      refine carries_append.mpr ((carries_append.mp h).imp_right fun h => h.map _ fun b => ?_)
      split
      · exact ⟨rfl, rfl, fun _ => .inl rfl⟩
      · exact ⟨rfl, rfl, id⟩
    · obtain ⟨b, hb, hsame⟩ := List.any_eq_true.mp hw
      obtain ⟨rfl, rfl⟩ : b.kind = kind ∧ b.channel = c := by simpa [BulkPlace.sameAs] using hsame
      exact ⟨{ b with value := v }, List.mem_append_right _ (List.mem_map.mpr ⟨b, hb, if_pos hsame⟩), rfl, rfl, .inl rfl⟩
  rw [Bool.not_eq_true] at hw
  by_cases hs : (r.out o).bulkSending.any (·.sameAs kind c) = true
  · refine ⟨_, (r.out o).transmit, _, r.offerBulk_onLine m o kind c v he hw hs, fun _ => ⟨?_, fun d h => ?_, fun _ => ?_⟩⟩
    · rw [← parts]
      simp
    · rw [← parts] at h
      exact carries_append.mpr ((carries_append.mp h).imp_left fun h => h.map _ fun b => ⟨rfl, rfl, fun _ => .inr rfl⟩)
    · obtain ⟨b, hb, hsame⟩ := List.any_eq_true.mp hs
      obtain ⟨rfl, rfl⟩ : b.kind = kind ∧ b.channel = c := by simpa [BulkPlace.sameAs] using hsame
      exact ⟨{ b with followUp := some v }, List.mem_append_left _ (List.mem_map.mpr ⟨b, hb, rfl⟩), rfl, rfl, .inr rfl⟩
  rw [Bool.not_eq_true] at hs
  by_cases hroom : (r.out o).bulk.length < 32
  · obtain ⟨line, desk, hline⟩ := r.startLine_bulk m o ((r.out o).bulk ++ [⟨kind, c, v, none⟩])
    refine ⟨_, line, desk, (r.offerBulk_append m o kind c v he hw hs hroom).trans hline, fun _ => ?_⟩
    exact ⟨by simp, fun d h => h.mono (List.subset_append_left _ _), fun _ => ⟨⟨kind, c, v, none⟩, by simp, rfl, rfl, .inl rfl⟩⟩
  · obtain ⟨line, desk, hline⟩ := (r.setDesk (r.desk.report .queueDiscards o.val)).startLine_bulk m o
      ((r.out o).bulkSending ++ (r.out o).bulkWaiting.drop 1 ++ [⟨kind, c, v, none⟩])
    exact ⟨_, line, desk, (r.offerBulk_full m o kind c v he hw hs (Nat.not_lt.mp hroom)).trans hline,
      fun h => absurd h hroom⟩

/-! ### The deliveries, each once (R58) -/

theorem firstOnly_foldl {α : Type} [DecidableEq α] (l acc : List α) :
    l.foldl (fun acc x => if acc.contains x then acc else acc ++ [x]) acc =
      acc ++ (l.filter fun x => !acc.contains x).eraseDups := by
  induction l generalizing acc with
  | nil => simp
  | cons x xs ih =>
    rw [List.foldl_cons, ih]
    by_cases hx : acc.contains x = true
    · rw [if_pos hx, List.filter_cons_of_neg (by simpa using hx)]
    · rw [if_neg hx, List.filter_cons_of_pos (by simpa using hx), List.eraseDups_cons, List.filter_filter,
        List.append_assoc, List.singleton_append]
      congr 4
      funext y
      simp [Bool.and_comm, eq_comm, beq_eq_decide]

theorem firstOnly_eq_eraseDups {α : Type} [DecidableEq α] (l : List α) : firstOnly l = l.eraseDups := by
  rw [firstOnly, firstOnly_foldl]
  simp

theorem firstOnly_deliveries (l : List (Output × Chan)) : firstOnly l = l.eraseDups := by
  rw [firstOnly_eq_eraseDups]
  congr 1
  exact lawful_beq_subsingleton _ _

theorem nodup_firstOnly {α : Type} [DecidableEq α] (l : List α) : (firstOnly l).Nodup := by
  suffices ∀ acc : List α, acc.Nodup →
      (l.foldl (fun acc x => if acc.contains x then acc else acc ++ [x]) acc).Nodup from this [] .nil
  induction l with
  | nil => exact fun acc h => h
  | cons x xs ih =>
    refine fun acc h => ih _ ?_
    dsimp only
    split
    · exact h
    · rename_i hx
      exact List.nodup_append.mpr ⟨h, by simp, by rintro a ha b hb rfl; simp_all⟩

theorem Rig.deliveriesOf_eq (r : Rig) (m : Moment) (echo : BitVec 4) (n : Input) (x : Layer) :
    r.deliveriesOf m echo n x = (allOutputs.filter fun o => decide (x.outputs.getLsbD o.val = true ∧
      ¬(o.val = n.val ∧ echo.getLsbD n.val = false) ∧ (r.out o).enabled = true)).map fun o =>
        (o, r.redirected m o x.dest) := by
  rw [Rig.deliveriesOf, outputsOf, List.filter_filter]
  congr 2
  funext o
  simp [echoes, Bool.and_comm]

theorem Layer.passes_eq (n : Input) (c : Chan) (x : Layer) : x.passes n c = decide (x.action = .route ∧
    x.passContinuous = true ∧ x.inputs.getLsbD n.val = true ∧ x.sourceChannel = c.val + 1) := by
  simp [Layer.passes, Layer.hears, Bool.and_assoc]

theorem deliveries_eq_continuousTargets (s : State) (n : Input) (c : Chan) :
    s.rig.deliveries s.moment s.router.echo s.router.active n c = continuousTargets s n c := by
  rw [Rig.deliveries, firstOnly_deliveries, continuousTargets]
  simp only [Layer.passes_eq, Rig.deliveriesOf_eq]
  rfl

theorem nodup_continuousTargets (s : State) (n : Input) (c : Chan) : (continuousTargets s n c).Nodup := by
  rw [← deliveries_eq_continuousTargets]
  exact nodup_firstOnly _

/-- What is delivered: an enabled output of a pass-continuous ROUTE entry that hears the event. -/
theorem mem_continuousTargets {s : State} {n : Input} {c : Chan} {x : Layer} {o : Output}
    (hx : x ∈ s.router.active) (hroute : x.action = .route) (hpass : x.passContinuous = true)
    (hin : x.inputs.getLsbD n.val = true) (hsrc : x.sourceChannel = c.val + 1)
    (hout : x.outputs.getLsbD o.val = true) (hen : (s.rig.out o).enabled = true)
    (hecho : ¬(o.val = n.val ∧ s.router.echo.getLsbD n.val = false)) :
    (o, s.rig.redirected s.moment o x.dest) ∈ continuousTargets s n c := by
  rw [← deliveries_eq_continuousTargets, Rig.deliveries, firstOnly_deliveries, List.mem_eraseDups, List.mem_flatMap]
  refine ⟨x, List.mem_filter.mpr ⟨hx, ?_⟩, ?_⟩
  · rw [Layer.passes_eq]
    exact decide_eq_true ⟨hroute, hpass, hin, hsrc⟩
  · rw [Rig.deliveriesOf_eq]
    refine List.mem_map.mpr ⟨o, List.mem_filter.mpr ⟨?_, decide_eq_true ⟨hout, hecho, hen⟩⟩, rfl⟩
    fin_cases o <;> decide

/-! ### The offers of the deliveries, in order -/

/-- The offers of one value to the outputs and channels of a list, in order. -/
def Rig.offerAll (r : Rig) (m : Moment) (kind : ContinuousKind) (v : Fourteen) (l : List (Output × Chan)) : Rig :=
  l.foldl (fun g d => g.offerBulk m d.1 kind d.2 v) r

section
variable (r : Rig) (m : Moment) (kind : ContinuousKind) (v : Fourteen)

theorem Rig.offerAll_cons (d : Output × Chan) (l : List (Output × Chan)) :
    r.offerAll m kind v (d :: l) = (r.offerBulk m d.1 kind d.2 v).offerAll m kind v l := rfl

theorem Rig.offerBulk_frame (o : Output) (c : Chan) :
    r.sameNotes (r.offerBulk m o kind c v) ∧ (r.offerBulk m o kind c v).records = r.records ∧
      (∀ p, ((r.offerBulk m o kind c v).out p).urgent = (r.out p).urgent) ∧
      (∀ p, ((r.offerBulk m o kind c v).out p).enabled = (r.out p).enabled) ∧
      ∀ p, p ≠ o → (r.offerBulk m o kind c v).out p = r.out p := by
  obtain ⟨bulk, line, desk, h, -⟩ := r.offerBulk_spec m o kind c v
  rw [h]
  refine ⟨⟨rfl, rfl, rfl⟩, rfl, fun p => ?_, fun p => ?_, fun p hp => ?_⟩
  · rw [Rig.out_setDesk, Rig.out_setOut]; split <;> simp_all
  · rw [Rig.out_setDesk, Rig.out_setOut]; split <;> simp_all
  · rw [Rig.out_setDesk, Rig.out_setOut, if_neg hp]

theorem Rig.offerAll_frame (l : List (Output × Chan)) :
    r.sameNotes (r.offerAll m kind v l) ∧ (r.offerAll m kind v l).records = r.records ∧
      (∀ p, ((r.offerAll m kind v l).out p).urgent = (r.out p).urgent) ∧
      ∀ p, (∀ d, (p, d) ∉ l) → (r.offerAll m kind v l).out p = r.out p := by
  induction l generalizing r with
  | nil => exact ⟨⟨rfl, rfl, rfl⟩, rfl, fun _ => rfl, fun _ _ => rfl⟩
  | cons d l ih =>
    obtain ⟨hn, hr, hu, -, ho⟩ := r.offerBulk_frame m kind v d.1 d.2
    obtain ⟨kn, kr, ku, ko⟩ := ih (r.offerBulk m d.1 kind d.2 v)
    rw [Rig.offerAll_cons]
    refine ⟨Rig.sameNotes_trans hn kn, kr.trans hr, fun p => (ku p).trans (hu p), fun p hp => ?_⟩
    rw [ko p fun c hc => hp c (List.mem_cons_of_mem _ hc), ho p]
    rintro rfl
    exact hp d.2 List.mem_cons_self

/-- An output with room for all the deliveries to it gives the value on each of their channels, and on each channel
that had it before. -/
theorem Rig.offerAll_carries {o : Output} {c : Chan} (l : List (Output × Chan)) (hen : (r.out o).enabled = true)
    (hroom : (r.out o).bulk.length + (l.filter fun d => d.1 = o).length ≤ 32)
    (h : (o, c) ∈ l ∨ Carries (r.out o).bulk kind c v) :
    Carries ((r.offerAll m kind v l).out o).bulk kind c v := by
  induction l generalizing r with
  | nil => exact h.resolve_left List.not_mem_nil
  | cons d l ih =>
    obtain ⟨-, -, -, henabled, hothers⟩ := r.offerBulk_frame m kind v d.1 d.2
    rw [Rig.offerAll_cons]
    by_cases hd : d.1 = o
    · subst hd
      obtain ⟨bulk, line, desk, heq, hspec⟩ := r.offerBulk_spec m d.1 kind d.2 v
      have hbulk : ((r.offerBulk m d.1 kind d.2 v).out d.1).bulk = bulk := by
        rw [heq, Rig.out_setDesk, Rig.out_setOut, if_pos rfl]
      rw [List.filter_cons_of_pos (by simp), List.length_cons] at hroom
      obtain ⟨hlen, hkeep, hgive⟩ := hspec (by omega)
      refine ih _ ((henabled _).trans hen) (by rw [hbulk]; omega) ?_
      rw [hbulk]
      rcases h with h | h
      · rcases List.mem_cons.mp h with h | h
        · rw [← h] at hgive ⊢
          exact .inr (hgive hen)
        · exact .inl h
      · exact .inr (hkeep c h)
    · rw [List.filter_cons_of_neg (by simpa using hd)] at hroom
      rw [← hothers o (Ne.symm hd)] at hroom h hen
      exact ih _ hen hroom (h.imp_left fun h => (List.mem_cons.mp h).resolve_left fun he => hd (congrArg Prod.fst he).symm)

end

/-- Distinct deliveries to one output are at most 16, one for each channel. -/
theorem deliveries_to_output_le {l : List (Output × Chan)} (h : l.Nodup) (o : Output) :
    (l.filter fun d => d.1 = o).length ≤ 16 := by
  have hmap : ((l.filter fun d => d.1 = o).map Prod.snd).Nodup := by
    refine (h.filter _).map_on fun a ha b hb hab => ?_
    have ha := (List.mem_filter.mp ha).2
    have hb := (List.mem_filter.mp hb).2
    exact Prod.ext ((of_decide_eq_true ha).trans (of_decide_eq_true hb).symm) hab
  simpa using hmap.length_le_card

/-! ### The command -/

/-- A continuous event that is the pedal's CONTROL arrives as the pedal. -/
theorem State.continuousArrives_pedal {s : State} {number : Seven} (h : number.val = s.mem.header.sustainController)
    (n : Input) (c : Chan) (v : Seven) : s.continuousArrives n c (.control number v) =
      s.eventArrives n .control c (Fin.ofNat 128 s.mem.header.sustainController) v := by
  rw [State.continuousArrives, ← h]
  congr 1
  exact Fin.ext (Nat.mod_eq_of_lt number.isLt).symm

/-- The octets of a continuous event arrive, and the event is delivered. -/
theorem State.continuousArrives_eq (s : State) (n : Input) (c : Chan) (e : ContinuousEvent) :
    s.continuousArrives n c e =
      (s.arrived n (continuousArrival e).1 c (continuousArrival e).2).deliver n c (.continuous e) := by
  cases e with
  | control number v => exact s.eventArrives_eq n .control c number v
  | pressure v => exact s.eventArrives_eq n .pressure c v v
  | bend v =>
    have hv : Fin.ofNat 16384 ((Fin.ofNat 128 v.val).val + 128 * (Fin.ofNat 128 (v.val / 128)).val) = v :=
      Fin.ext (by simp only [Fin.ofNat]; omega)
    rw [State.continuousArrives, State.eventArrives_eq, assemble, hv]
    rfl

/-- In SHOW a continuous event that is not the pedal is offered to each of its deliveries. -/
theorem State.continuousArrives_show {s : State} {n : Input} {c : Chan} {e : ContinuousEvent}
    (hm : s.scene.mode = .showMode)
    (he : ∀ number v, e = .control number v → number.val ≠ s.mem.header.sustainController) :
    s.continuousArrives n c e = (s.arrived n (continuousArrival e).1 c (continuousArrival e).2).setRig
      ((s.arrived n (continuousArrival e).1 c (continuousArrival e).2).rig.offerAll s.moment (continuousKind e)
        (continuousValue e) (continuousTargets s n c)) := by
  have hpedal : isPedal s.mem.header e = false := by
    cases e with
    | control number v => exact decide_eq_false (he number v rfl)
    | pressure | bend => rfl
  rw [State.continuousArrives_eq,
    State.deliver_show (s := s.arrived n (continuousArrival e).1 c (continuousArrival e).2) hm,
    ← deliveries_eq_continuousTargets]
  exact if_neg (Bool.eq_false_iff.mp hpedal)

/-- Settles O50: the rule of a bulk queue, and the offers of the deliveries, each with room for all 16 channels. -/
theorem continuousDelivered : Obligations.ContinuousDelivered := by
  refine ⟨bulkOffers, fun s n c e hl => ⟨fun hm => ?_, ?_, fun hm he => ?_⟩⟩
  · rw [exec_continuousEvent hl, State.continuousArrives_eq, State.deliver_setup
      (s := s.arrived n (continuousArrival e).1 c (continuousArrival e).2) hm]
    exact ⟨_, rfl, s.arrived_onlyArrives n _ c _⟩
  · rintro number v rfl hnum
    rw [exec_continuousEvent hl, exec_sustainPedal hl, State.continuousArrives_pedal hnum]
  rw [exec_continuousEvent hl, State.continuousArrives_show hm he]
  generalize hu : s.arrived n (continuousArrival e).1 c (continuousArrival e).2 = u
  have hsame : SameBut [.desk, .inputs] s u := hu ▸ (s.arrived_onlyArrives n _ c _).1
  have hrig : u.rig = (s.setDesk (arrivedDesk s n (continuousArrival e).1 c (continuousArrival e).2)).rig := hu ▸ rfl
  have hout : ∀ o, u.rig.out o = s.rig.out o := fun o => by rw [hrig]; rfl
  obtain ⟨hnotes, hrecords, hurgent, hothers⟩ :=
    u.rig.offerAll_frame s.moment (continuousKind e) (continuousValue e) (continuousTargets s n c)
  refine ⟨_, rfl, ?_, fun o => ?_, fun o ho => ?_, ?_, fun x hx hroute hpass hin hsrc o ho hen hecho hroom => ?_⟩
  · exact (hsame.mono (by simp)).trans ((State.setRig_frame hnotes).2 hrecords |>.mono (by simp))
  · rw [State.setRig_rig, hurgent, hout]
  · rw [State.setRig_rig, hothers o ho, hout]
  · rw [State.setRig_rig, hrig]
    rfl
  · rw [State.setRig_rig]
    have hcount := deliveries_to_output_le (nodup_continuousTargets s n c) o
    exact u.rig.offerAll_carries s.moment _ _ _ (by rw [hout, hen]) (by rw [hout]; omega)
      (.inl (mem_continuousTargets hx hroute hpass hin hsrc ho hen hecho))

end Sys2Proof.Machine
end

section
/-! The ends of legs with room in the queues: each event that is offered is appended, and the table loses the legs
(R68, R86). -/
namespace Sys2Proof.Machine

/-! ### Legs in the table -/

/-- A leg of its own number is found with the generation of its entry. -/
theorem findLeg_of_mem {es : List Entry} (hn : ((es.flatMap fun e => e.legs).map fun l => l.id).Nodup) {e : Entry}
    (he : e ∈ es) {l : Leg} (hl : l ∈ e.legs) : findLeg es l.id = some (e.generation, l) := by
  cases hf : findLeg es l.id with
  | none => exact absurd rfl (findLeg_none_iff.mp hf e he l hl)
  | some x =>
    obtain ⟨hmem, hid, e', he', hl', hg⟩ := findLeg_some (g := x.1) (l := x.2) hf
    have hx : x.2 = l := List.inj_on_of_nodup_map hn hmem (List.mem_flatMap.mpr ⟨e, he, hl⟩) hid
    have hsame : e' = e := by
      by_contra hne
      have hsymm : Std.Symm (Function.onFun List.Disjoint fun e : Entry => e.legs) := ⟨fun _ _ h => h.symm⟩
      exact (List.nodup_flatMap.mp hn.of_map).2.forall he' he hne (hx ▸ hl') hl
    rw [← hx, ← hsame, hg]

/-- The removal of a leg leaves those of other numbers. -/
theorem findLeg_removeLeg_of_ne {a b : Nat} (h : b ≠ a) (es : List Entry) :
    findLeg (removeLeg es a) b = findLeg es b := by
  induction es with
  | nil => rfl
  | cons e es ih =>
    have hfind : (e.legs.filter fun l => decide (l.id ≠ a)).find? (fun l => decide (l.id = b)) =
        e.legs.find? fun l => decide (l.id = b) := by
      rw [List.find?_filter]
      congr 1
      funext l
      by_cases hl : l.id = b <;> simp [hl, h]
    simp only [removeLeg, List.map_cons, List.filter_cons] at ih ⊢
    split
    · rw [findLeg, hfind, ih, findLeg]
    · rename_i hempty
      have hnil : e.legs.filter (fun l => decide (l.id ≠ a)) = [] := by simpa using hempty
      rw [hnil] at hfind
      rw [ih, findLeg, ← hfind]
      rfl

/-! ### What is offered for some legs -/

theorem offsOf_cons (r : Rig) (l : Leg) (ls : List Leg) (o : Output) :
    offsOf r (l :: ls) o = offsOf r [l] o ++ offsOf r ls o := by
  unfold offsOf
  split
  · rw [← List.map_append, ← List.filter_append]
    rfl
  · rfl

theorem offsOf_congr {r t : Rig} (h : ∀ o, (t.out o).enabled = (r.out o).enabled) (ls : List Leg) (o : Output) :
    offsOf t ls o = offsOf r ls o := by
  rw [offsOf, offsOf, h]

theorem offsOf_length_le (r : Rig) (l : Leg) (o : Output) : (offsOf r [l] o).length ≤ 1 := by
  unfold offsOf
  split
  · rw [List.length_map]
    exact List.length_filter_le _ _
  · exact Nat.zero_le _

theorem offsOf_quiet {r : Rig} {ls : List Leg} {o : Output} {e : Urgent} (h : e ∈ offsOf r ls o) :
    e.isNoteOn = false := by
  unfold offsOf at h
  split at h
  · obtain ⟨l, -, rfl⟩ := List.mem_map.mp h
    rfl
  · exact absurd h List.not_mem_nil

theorem namedBy_cons (l : Leg) (ls : List Leg) (o : Output) (c : Chan) :
    namedBy (l :: ls) o c = namedBy [l] o c + namedBy ls o c := by
  unfold namedBy
  rw [← List.length_append, ← List.filter_append]
  rfl

/-- The NOTE-OFF of a sent leg is appended, or dropped on a disabled output. -/
def offRig (m : Moment) (r : Rig) (l : Leg) : Rig :=
  if (r.out l.output).enabled then appendedRig m.now r l.output (.noteOff l.channel l.key) else r

theorem offRig_notes (m : Moment) (r : Rig) (l : Leg) : r.sameNotes (offRig m r l) := by
  unfold offRig
  split
  · exact appendedRig_notes _ _ _ _
  · exact r.sameNotes_refl

theorem offRig_chan (m : Moment) (r : Rig) (l : Leg) (o : Output) (c : Chan) : (offRig m r l).chan o c = r.chan o c := by
  unfold offRig
  split
  · rw [appendedRig_chan, if_neg (by simp [Urgent.isProgramOf])]
  · rfl

theorem offRig_out (m : Moment) (r : Rig) {l : Leg} (hs : l.sent = true) (o : Output) :
    (offRig m r l).out o = appendedOut m.now (r.out o) (offsOf r [l] o) := by
  by_cases ho : o = l.output
  · subst ho
    cases he : (r.out l.output).enabled
    · simp [offRig, offsOf, he, appendedOut_nil]
    · simp [offRig, offsOf, he, appendedRig_out, hs]
  · have hnone : offsOf r [l] o = [] := by
      unfold offsOf
      split
      · simp [Ne.symm ho]
      · rfl
    rw [hnone, appendedOut_nil, offRig]
    split
    · rw [appendedRig_out, if_neg ho]
    · rfl

/-! ### The end of one leg -/

theorem endedLeg_unsent {l : Leg} (hs : l.sent = false) (m : Moment) (g : Generation) (r : Rig) :
    endedLeg m g r l = r := if_neg (by simp [hs])

theorem endedLeg_sent {l : Leg} (hs : l.sent = true) (m : Moment) (g : Generation) (r : Rig) :
    endedLeg m g r l = match (r.chan l.output l.channel).pending with
      | none => (offRig m r l).setChan l.output l.channel
          { r.chan l.output l.channel with sounding := (r.chan l.output l.channel).sounding - 1 }
      | some p =>
        if (m.generation - p.generation).toNat < (m.generation - g).toNat then
          let u := (offRig m r l).setChan l.output l.channel { r.chan l.output l.channel with
            sounding := (r.chan l.output l.channel).sounding - 1, old := (r.chan l.output l.channel).old - 1 }
          if (r.chan l.output l.channel).old ≤ 1 then releasedRig m.now u l.output l.channel p.program else u
        else (offRig m r l).setChan l.output l.channel
          { r.chan l.output l.channel with sounding := (r.chan l.output l.channel).sounding - 1 } := by
  have h : endedLeg m g r l = match ((offRig m r l).chan l.output l.channel).pending with
      | none => (offRig m r l).setChan l.output l.channel
          { (offRig m r l).chan l.output l.channel with
            sounding := ((offRig m r l).chan l.output l.channel).sounding - 1 }
      | some p =>
        if (m.generation - p.generation).toNat < (m.generation - g).toNat then
          let u := (offRig m r l).setChan l.output l.channel { (offRig m r l).chan l.output l.channel with
            sounding := ((offRig m r l).chan l.output l.channel).sounding - 1
            old := ((offRig m r l).chan l.output l.channel).old - 1 }
          if ((offRig m r l).chan l.output l.channel).old ≤ 1 then
            releasedRig m.now u l.output l.channel p.program else u
        else (offRig m r l).setChan l.output l.channel { (offRig m r l).chan l.output l.channel with
          sounding := ((offRig m r l).chan l.output l.channel).sounding - 1 } := if_pos hs
  rw [h, offRig_chan]

theorem releasedRig_notes (now : StageTime) (r : Rig) (o : Output) (c : Chan) (p : Program) :
    r.sameNotes (releasedRig now r o c p) := by
  unfold releasedRig
  dsimp only
  split
  · exact appendedRig_notes now r o (.program c p false)
  · exact r.sameNotes_refl

theorem releasedRig_pending (now : StageTime) (r : Rig) (o q : Output) (c d : Chan) (p : Program) :
    ((releasedRig now r o c p).chan q d).pending = if q = o ∧ d = c then none else (r.chan q d).pending := by
  unfold releasedRig
  dsimp only
  rw [Rig.chan_setChan]
  split
  · rfl
  · rename_i hne
    split
    · rw [appendedRig_chan]
      split <;> rfl
    · rw [Rig.chan_setChan, if_neg hne]

/-- The PROGRAM of a release is appended, or held on a disabled output. -/
theorem releasedRig_out (now : StageTime) (r : Rig) (o q : Output) (c : Chan) (p : Program) :
    (releasedRig now r o c p).out q = appendedOut now (r.out q)
      (if q = o ∧ (r.out o).enabled = true then [.program c p false] else []) := by
  unfold releasedRig
  dsimp only
  rw [Rig.out_setChan]
  cases he : (r.out o).enabled
  · simp [appendedOut_nil]
  · rw [if_pos rfl, appendedRig_out]
    by_cases hq : q = o
    · simp [hq]
    · simp [hq, appendedOut_nil]

/-- The end of a leg as it is counted and released leaves table, pedals and numbers as they are. -/
theorem endedLeg_notes (m : Moment) (g : Generation) (r : Rig) (l : Leg) : r.sameNotes (endedLeg m g r l) := by
  cases hs : l.sent
  · rw [endedLeg_unsent hs]
    exact r.sameNotes_refl
  have hoff : ∀ x, r.sameNotes ((offRig m r l).setChan l.output l.channel x) := fun x => offRig_notes m r l
  rw [endedLeg_sent hs]
  split
  · exact hoff _
  split
  · dsimp only
    split
    · exact Rig.sameNotes_trans (hoff _) (releasedRig_notes _ _ _ _ _)
    · exact hoff _
  · exact hoff _

/-- The rig `r` with the table, the pedals and the leg numbers of `u`. -/
def Rig.withNotes (r u : Rig) : Rig := { r with table := u.table, pedals := u.pedals, nextLeg := u.nextLeg }

theorem Rig.withNotes_of_sameNotes {r t : Rig} (h : r.sameNotes t) : t.withNotes r = t := by
  obtain ⟨ht, hp, hn⟩ := h
  rw [Rig.withNotes, ← ht, ← hp, ← hn]

/-- How a leg ends does not rest on table, pedals and numbers. -/
theorem endedLeg_withNotes (m : Moment) (g : Generation) (r u : Rig) (l : Leg) :
    endedLeg m g (r.withNotes u) l = (endedLeg m g r l).withNotes u := by
  have hout : ∀ (r : Rig) (o : Output), (r.withNotes u).out o = r.out o := fun r o => rfl
  have hoff : offRig m (r.withNotes u) l = (offRig m r l).withNotes u := by
    unfold offRig
    rw [hout]
    split <;> rfl
  have hrel : ∀ (t : Rig) (p : Program), releasedRig m.now (t.withNotes u) l.output l.channel p =
      (releasedRig m.now t l.output l.channel p).withNotes u := by
    intro t p
    unfold releasedRig
    dsimp only
    rw [hout]
    split <;> rfl
  have hset : ∀ (t : Rig) (x : ChanRec), (t.withNotes u).setChan l.output l.channel x =
      (t.setChan l.output l.channel x).withNotes u := fun t x => rfl
  have hchan : (r.withNotes u).chan l.output l.channel = r.chan l.output l.channel := rfl
  cases hs : l.sent
  · rw [endedLeg_unsent hs, endedLeg_unsent hs]
  rw [endedLeg_sent hs, endedLeg_sent hs, hoff, hchan]
  split
  · rfl
  split
  · dsimp only
    split
    · rw [hset, hrel]
    · rfl
  · rfl

theorem endedLeg_setTable (m : Moment) (g : Generation) (r : Rig) (l : Leg) (t : List Entry) :
    endedLeg m g (r.setTable t) l = (endedLeg m g r l).setTable t := by
  have h := endedLeg_withNotes m g r (r.setTable t) l
  have hsame : ((endedLeg m g r l).withNotes r).setTable t = (endedLeg m g r l).setTable t := by
    rw [Rig.withNotes_of_sameNotes (endedLeg_notes m g r l)]
  exact h.trans hsame

/-- A leg that is found ends, where each event offered has room. -/
theorem Rig.endLeg_room {r : Rig} {m : Moment} {g : Generation} {l : Leg} (hf : findLeg r.table l.id = some (g, l))
    (hroom : (r.out l.output).enabled = true → (r.out l.output).urgent.length < 48 ∧
      ((r.chan l.output l.channel).pending ≠ none → (r.out l.output).urgent.length + 1 < 48)) :
    r.endLeg m l.id = (endedLeg m g r l).setTable (removeLeg r.table l.id) := by
  rw [← endedLeg_setTable]
  generalize hu : r.setTable (removeLeg r.table l.id) = u
  have hout : ∀ o, u.out o = r.out o := fun o => hu ▸ rfl
  have hchan : ∀ o c, u.chan o c = r.chan o c := fun o c => hu ▸ rfl
  rw [← hout, ← hchan] at hroom
  rw [Rig.endLeg, hf]
  dsimp only
  rw [hu]
  cases hs : l.sent
  · rw [endedLeg_unsent hs]
    rfl
  rw [if_pos rfl, endedLeg_sent hs]
  have hoffer : (u.offerNoteOff m l.output l.channel l.key).settled m = offRig m u l := by
    have hoff : u.offerNoteOff m l.output l.channel l.key = offerEvent u m l.output (.noteOff l.channel l.key) := rfl
    rw [hoff, offRig]
    cases he : (u.out l.output).enabled
    · rw [offerEvent_disabled he]
      exact Rig.settleDiscard_none _ _ _
    · have hfull : ¬fullFor (u.out l.output) (.noteOff l.channel l.key) := by
        simpa [fullFor, Urgent.isNoteOn] using (hroom he).1
      rw [offerEvent_room he hfull (by simp)]
      exact Rig.settleDiscard_none _ _ _
  rw [hoffer]
  cases hp : (u.chan l.output l.channel).pending with
  | none => simp [Rig.lowerCounts, offRig_chan, ChanRec.isOld, hp]
  | some p =>
    by_cases hold : (m.generation - p.generation).toNat < (m.generation - g).toNat
    · have hisOld : (u.chan l.output l.channel).isOld m.generation g = true := by
        rw [ChanRec.isOld, hp]
        exact decide_eq_true hold
      simp only [Rig.lowerCounts, offRig_chan, hisOld, if_true, if_pos hold, Bool.true_and, decide_eq_true_eq,
        Nat.sub_eq_zero_iff_le]
      split
      · rw [Rig.releaseSettled, Rig.release_room (p := p)]
        · exact Rig.settleDiscard_none _ _ _
        · rw [Rig.chan_setChan, if_pos ⟨rfl, rfl⟩]
          exact hp
        · rw [Rig.out_setChan, offRig_out m u hs, appendedOut_enabled, appendedOut_length]
          have := offsOf_length_le u l l.output
          cases he : (u.out l.output).enabled
          · exact .inl rfl
          · exact .inr (by have := (hroom he).2 (by simp [hp]); omega)
      · rfl
    · have hisOld : (u.chan l.output l.channel).isOld m.generation g = false := by
        rw [ChanRec.isOld, hp]
        exact decide_eq_false hold
      simp only [Rig.lowerCounts, offRig_chan, hisOld, if_neg hold, Bool.false_and, Bool.false_eq_true, if_false]

end Sys2Proof.Machine
end

section
/-! The ends of several legs with room, and the table they leave (R66 to R69). -/
namespace Sys2Proof.Machine

/-! ### The table once all legs of some entries are gone -/

/-- Entries whose legs are all removed leave the table, and the others stand. -/
theorem dropLegs_legIds {es : List Entry} (hfull : FullTable es)
    (hn : ((es.flatMap fun e => e.legs).map fun l => l.id).Nodup) (p : Entry → Bool) :
    dropLegs (legIds (es.filter p)) es = es.filter fun e => !p e := by
  have gone : ∀ e ∈ es, e.legs.filter (fun l => !(legIds (es.filter p)).contains l.id) =
      if p e then [] else e.legs := by
    intro e he
    split
    · rename_i hp
      refine List.filter_eq_nil_iff.mpr fun l hl => ?_
      have : l.id ∈ legIds (es.filter p) :=
        List.mem_flatMap.mpr ⟨e, List.mem_filter.mpr ⟨he, hp⟩, List.mem_map.mpr ⟨l, hl, rfl⟩⟩
      simpa using this
    · rename_i hp
      refine List.filter_eq_self.mpr fun l hl => ?_
      have : l.id ∉ legIds (es.filter p) := by
        intro hmem
        obtain ⟨x, hx, hlx⟩ := List.mem_flatMap.mp hmem
        obtain ⟨k, hk, hid⟩ := List.mem_map.mp hlx
        obtain ⟨hxe, hpx⟩ := List.mem_filter.mp hx
        have hkl : k = l := List.inj_on_of_nodup_map hn (List.mem_flatMap.mpr ⟨x, hxe, hk⟩)
          (List.mem_flatMap.mpr ⟨e, he, hl⟩) hid
        have hne : x ≠ e := fun h => hp (h ▸ hpx)
        have hsymm : Std.Symm (Function.onFun List.Disjoint fun e : Entry => e.legs) := ⟨fun _ _ h => h.symm⟩
        exact (List.nodup_flatMap.mp hn.of_map).2.forall hxe he hne hk (hkl ▸ hl)
      simpa using this
  have hmap : (es.map fun e => { e with legs := e.legs.filter fun l => !(legIds (es.filter p)).contains l.id }) =
      es.map fun e => if p e then { e with legs := [] } else e := by
    refine List.map_congr_left fun e he => ?_
    rw [gone e he]
    split <;> rfl
  rw [dropLegs, hmap]
  clear gone hmap hn
  induction es with
  | nil => rfl
  | cons e es ih =>
    have hrest := ih fun x hx => hfull x (List.mem_cons_of_mem _ hx)
    have he : e.legs.isEmpty = false := by simpa using hfull e List.mem_cons_self
    cases hp : p e
    · simp [hp, he, hrest]
    · simp [hp, hrest]

/-- The table after the ends of all legs of some entries: the others, but for their sent marks. -/
theorem Rig.endLegs_others (r : Rig) (m : Moment) (h : TableBounded r.table)
    (hn : ((allLegs r).map fun l => l.id).Nodup) (p : Entry → Bool) :
    ((r.endLegs m (legIds (r.table.filter p))).table.map fun x =>
        (x.input, x.channel, x.key, x.sustained, x.generation)) =
      (r.table.filter fun x => !p x).map fun x => (x.input, x.channel, x.key, x.sustained, x.generation) := by
  have hbare : ∀ es : List Entry,
      ((bareTable es).map fun x => (x.input, x.channel, x.key, x.sustained, x.generation)) =
        es.map fun x => (x.input, x.channel, x.key, x.sustained, x.generation) := fun es => by
    rw [bareTable, List.map_map]
    rfl
  rw [← hbare, r.endLegs_bare m _ h.full, ← bareTable_dropLegs, hbare, dropLegs_legIds h.full hn]

/-- The only entry of a source. -/
theorem filter_isFrom {es : List Entry} (h : TableBounded es) {n : Input} {c : Chan} {k : Seven} {e : Entry}
    (he : e ∈ es) (hs : e.isFrom n c k = true) : es.filter (fun x => x.isFrom n c k) = [e] := by
  have hnd := h.sources.of_map
  have hiff : ∀ x ∈ es, x.isFrom n c k = true ↔ x = e := fun x hx =>
    ⟨fun hxs => List.inj_on_of_nodup_map h.sources hx he
      (((isFrom_iff x n c k).mp hxs).trans ((isFrom_iff e n c k).mp hs).symm), fun hx => hx ▸ hs⟩
  have hcongr : es.filter (fun x => x.isFrom n c k) = es.filter (fun x => x == e) :=
    List.filter_congr fun x hx => by rw [Bool.eq_iff_iff, hiff x hx, beq_iff_eq]
  rw [hcongr, List.filter_beq, List.count_eq_one_of_mem hnd he]
  rfl

/-! ### The ends of several legs -/

/-- The legs of some entries, with the generations of their entries. -/
def datedLegs (es : List Entry) : List (Generation × Leg) := es.flatMap fun e => e.legs.map fun l => (e.generation, l)

theorem datedLegs_ids (es : List Entry) : (datedLegs es).map (fun x => x.2.id) = legIds es := by
  simp [datedLegs, legIds, List.map_flatMap, Function.comp_def]

theorem datedLegs_legs (es : List Entry) : (datedLegs es).map (fun x => x.2) = es.flatMap fun e => e.legs := by
  simp [datedLegs, List.map_flatMap, Function.comp_def]

/-- The instrument side once dated legs have ended in order, with room. -/
def endedAll (m : Moment) (ls : List (Generation × Leg)) (r : Rig) : Rig :=
  ls.foldl (fun r x => endedLeg m x.1 r x.2) r

theorem endedAll_cons (m : Moment) (x : Generation × Leg) (ls : List (Generation × Leg)) (r : Rig) :
    endedAll m (x :: ls) r = endedAll m ls (endedLeg m x.1 r x.2) := rfl

theorem endedAll_single (m : Moment) (e : Entry) (r : Rig) :
    endedAll m (datedLegs [e]) r = e.legs.foldl (endedLeg m e.generation) r := by
  simp [endedAll, datedLegs, List.foldl_map]

theorem endedAll_notes (m : Moment) (ls : List (Generation × Leg)) (r : Rig) : r.sameNotes (endedAll m ls r) := by
  induction ls generalizing r with
  | nil => exact r.sameNotes_refl
  | cons x ls ih => exact Rig.sameNotes_trans (endedLeg_notes m x.1 r x.2) (ih _)

theorem endedAll_withNotes (m : Moment) (ls : List (Generation × Leg)) (r u : Rig) :
    endedAll m ls (r.withNotes u) = (endedAll m ls r).withNotes u := by
  induction ls generalizing r with
  | nil => rfl
  | cons x ls ih => rw [endedAll_cons, endedAll_cons, endedLeg_withNotes, ih]

theorem endedAll_setTable (m : Moment) (ls : List (Generation × Leg)) (r : Rig) (t : List Entry) :
    endedAll m ls (r.setTable t) = (endedAll m ls r).setTable t := by
  induction ls generalizing r with
  | nil => rfl
  | cons x ls ih => rw [endedAll_cons, endedAll_cons, endedLeg_setTable, ih]

/-- The end of a leg takes at most `k` places of a queue: its NOTE-OFF, and a second place where a program is
pending. -/
def Rig.Costs (r : Rig) (k : Nat) : Prop := 1 ≤ k ∧ ∀ o c, (r.chan o c).pending ≠ none → 2 ≤ k

/-- What the end of a leg offers to each output, and that no new program comes to be pending. -/
theorem endedLeg_spec {r : Rig} {k : Nat} (hk : r.Costs k) (m : Moment) (g : Generation) (l : Leg) :
    (endedLeg m g r l).Costs k ∧
      ∀ o, ∃ es, (endedLeg m g r l).out o = appendedOut m.now (r.out o) es ∧ es.length ≤ k ∧
        ∀ e ∈ es, e.isNoteOn = false := by
  obtain ⟨hone, htwo⟩ := hk
  cases hs : l.sent
  · rw [endedLeg_unsent hs]
    exact ⟨⟨hone, htwo⟩, fun o => ⟨[], (appendedOut_nil _ _).symm, Nat.zero_le _, nofun⟩⟩
  have hkeep : ∀ x : ChanRec, (x.pending ≠ none → (r.chan l.output l.channel).pending ≠ none) → ∀ o c,
      (((offRig m r l).setChan l.output l.channel x).chan o c).pending ≠ none → (r.chan o c).pending ≠ none := by
    intro x hx o c
    rw [Rig.chan_setChan]
    split
    · rename_i h
      rw [h.1, h.2]
      exact hx
    · rw [offRig_chan]
      exact id
  have plain : ∀ x : ChanRec, (x.pending ≠ none → (r.chan l.output l.channel).pending ≠ none) →
      ((offRig m r l).setChan l.output l.channel x).Costs k ∧
        ∀ o, ∃ es, ((offRig m r l).setChan l.output l.channel x).out o = appendedOut m.now (r.out o) es ∧
          es.length ≤ k ∧ ∀ e ∈ es, e.isNoteOn = false := fun x hx =>
    ⟨⟨hone, fun o c h => htwo o c (hkeep x hx o c h)⟩, fun o => ⟨offsOf r [l] o,
      by rw [Rig.out_setChan, offRig_out m r hs], (offsOf_length_le r l o).trans hone, fun e => offsOf_quiet⟩⟩
  rw [endedLeg_sent hs]
  split
  · exact plain _ id
  rename_i p hp
  split
  case isFalse => exact plain _ id
  dsimp only
  split
  case isFalse => exact plain _ id
  refine ⟨⟨hone, fun o c h => ?_⟩, fun o => ⟨offsOf r [l] o ++
    if o = l.output ∧ (r.out l.output).enabled = true then [.program l.channel p.program false] else [], ?_, ?_, ?_⟩⟩
  · rw [releasedRig_pending] at h
    split at h
    · exact absurd rfl h
    · exact htwo o c (hkeep { r.chan l.output l.channel with
        sounding := (r.chan l.output l.channel).sounding - 1, old := (r.chan l.output l.channel).old - 1 } id o c h)
  · rw [releasedRig_out, Rig.out_setChan, Rig.out_setChan, offRig_out m r hs, offRig_out m r hs, appendedOut_append,
      appendedOut_enabled]
  · have hlen := offsOf_length_le r l o
    have := htwo l.output l.channel (by simp [hp])
    rw [List.length_append]
    split <;> simp <;> omega
  · intro e he
    rcases List.mem_append.mp he with he | he
    · exact offsOf_quiet he
    · split at he
      · rw [List.mem_singleton.mp he]
        rfl
      · exact absurd he List.not_mem_nil

theorem endedAll_spec {r : Rig} {k : Nat} (hk : r.Costs k) (m : Moment) (ls : List (Generation × Leg)) (o : Output) :
    ∃ es, (endedAll m ls r).out o = appendedOut m.now (r.out o) es ∧ es.length ≤ k * ls.length ∧
      ∀ e ∈ es, e.isNoteOn = false := by
  induction ls generalizing r with
  | nil => exact ⟨[], (appendedOut_nil _ _).symm, Nat.zero_le _, nofun⟩
  | cons x ls ih =>
    obtain ⟨hcost, hout⟩ := endedLeg_spec hk m x.1 x.2
    obtain ⟨es, he, hlen, hq⟩ := hout o
    obtain ⟨fs, hf, hflen, hfq⟩ := ih hcost
    refine ⟨es ++ fs, ?_, ?_, fun e he => (List.mem_append.mp he).elim (hq e) (hfq e)⟩
    · rw [endedAll_cons, hf, he, appendedOut_append]
    · rw [List.length_append, List.length_cons, Nat.mul_succ]
      omega

/-- Legs that are found end, one after another, where each event offered has room. -/
theorem Rig.endLegs_room {r : Rig} {k : Nat} (hk : r.Costs k) (m : Moment) {ls : List (Generation × Leg)}
    (hfull : FullTable r.table) (hf : ∀ x ∈ ls, findLeg r.table x.2.id = some x)
    (hn : (ls.map fun x => x.2.id).Nodup)
    (hroom : ∀ o, (r.out o).enabled = true → (r.out o).urgent.length + k * ls.length ≤ 48) :
    r.endLegs m (ls.map fun x => x.2.id) =
      (endedAll m ls r).setTable (dropLegs (ls.map fun x => x.2.id) r.table) := by
  induction ls generalizing r with
  | nil =>
    rw [List.map_nil, dropLegs_nil hfull]
    rfl
  | cons x ls ih =>
    obtain ⟨g, l⟩ := x
    rw [List.map_cons, List.nodup_cons] at hn
    obtain ⟨hcost, hout⟩ := endedLeg_spec hk m g l
    have hstep : r.endLeg m l.id = (endedLeg m g r l).setTable (dropLegs [l.id] r.table) := by
      rw [← removeLeg_eq]
      refine Rig.endLeg_room (hf _ List.mem_cons_self) fun hen => ?_
      have hle := hroom _ hen
      rw [List.length_cons, Nat.mul_succ] at hle
      have hone := hk.1
      exact ⟨by omega, fun hp => by have := hk.2 _ _ hp; omega⟩
    have hcons : r.endLegs m (((g, l) :: ls).map fun x => x.2.id) =
        ((endedLeg m g r l).setTable (dropLegs [l.id] r.table)).endLegs m (ls.map fun x => x.2.id) := by
      rw [← hstep]
      rfl
    rw [hcons, ih (r := (endedLeg m g r l).setTable (dropLegs [l.id] r.table)) hcost (dropLegs_full _ _) ?_ hn.2 ?_,
      endedAll_setTable, Rig.setTable_table, dropLegs_dropLegs]
    · rfl
    · intro y hy
      rw [Rig.setTable_table, ← removeLeg_eq, findLeg_removeLeg_of_ne]
      · exact hf y (List.mem_cons_of_mem _ hy)
      · exact fun h => hn.1 (List.mem_map.mpr ⟨y, hy, h⟩)
    · intro o hen
      obtain ⟨es, he, hlen, -⟩ := hout o
      rw [Rig.out_setTable, he] at hen ⊢
      rw [appendedOut_enabled] at hen
      have hle := hroom o hen
      rw [List.length_cons, Nat.mul_succ] at hle
      rw [appendedOut_length]
      omega

/-- All legs of some entries end with room: the others stand as they were. -/
theorem Rig.endEntries_room {r : Rig} {k : Nat} (hk : r.Costs k) (m : Moment) (hfull : FullTable r.table)
    (hn : ((allLegs r).map fun l => l.id).Nodup) (p : Entry → Bool)
    (hroom : ∀ o, (r.out o).enabled = true →
      (r.out o).urgent.length + k * ((r.table.filter p).flatMap fun e => e.legs).length ≤ 48) :
    r.endLegs m (legIds (r.table.filter p)) =
      (endedAll m (datedLegs (r.table.filter p)) r).setTable (r.table.filter fun e => !p e) := by
  have hlen : (datedLegs (r.table.filter p)).length = ((r.table.filter p).flatMap fun e => e.legs).length := by
    rw [← datedLegs_legs, List.length_map]
  rw [← datedLegs_ids, Rig.endLegs_room hk m hfull ?_ ?_ (by rw [hlen]; exact hroom), datedLegs_ids,
    dropLegs_legIds hfull hn]
  · intro x hx
    obtain ⟨e, he, hxe⟩ := List.mem_flatMap.mp hx
    obtain ⟨l, hl, rfl⟩ := List.mem_map.mp hxe
    exact findLeg_of_mem hn (List.mem_of_mem_filter he) hl
  · have hids : (datedLegs (r.table.filter p)).map (fun x => x.2.id) =
        ((r.table.filter p).flatMap fun e => e.legs).map fun l => l.id := by
      rw [← datedLegs_legs, List.map_map]
      rfl
    rw [hids]
    refine hn.sublist (List.Sublist.map _ ?_)
    exact List.filter_sublist.flatMap _

end Sys2Proof.Machine
end

section
/-! Note-offs and the sustain pedal (O49). -/
namespace Sys2Proof.Machine

/-! ### Ends of legs where no program is pending -/

/-- No program is pending. -/
def Rig.NonePending (r : Rig) : Prop := ∀ o c, (r.chan o c).pending = none

theorem Rig.NonePending.costs {r : Rig} (h : r.NonePending) : r.Costs 1 :=
  ⟨Nat.le_refl 1, fun o c hp => absurd (h o c) hp⟩

section
variable {r : Rig} (h : r.NonePending) (m : Moment) (g : Generation) (l : Leg)
include h

theorem endedLeg_nonePending : endedLeg m g r l = if l.sent then
    (offRig m r l).setChan l.output l.channel
      { r.chan l.output l.channel with sounding := (r.chan l.output l.channel).sounding - 1 }
    else r := by
  cases hs : l.sent
  · exact endedLeg_unsent hs m g r
  · rw [endedLeg_sent hs, h]
    rfl

theorem endedLeg_out (o : Output) :
    (endedLeg m g r l).out o = appendedOut m.now (r.out o) (offsOf r [l] o) := by
  rw [endedLeg_nonePending h]
  cases hs : l.sent
  · simp [offsOf, hs, appendedOut_nil]
  · rw [if_pos rfl, Rig.out_setChan, offRig_out m r hs]

theorem endedLeg_chan (o : Output) (c : Chan) :
    (endedLeg m g r l).chan o c = { r.chan o c with sounding := (r.chan o c).sounding - namedBy [l] o c } := by
  rw [endedLeg_nonePending h]
  cases hs : l.sent
  · simp [namedBy, hs]
  · rw [if_pos rfl, Rig.chan_setChan, offRig_chan]
    by_cases hoc : o = l.output ∧ c = l.channel
    · obtain ⟨rfl, rfl⟩ := hoc
      simp [namedBy, hs]
    · have : ¬(l.output = o ∧ l.channel = c) := fun hoc' => hoc ⟨hoc'.1.symm, hoc'.2.symm⟩
      simp [namedBy, hs, hoc, this]

end

theorem Rig.NonePending.endedLeg {r : Rig} (h : r.NonePending) (m : Moment) (g : Generation) (l : Leg) :
    (endedLeg m g r l).NonePending := fun o c => by
  rw [endedLeg_chan h]
  exact h o c

/-- Where no program is pending, legs end as if of any one generation: their NOTE-OFFs are appended, and the
sounding counts fall. -/
theorem endedAll_nonePending {r : Rig} (h : r.NonePending) (m : Moment) (g : Generation)
    (ls : List (Generation × Leg)) :
    endedAll m ls r = (ls.map fun x => x.2).foldl (endedLeg m g) r ∧
      (∀ o, (endedAll m ls r).out o = appendedOut m.now (r.out o) (offsOf r (ls.map fun x => x.2) o)) ∧
      ∀ o c, (endedAll m ls r).chan o c =
        { r.chan o c with sounding := (r.chan o c).sounding - namedBy (ls.map fun x => x.2) o c } := by
  induction ls generalizing r with
  | nil => exact ⟨rfl, fun o => by simp [offsOf, appendedOut_nil, endedAll], fun o c => rfl⟩
  | cons x ls ih =>
    obtain ⟨hall, hout, hchan⟩ := ih (h.endedLeg m x.1 x.2)
    have hen : ∀ o, ((endedLeg m x.1 r x.2).out o).enabled = (r.out o).enabled := fun o => by
      rw [endedLeg_out h, appendedOut_enabled]
    rw [endedAll_cons]
    refine ⟨?_, fun o => ?_, fun o c => ?_⟩
    · rw [hall, endedLeg_nonePending h, ← endedLeg_nonePending h m g]
      rfl
    · rw [hout, endedLeg_out h, appendedOut_append, offsOf_congr hen, List.map_cons, offsOf_cons r x.2 (ls.map _)]
    · rw [hchan, endedLeg_chan h, List.map_cons, namedBy_cons x.2 (ls.map _), ← Nat.sub_sub]

/-- What the statement of O49 says of the legs of some entries that have ended, read off the instrument side. -/
theorem LegsEnd.of_endedAll {s t : State} {d : Desk} {es : List Entry} (h : s.rig.NonePending)
    (hout : ∀ o, t.rig.out o = (endedAll s.moment (datedLegs es) (s.rig.setDesk d)).out o)
    (hdesk : t.desk = (endedAll s.moment (datedLegs es) (s.rig.setDesk d)).desk)
    (hchan : ∀ o c, t.rig.chan o c = (endedAll s.moment (datedLegs es) (s.rig.setDesk d)).chan o c) :
    LegsEnd s t d (es.flatMap fun e => e.legs) := by
  obtain ⟨kall, kout, kchan⟩ :=
    endedAll_nonePending (r := s.rig.setDesk d) h s.moment s.scene.generation (datedLegs es)
  rw [datedLegs_legs] at kall kout kchan
  exact ⟨fun o => (hout o).trans (kout o), hdesk.trans (congrArg Rig.desk kall), fun o c => (hchan o c).trans (kchan o c)⟩

/-! ### The note table and the pedals -/

section
variable {r : Rig} {m : Moment} {n : Input} {c : Chan} {k : Seven}

theorem Rig.liftKey_fresh (h : r.table.find? (fun e => e.isFrom n c k) = none) : r.liftKey m n c k = r := by
  rw [Rig.liftKey, h]

variable {e : Entry} (h : r.table.find? (fun e => e.isFrom n c k) = some e)
include h

theorem Rig.liftKey_sustained (hs : e.sustained = true) : r.liftKey m n c k = r := by
  rw [Rig.liftKey, h]
  exact if_pos hs

theorem Rig.liftKey_down (hs : e.sustained = false) (hp : r.pedal n c = true) :
    r.liftKey m n c k = r.setTable (sustainEntry r.table n c k) := by
  rw [Rig.liftKey, h]
  exact (if_neg (by simp [hs])).trans (if_pos hp)

theorem Rig.liftKey_up (hs : e.sustained = false) (hp : r.pedal n c = false) :
    r.liftKey m n c k = r.endLegs m (legIds [e]) := by
  rw [Rig.liftKey, h]
  exact (if_neg (by simp [hs])).trans (if_neg (by simp [hp]))

end

theorem State.setTable_sameBut (s : State) (t : List Entry) : SameBut [.table] s (s.setRig (s.rig.setTable t)) := by
  intro b hb
  cases b with
  | table => exact absurd List.mem_cons_self hb
  | _ => rfl

theorem State.setPedal_sameBut (s : State) (n : Input) (c : Chan) (x : Bool) :
    SameBut [.pedals] s (s.setRig (s.rig.setPedal n c x)) := by
  intro b hb
  cases b with
  | pedals => exact absurd List.mem_cons_self hb
  | _ => rfl

/-! ### Note-offs -/

/-- The kind that a note-off arrives as. -/
def noteOffKind (asNoteOn : Bool) : ChannelKind := if asNoteOn then .noteOn else .noteOff

theorem State.noteOff_setup {s : State} (hm : s.scene.mode = .setupMode) (n : Input) (c : Chan) (k : Seven)
    (asNoteOn : Bool) : s.eventArrives n (noteOffKind asNoteOn) c k 0 = s.arrived n (noteOffKind asNoteOn) c k := by
  rw [State.eventArrives_eq, State.deliver_setup (s := s.arrived n (noteOffKind asNoteOn) c k) hm]

theorem State.noteOff_show {s : State} (hm : s.scene.mode = .showMode) (n : Input) (c : Chan) (k : Seven)
    (asNoteOn : Bool) : s.eventArrives n (noteOffKind asNoteOn) c k 0 =
      (s.arrived n (noteOffKind asNoteOn) c k).setRig
        ((s.arrived n (noteOffKind asNoteOn) c k).rig.liftKey s.moment n c k) := by
  have hev : assemble (noteOffKind asNoteOn) k 0 = .noteOff k := by cases asNoteOn <;> rfl
  rw [State.eventArrives_eq, hev, State.deliver_show (s := s.arrived n (noteOffKind asNoteOn) c k) hm]
  rfl

/-- The only leg of an entry, the last old one of its record, ends with room and releases the pending program. -/
theorem Rig.endLeg_releases {r : Rig} {m : Moment} {g : Generation} {l : Leg} {x : Pending}
    (hf : findLeg r.table l.id = some (g, l)) (hs : l.sent = true)
    (hp : (r.chan l.output l.channel).pending = some x) (hold : (r.chan l.output l.channel).old = 1)
    (hage : (m.generation - x.generation).toNat < (m.generation - g).toNat)
    (hen : (r.out l.output).enabled = true) (hroom : (r.out l.output).urgent.length + 2 ≤ 48) :
    ((r.endLeg m l.id).out l.output).urgent = (r.out l.output).urgent ++
        [.noteOff l.channel l.key, .program l.channel x.program false] ∧
      (r.endLeg m l.id).chan l.output l.channel = { r.chan l.output l.channel with
        sounding := (r.chan l.output l.channel).sounding - 1
        old := 0
        pending := none
        held := none
        program := some x.program.number
        bank := match x.program.bank with
          | none => (r.chan l.output l.channel).bank
          | some b => some b } := by
  rw [Rig.endLeg_room hf fun _ => ⟨by omega, fun _ => by omega⟩, Rig.out_setTable, Rig.chan_setTable,
    endedLeg_sent hs, hp]
  dsimp only
  rw [if_pos hage, if_pos (by omega)]
  have hoffs : offsOf r [l] l.output = [.noteOff l.channel l.key] := by simp [offsOf, hen, hs]
  constructor
  · rw [releasedRig_out, Rig.out_setChan, offRig_out m r hs, appendedOut_enabled, if_pos ⟨rfl, hen⟩,
      appendedOut_append, hoffs]
    rfl
  · unfold releasedRig
    dsimp only
    rw [Rig.out_setChan, offRig_out m r hs, appendedOut_enabled, if_pos hen, Rig.chan_setChan, if_pos ⟨rfl, rfl⟩,
      appendedRig_chan, if_pos ⟨rfl, by simp [Urgent.isProgramOf]⟩, Rig.chan_setChan, if_pos ⟨rfl, rfl⟩, hold]
    rfl

theorem flatMap_legs_single (e : Entry) : ([e].flatMap fun x => x.legs) = e.legs := List.flatMap_singleton _ _

/-- A note-off in SHOW of a SOUNDING entry whose pedal is UP. -/
theorem noteOff_up {s : State} (hl : s.live = true) (n : Input) (c : Chan) (k : Seven) (asNoteOn : Bool) {e : Entry}
    (hm : s.scene.mode = .showMode) (hfind : s.rig.table.find? (fun e => e.isFrom n c k) = some e)
    (hs : e.sustained = false) (hp : s.rig.pedal n c = false) (htable : tableBounded s) (hcount : countsInStep s) :
    ∃ t, exec (.noteOff n c k asNoteOn) s = .next t ∧
      SameBut [.desk, .inputs, .outputs, .records, .table] s t ∧
      (t.rig.table.map fun x => (x.input, x.channel, x.key, x.sustained, x.generation)) =
        ((s.rig.table.filter fun x => !x.isFrom n c k).map fun x =>
          (x.input, x.channel, x.key, x.sustained, x.generation)) ∧
      (Roomy s e.legs.length →
        LegsEnd s t (arrivedDesk s n (if asNoteOn then .noteOn else .noteOff) c k) e.legs ∧
        t.rig.table = s.rig.table.filter fun x => !x.isFrom n c k) ∧
      (∀ l x, e.legs = [l] → l.sent = true → (s.rig.chan l.output l.channel).pending = some x →
        (s.rig.chan l.output l.channel).old = 1 →
        (s.scene.generation - x.generation).toNat < (s.scene.generation - e.generation).toNat →
        (s.rig.out l.output).enabled = true → (s.rig.out l.output).urgent.length + 2 ≤ 48 →
        (t.rig.out l.output).urgent = (s.rig.out l.output).urgent ++
          [.noteOff l.channel l.key, .program l.channel x.program false] ∧
        t.rig.chan l.output l.channel = { s.rig.chan l.output l.channel with
          sounding := (s.rig.chan l.output l.channel).sounding - 1
          old := 0
          pending := none
          held := none
          program := some x.program.number
          bank := match x.program.bank with
            | none => (s.rig.chan l.output l.channel).bank
            | some b => some b }) := by
  have hmem := List.mem_of_find?_eq_some hfind
  have hbounded := (tableBounded_iff s).mp htable
  obtain ⟨-, hids, -⟩ := hcount
  have hone := filter_isFrom hbounded hmem (by simpa using List.find?_some hfind)
  rw [exec_noteOff hl]
  change ∃ t, _ = Host.Outcome.next t ∧ _
  generalize hu : s.arrived n (noteOffKind asNoteOn) c k = u
  have hsame : SameBut [.desk, .inputs] s u := hu ▸ (s.arrived_onlyArrives n _ c k).1
  have hrig : u.rig = s.rig.setDesk (arrivedDesk s n (noteOffKind asNoteOn) c k) := by
    rw [← hu]
    exact (s.arrived_frame n _ c k).2.2.2.2
  have hev : s.eventArrives n (if asNoteOn then .noteOn else .noteOff) c k 0 =
      u.setRig (u.rig.endLegs s.moment (legIds (s.rig.table.filter fun x => x.isFrom n c k))) := by
    rw [hone, ← Rig.liftKey_up (r := u.rig) (by rw [hrig]; exact hfind) hs (by rw [hrig]; exact hp), ← hu]
    exact State.noteOff_show hm n c k asNoteOn
  rw [hev]
  have htab : u.rig.table = s.rig.table := by rw [hrig]; rfl
  have hidsu : ((allLegs u.rig).map fun l => l.id).Nodup := by rw [allLegs, htab]; exact hids
  refine ⟨_, rfl, ?_, ?_, fun hroom => ?_, fun l x hlegs hsent hpend hold hage hen hlen => ?_⟩
  · exact (hsame.mono (by simp)).trans ((u.setRig_sameBut _ (u.rig.endLegs_pedals _ _)).mono (by simp))
  · rw [State.setRig_rig, ← htab]
    exact u.rig.endLegs_others s.moment (htab ▸ hbounded) hidsu _
  · obtain ⟨hnone, hfree⟩ := hroom
    have hends := Rig.endEntries_room (r := u.rig) (k := 1) (Rig.NonePending.costs (hrig ▸ hnone)) s.moment
      (htab ▸ hbounded.full) hidsu (fun x => x.isFrom n c k) (fun o _ => by
        rw [htab, hone, flatMap_legs_single, hrig, Rig.out_setDesk, Nat.one_mul]
        exact hfree o)
    rw [htab] at hends
    rw [hends, hone, ← flatMap_legs_single e]
    exact ⟨LegsEnd.of_endedAll hnone (fun o => by rw [hrig]; rfl) (by rw [hrig]; rfl) fun o c => by rw [hrig]; rfl, rfl⟩
  · have hleg : u.rig.endLegs s.moment (legIds (s.rig.table.filter fun x => x.isFrom n c k)) =
        u.rig.endLeg s.moment l.id := by
      rw [hone, legIds, List.flatMap_singleton, hlegs]
      rfl
    have hf : findLeg u.rig.table l.id = some (e.generation, l) := by
      rw [htab]
      exact findLeg_of_mem hids hmem (by simp [hlegs])
    rw [State.setRig_rig, hleg]
    have hends := Rig.endLeg_releases (m := s.moment) hf hsent (x := x) (by rw [hrig]; exact hpend)
      (by rw [hrig]; exact hold) hage (by rw [hrig]; exact hen) (by rw [hrig]; exact hlen)
    rw [hrig] at hends ⊢
    exact hends

theorem noteOff_rule {s : State} (hl : s.live = true) (n : Input) (c : Chan) (k : Seven) (asNoteOn : Bool) :
    (s.scene.mode = .setupMode ∨ (∀ e ∈ s.rig.table, e.isFrom n c k = false) ∨
        (∃ e, s.rig.table.find? (fun e => e.isFrom n c k) = some e ∧ e.sustained = true) →
      ∃ t, exec (.noteOff n c k asNoteOn) s = .next t ∧
        OnlyArrives s t n (if asNoteOn then .noteOn else .noteOff) c k) ∧
    ∀ e, s.scene.mode = .showMode → s.rig.table.find? (fun e => e.isFrom n c k) = some e → e.sustained = false →
      s.rig.pedal n c = true → ∃ t, exec (.noteOff n c k asNoteOn) s = .next t ∧
        SameBut [.desk, .inputs, .table] s t ∧
        t.desk = arrivedDesk s n (if asNoteOn then .noteOn else .noteOff) c k ∧
        t.rig.table = s.rig.table.map fun x => if x.isFrom n c k then { x with sustained := true } else x := by
  rw [exec_noteOff hl]
  change (_ → ∃ t, Host.Outcome.next (s.eventArrives n (noteOffKind asNoteOn) c k 0) = _ ∧
    OnlyArrives s t n (noteOffKind asNoteOn) c k) ∧ _
  have harr := s.arrived_onlyArrives n (noteOffKind asNoteOn) c k
  refine ⟨fun h => ⟨s.arrived n (noteOffKind asNoteOn) c k, congrArg _ ?_, harr⟩, fun e hm hfind hs hp => ⟨_, rfl, ?_⟩⟩
  · cases hm : s.scene.mode with
    | setupMode => exact State.noteOff_setup hm n c k asNoteOn
    | showMode =>
      rw [State.noteOff_show hm]
      rcases h.resolve_left (by simp [hm]) with hfresh | ⟨e, hfind, hsus⟩
      · rw [Rig.liftKey_fresh (r := (s.arrived n (noteOffKind asNoteOn) c k).rig)
          (List.find?_eq_none.mpr fun e he => by simp [hfresh e he])]
        rfl
      · rw [Rig.liftKey_sustained (r := (s.arrived n (noteOffKind asNoteOn) c k).rig) hfind hsus]
        rfl
  · obtain ⟨hsame, hdesk, -⟩ := harr
    have hev : s.eventArrives n (if asNoteOn then .noteOn else .noteOff) c k 0 =
        (s.arrived n (noteOffKind asNoteOn) c k).setRig ((s.arrived n (noteOffKind asNoteOn) c k).rig.setTable
          (sustainEntry (s.arrived n (noteOffKind asNoteOn) c k).rig.table n c k)) := by
      rw [← Rig.liftKey_down (m := s.moment) (r := (s.arrived n (noteOffKind asNoteOn) c k).rig) hfind hs hp]
      exact State.noteOff_show hm n c k asNoteOn
    rw [hev]
    exact ⟨(hsame.mono (by simp)).trans ((State.setTable_sameBut _ _).mono (by simp)), hdesk, rfl⟩

/-! ### The pedal -/

/-- The pedal's CONTROL arrives with the header's sustain controller number. -/
theorem State.pedal_setup {s : State} (hm : s.scene.mode = .setupMode) (n : Input) (c : Chan) (v : Seven) :
    s.eventArrives n .control c (Fin.ofNat 128 s.mem.header.sustainController) v =
      s.arrived n .control c (Fin.ofNat 128 s.mem.header.sustainController) := by
  rw [State.eventArrives_eq, State.deliver_setup
    (s := s.arrived n .control c (Fin.ofNat 128 s.mem.header.sustainController)) hm]

theorem State.pedal_show {s : State} (hm : s.scene.mode = .showMode) (h127 : s.mem.header.sustainController ≤ 127)
    (n : Input) (c : Chan) (v : Seven) :
    s.eventArrives n .control c (Fin.ofNat 128 s.mem.header.sustainController) v =
      (s.arrived n .control c (Fin.ofNat 128 s.mem.header.sustainController)).setRig
        ((s.arrived n .control c (Fin.ofNat 128 s.mem.header.sustainController)).rig.movePedal s.moment n c v) := by
  rw [State.eventArrives_eq, State.deliver_show
    (s := s.arrived n .control c (Fin.ofNat 128 s.mem.header.sustainController)) hm]
  exact if_pos (decide_eq_true (Nat.mod_eq_of_lt (by omega)))

/-- The pedal goes UP in SHOW: the entries it held end. -/
theorem pedal_up {s : State} (hl : s.live = true) (n : Input) (c : Chan) (v : Seven) (hm : s.scene.mode = .showMode)
    (h127 : s.mem.header.sustainController ≤ 127) (hv : v.val < 64) (hp : s.rig.pedal n c = true)
    (htable : tableBounded s) (hcount : countsInStep s) :
    ∃ t, exec (.sustainPedal n c v) s = .next t ∧
      SameBut [.desk, .inputs, .outputs, .records, .table, .pedals] s t ∧
      (∀ i d, t.rig.pedal i d = if i = n ∧ d = c then false else s.rig.pedal i d) ∧
      (t.rig.table.map fun x => (x.input, x.channel, x.key, x.sustained, x.generation)) =
        ((s.rig.table.filter fun x => !(x.sustained && x.input = n && x.channel = c)).map fun x =>
          (x.input, x.channel, x.key, x.sustained, x.generation)) ∧
      (Roomy s ((s.rig.table.filter fun x => x.sustained && x.input = n && x.channel = c).flatMap
          fun x => x.legs).length →
        LegsEnd s t (arrivedDesk s n .control c (Fin.ofNat 128 s.mem.header.sustainController))
          ((s.rig.table.filter fun x => x.sustained && x.input = n && x.channel = c).flatMap fun x => x.legs) ∧
        t.rig.table = s.rig.table.filter fun x => !(x.sustained && x.input = n && x.channel = c)) := by
  have hbounded := (tableBounded_iff s).mp htable
  obtain ⟨-, hids, -⟩ := hcount
  rw [exec_sustainPedal hl]
  rw [State.pedal_show hm h127]
  generalize hu : s.arrived n .control c (Fin.ofNat 128 s.mem.header.sustainController) = u
  generalize hd : arrivedDesk s n .control c (Fin.ofNat 128 s.mem.header.sustainController) = d
  have hsame : SameBut [.desk, .inputs] s u := hu ▸ (s.arrived_onlyArrives n _ c _).1
  have hrig : u.rig = s.rig.setDesk d := by
    rw [← hu, ← hd]
    exact (s.arrived_frame n _ c _).2.2.2.2
  generalize hw : u.rig.setPedal n c false = w
  have htab : w.table = s.rig.table := by rw [← hw, hrig]; rfl
  have hmove : u.rig.movePedal s.moment n c v = w.endLegs s.moment
      (legIds (w.table.filter fun x => x.sustained && x.input = n && x.channel = c)) := by
    rw [Rig.movePedal, ← hw, if_neg (by omega), if_pos (by rw [hrig]; exact hp)]
    rfl
  rw [hmove]
  have hidsw : ((allLegs w).map fun l => l.id).Nodup := by rw [allLegs, htab]; exact hids
  refine ⟨_, rfl, ?_, fun i e => ?_, ?_, fun hroom => ?_⟩
  · have h1 := u.setPedal_sameBut n c false
    rw [hw] at h1
    have h2 := (u.setRig w).setRig_sameBut _ (w.endLegs_pedals s.moment
      (legIds (w.table.filter fun x => x.sustained && x.input = n && x.channel = c)))
    exact (hsame.mono (by simp)).trans ((h1.mono (by simp)).trans (h2.mono (by simp)))
  · rw [State.setRig_rig, Rig.pedal, (w.endLegs_pedals _ _).1, ← Rig.pedal, ← hw, Rig.pedal_setPedal, hrig]
    rfl
  · rw [State.setRig_rig, ← htab]
    exact w.endLegs_others s.moment (htab ▸ hbounded) hidsw _
  · obtain ⟨hnone, hfree⟩ := hroom
    have hends := Rig.endEntries_room (r := w) (k := 1)
      (Rig.NonePending.costs (by rw [← hw, hrig]; exact hnone)) s.moment (htab ▸ hbounded.full) hidsw
      (fun x => x.sustained && x.input = n && x.channel = c) (fun o _ => by
        rw [htab, ← hw, hrig, Nat.one_mul]
        exact hfree o)
    have hnotes : endedAll s.moment
          (datedLegs (s.rig.table.filter fun x => x.sustained && x.input = n && x.channel = c)) w =
        (endedAll s.moment (datedLegs (s.rig.table.filter fun x => x.sustained && x.input = n && x.channel = c))
          (s.rig.setDesk d)).withNotes w := by
      rw [← endedAll_withNotes, ← hw, hrig]
      rfl
    rw [hends, htab, hnotes]
    exact ⟨LegsEnd.of_endedAll hnone (fun o => rfl) rfl fun o c => rfl, rfl⟩

/-- Settles O49: the note-offs by their entry and pedal, and the pedal by its value. -/
theorem keyUpAndPedal : Obligations.KeyUpAndPedal := by
  refine ⟨fun s n c k asNoteOn hl => ?_, fun s n c v hl hm => ?_, fun s n c v hl hm h127 => ⟨fun hv => ?_, fun hv hp => ?_,
    fun hv hp htable hcount released hreleased => ?_⟩⟩
  · obtain ⟨hrule, hdown⟩ := noteOff_rule hl n c k asNoteOn
    exact ⟨hrule, fun e hm hfind hs => ⟨hdown e hm hfind hs, noteOff_up hl n c k asNoteOn hm hfind hs⟩⟩
  · rw [exec_sustainPedal hl, State.pedal_setup hm]
    exact ⟨_, rfl, s.arrived_onlyArrives n .control c _⟩
  · obtain ⟨hsame, hdesk, -⟩ := s.arrived_onlyArrives n .control c (Fin.ofNat 128 s.mem.header.sustainController)
    rw [exec_sustainPedal hl, State.pedal_show hm h127, Rig.movePedal, if_pos hv]
    exact ⟨_, rfl, (hsame.mono (by simp)).trans ((State.setPedal_sameBut _ n c true).mono (by simp)), hdesk,
      fun i d => Rig.pedal_setPedal _ n i c d true⟩
  · rw [exec_sustainPedal hl, State.pedal_show hm h127, Rig.movePedal, if_neg (by omega), if_neg]
    · exact ⟨_, rfl, s.arrived_onlyArrives n .control c _⟩
    · have hup : (s.arrived n .control c (Fin.ofNat 128 s.mem.header.sustainController)).rig.pedal n c = false := hp
      rw [hup]
      exact Bool.false_ne_true
  · rw [hreleased]
    exact pedal_up hl n c v hm h127 hv hp htable hcount

end Sys2Proof.Machine
end

section
/-! The legs that routing plans for a note-on: what they rest on, and the outputs they name (R47 to R52). -/
namespace Sys2Proof.Machine

/-! ### Plans do not rest on the desk -/

/-- Candidate legs do not rest on the desk. -/
theorem Rig.OnlyDesk.candidate {b r : Rig} (h : b.OnlyDesk r) (m : Moment) (echo : BitVec 4) (n : Input) (k v : Seven)
    (e : Layer) (o : Output) : (r.candidate m echo n k v e o).2 = (b.candidate m echo n k v e o).2 := by
  obtain ⟨d, rfl⟩ : ∃ d, r = b.setDesk d := ⟨_, h⟩
  unfold Rig.candidate
  rw [Rig.out_setDesk]
  split
  · rfl
  · split <;> rfl

/-- A fold that gathers lists beside a rig whose desk alone changes gathers what each round gives on the first rig. -/
theorem Rig.foldl_gather {α β : Type} {b : Rig} {f : Rig → α → Rig × List β}
    (hf : ∀ (t : Rig) (a : α), b.OnlyDesk t → b.OnlyDesk (f t a).1 ∧ (f t a).2 = (f b a).2) (l : List α) {r : Rig}
    (hr : b.OnlyDesk r) (xs : List β) :
    (l.foldl (fun acc a => ((f acc.1 a).1, acc.2 ++ (f acc.1 a).2)) (r, xs)).2 =
      xs ++ l.flatMap fun a => (f b a).2 := by
  induction l generalizing r xs with
  | nil => simp
  | cons a l ih =>
    obtain ⟨hdesk, hlist⟩ := hf r a hr
    rw [List.foldl_cons, ih hdesk, hlist, List.flatMap_cons, List.append_assoc]

/-- The candidate legs of one entry, by output. -/
theorem Rig.OnlyDesk.entryLegs {b r : Rig} (h : b.OnlyDesk r) (m : Moment) (echo : BitVec 4) (n : Input) (c : Chan)
    (k v : Seven) (e : Layer) : (r.entryLegs m echo n c k v e).2 =
      if e.action = .route then (outputsOf e.outputs).flatMap fun o => (b.candidate m echo n k v e o).2 else [] := by
  unfold Rig.entryLegs
  split
  · have hstart : b.OnlyDesk (if e.isVoid echo n then r.reportVoid m n c e else r) := by
      split
      · exact h.trans (r.onlyDesk_setDesk _)
      · exact h
    exact (Rig.foldl_gather (f := fun t o => t.candidate m echo n k v e o)
      (fun t o ht => ⟨ht.trans (t.candidate_onlyDesk m echo n k v e o), ht.candidate m echo n k v e o⟩) _ hstart
      []).trans (List.nil_append _)
  · rfl

/-- The duplicate and fan-out rule on the planned legs alone (R52). -/
def keepPlan (kept : List LegPlan) (l : LegPlan) : List LegPlan :=
  if kept.any (·.sameNote l) then kept else if kept.length < Config.maxLegs then kept ++ [l] else kept

theorem Rig.keepLeg_plans (x : Rig × List LegPlan) (l : LegPlan) : (Rig.keepLeg x l).2 = keepPlan x.2 l := by
  unfold Rig.keepLeg keepPlan
  split
  · rfl
  · split <;> rfl

theorem Rig.foldl_keepLeg (ls : List LegPlan) (x : Rig × List LegPlan) :
    (ls.foldl Rig.keepLeg x).2 = ls.foldl keepPlan x.2 := by
  induction ls generalizing x with
  | nil => rfl
  | cons l ls ih => rw [List.foldl_cons, ih, Rig.keepLeg_plans, List.foldl_cons]

/-- The planned legs: the candidates of the matching ROUTE entries, entry by entry and output by output, under the
duplicate and fan-out rule. -/
theorem Rig.OnlyDesk.buildLegs {b r : Rig} (h : b.OnlyDesk r) (m : Moment) (echo : BitVec 4) (bank : List Layer)
    (n : Input) (c : Chan) (k v : Seven) : (r.buildLegs m echo bank n c k v).2 =
      ((bank.filter fun e => e.isMatch n c k v).flatMap fun e => (b.entryLegs m echo n c k v e).2).foldl
        keepPlan [] := by
  have hentry : ∀ (t : Rig) (e : Layer), b.OnlyDesk t → b.OnlyDesk (t.entryLegs m echo n c k v e).1 ∧
      (t.entryLegs m echo n c k v e).2 = (b.entryLegs m echo n c k v e).2 := fun t e ht =>
    ⟨ht.trans (t.entryLegs_onlyDesk m echo n c k v e),
      (ht.entryLegs m echo n c k v e).trans ((Rig.OnlyDesk.refl b).entryLegs m echo n c k v e).symm⟩
  have hcand := Rig.foldl_gather (f := fun t e => t.entryLegs m echo n c k v e) hentry
    (bank.filter fun e => e.isMatch n c k v) h []
  rw [List.nil_append] at hcand
  exact (Rig.foldl_keepLeg _ _).trans (congrArg (fun l => l.foldl keepPlan []) hcand)

theorem Rig.buildLegs_setDesk (r : Rig) (d : Desk) (m : Moment) (echo : BitVec 4) (bank : List Layer) (n : Input)
    (c : Chan) (k v : Seven) :
    ((r.setDesk d).buildLegs m echo bank n c k v).2 = (r.buildLegs m echo bank n c k v).2 :=
  ((r.onlyDesk_setDesk d).buildLegs m echo bank n c k v).trans
    ((Rig.OnlyDesk.refl r).buildLegs m echo bank n c k v).symm

/-! ### Plans stand on enabled outputs -/

theorem keepPlan_subset (kept : List LegPlan) (l : LegPlan) : keepPlan kept l ⊆ l :: kept := by
  unfold keepPlan
  split
  · exact List.subset_cons_self _ _
  · split
    · simp
    · exact List.subset_cons_self _ _

theorem mem_foldl_keepPlan {ls kept : List LegPlan} {x : LegPlan} (h : x ∈ ls.foldl keepPlan kept) :
    x ∈ ls ∨ x ∈ kept := by
  induction ls generalizing kept with
  | nil => exact .inr h
  | cons l ls ih =>
    rcases ih h with h | h
    · exact .inl (List.mem_cons_of_mem _ h)
    · rcases List.mem_cons.mp (keepPlan_subset kept l h) with h | h
      · exact .inl (h ▸ List.mem_cons_self)
      · exact .inr h

theorem Rig.candidate_enabled {r : Rig} {m : Moment} {echo : BitVec 4} {n : Input} {k v : Seven} {e : Layer}
    {o : Output} {l : LegPlan} (h : l ∈ (r.candidate m echo n k v e o).2) : (r.out l.output).enabled = true := by
  unfold Rig.candidate at h
  split at h
  · exact absurd h List.not_mem_nil
  · rename_i hen
    split at h
    · exact absurd h List.not_mem_nil
    · rw [List.mem_singleton.mp h]
      simp only [Bool.or_eq_true, Bool.not_eq_true', not_or, Bool.not_eq_false] at hen
      exact hen.2

theorem Rig.buildLegs_enabled {r : Rig} {m : Moment} {echo : BitVec 4} {bank : List Layer} {n : Input} {c : Chan}
    {k v : Seven} {l : LegPlan} (h : l ∈ (r.buildLegs m echo bank n c k v).2) : (r.out l.output).enabled = true := by
  rw [(Rig.OnlyDesk.refl r).buildLegs] at h
  obtain ⟨e, -, he⟩ := List.mem_flatMap.mp ((mem_foldl_keepPlan h).resolve_right List.not_mem_nil)
  rw [(Rig.OnlyDesk.refl r).entryLegs] at he
  split at he
  · obtain ⟨o, -, ho⟩ := List.mem_flatMap.mp he
    exact Rig.candidate_enabled ho
  · exact absurd he List.not_mem_nil

/-! ### Cue entries build nothing -/

/-- A bank builds the legs that its ROUTE entries build. -/
theorem Rig.buildLegs_routes (r : Rig) (m : Moment) (echo : BitVec 4) (bank : List Layer) (n : Input) (c : Chan)
    (k v : Seven) : r.buildLegs m echo (bank.filter fun e => e.action = .route) n c k v =
      r.buildLegs m echo bank n c k v := by
  have hskip : ∀ (acc : Rig × List LegPlan) (e : Layer),
      (if decide (e.action = .route) = true then
        ((acc.1.entryLegs m echo n c k v e).1, acc.2 ++ (acc.1.entryLegs m echo n c k v e).2) else acc) =
      ((acc.1.entryLegs m echo n c k v e).1, acc.2 ++ (acc.1.entryLegs m echo n c k v e).2) := by
    intro acc e
    by_cases he : e.action = .route
    · rw [if_pos (decide_eq_true he)]
    · have hnone : acc.1.entryLegs m echo n c k v e = (acc.1, []) := if_neg he
      rw [if_neg (by simpa using he), hnone, List.append_nil]
  unfold Rig.buildLegs
  dsimp only
  rw [List.filter_comm, List.foldl_filter]
  simp only [hskip]

/-! ### Cue actions (R55 to R57) -/

theorem hits_eq (n : Input) (c : Chan) (k v : Seven) (e : Layer) : hits n c k v e = e.isMatch n c k v := by
  simp [hits, Layer.isMatch, Layer.hears, Bool.and_assoc]

/-- The state once the legs of a note-on have been built and handed to the Note Table. -/
def State.routedNotes (s : State) (n : Input) (c : Chan) (k v : Seven) : State :=
  s.setRig ((s.rig.buildLegs s.moment s.router.echo s.router.active n c k v).1.routeLegs s.moment n c k
    (s.rig.buildLegs s.moment s.router.echo s.router.active n c k v).2)

/-- The state once the scene cue of a note-on, if there is one, has been requested. -/
def State.cued (s : State) : Option Layer → State
  | some e => s.cueRequest e.cueAsk e.cueTag
  | none => s

theorem State.routeNoteOn_eq (s : State) (n : Input) (c : Chan) (k v : Seven) : s.routeNoteOn n c k v =
    if (s.router.active.filter fun e => e.isMatch n c k v).any (fun e => e.action = .tap) then
      ((s.routedNotes n c k v).cued (sceneCue (s.router.active.filter fun e => e.isMatch n c k v))).tap
    else (s.routedNotes n c k v).cued (sceneCue (s.router.active.filter fun e => e.isMatch n c k v)) := rfl

/-- The cue actions follow what the legs did. -/
theorem State.routeNoteOn_cuesFire (s : State) (n : Input) (c : Chan) (k v : Seven) :
    CuesFire (s.routedNotes n c k v) (s.routeNoteOn n c k v) n c k v := by
  intro cue hcue
  have hfind : sceneCue (s.router.active.filter fun e => e.isMatch n c k v) = cue := by
    rw [hcue, sceneCue, List.find?_filter]
    congr 1
    funext e
    rw [hits_eq]
    simp
  have hroute := s.routeNoteOn_eq n c k v
  rw [hfind] at hroute
  refine ⟨(s.routedNotes n c k v).cued cue, ?_, ?_, ?_, ?_, ?_⟩
  · rintro rfl
    rfl
  · rintro e rfl hnext
    simp only [State.cued, Layer.cueAsk, hnext, if_true]
  · rintro e rfl hprev
    simp only [State.cued, Layer.cueAsk, hprev, reduceCtorEq, if_false]
  · rintro ⟨e, he, hit, htap⟩
    rw [hroute, if_pos]
    refine List.any_eq_true.mpr ⟨e, List.mem_filter.mpr ⟨he, ?_⟩, decide_eq_true htap⟩
    rw [← hits_eq]
    exact hit
  · intro hno
    rw [hroute, if_neg]
    rw [List.any_eq_true]
    rintro ⟨e, he, htap⟩
    obtain ⟨hmem, hmatch⟩ := List.mem_filter.mp he
    exact hno e hmem ((hits_eq n c k v e).trans hmatch) (of_decide_eq_true htap)

/-- A note-on that matches ROUTE entries alone makes no cue action. -/
theorem State.routeNoteOn_routes {s : State} {n : Input} {c : Chan} {k v : Seven}
    (h : ∀ e ∈ s.router.active, e.isMatch n c k v = true → e.action = .route) :
    s.routeNoteOn n c k v = s.routedNotes n c k v := by
  have hnocue : s.router.active.find? (fun e => hits n c k v e && (e.action = .next || e.action = .prev)) = none := by
    refine List.find?_eq_none.mpr fun e he => ?_
    rw [hits_eq]
    cases hm : e.isMatch n c k v
    · simp
    · simp [h e he hm]
  obtain ⟨w, hw, -, -, -, hnotap⟩ := s.routeNoteOn_cuesFire n c k v none hnocue.symm
  rw [← hw rfl]
  refine hnotap fun e he hit htap => ?_
  rw [h e he ((hits_eq n c k v e).symm.trans hit)] at htap
  exact absurd htap nofun

end Sys2Proof.Machine
end

section
/-! A new note with room in the queues: its entry, its NOTE-ONs and its counts (R62 to R64, R88). -/
namespace Sys2Proof.Machine

/-! ### One leg that sounds -/

theorem onsOf_cons (l : Leg) (ls : List Leg) (o : Output) : onsOf (l :: ls) o = onsOf [l] o ++ onsOf ls o := by
  rw [onsOf, onsOf, onsOf, ← List.map_append, ← List.filter_append]
  rfl

theorem onsOf_length_le (ls : List Leg) (o : Output) : (onsOf ls o).length ≤ ls.length := by
  rw [onsOf, List.length_map]
  exact List.length_filter_le _ _

theorem OutPort.noteOns_appendedOut (now : StageTime) (q : OutPort) (es : List Urgent) :
    (appendedOut now q es).noteOns = q.noteOns + es.countP Urgent.isNoteOn := by
  have hu : (appendedOut now q es).urgent = q.urgent ++ es := by
    unfold appendedOut
    split
    · rename_i h
      rw [h, List.append_nil]
    · rfl
  rw [OutPort.noteOns_eq, OutPort.noteOns_eq, hu, List.countP_append]

section
variable (now : StageTime) (r : Rig) (l : Leg)

/-- The NOTE-ON of a leg is appended. -/
def onRig : Rig := appendedRig now r l.output (.noteOn l.channel l.key l.velocity l.id)

theorem onRig_chan (o : Output) (c : Chan) : (onRig now r l).chan o c = r.chan o c := by
  rw [onRig, appendedRig_chan, if_neg (by simp [Urgent.isProgramOf])]

theorem onRig_out (o : Output) : (onRig now r l).out o = appendedOut now (r.out o) (onsOf [l] o) := by
  rw [onRig, appendedRig_out]
  by_cases ho : o = l.output
  · subst ho
    simp [onsOf]
  · simp [onsOf, ho, Ne.symm ho, appendedOut_nil]

theorem soundedLeg_eq : soundedLeg now r l =
    let u := (onRig now r l).setChan l.output l.channel
      { r.chan l.output l.channel with sounding := (r.chan l.output l.channel).sounding + 1 }
    if (r.chan l.output l.channel).pending.isSome then u.setDesk (u.desk.report .staleProgramNotes l.output.val)
    else u := by
  have h : soundedLeg now r l =
      let u := (onRig now r l).setChan l.output l.channel { (onRig now r l).chan l.output l.channel with
        sounding := ((onRig now r l).chan l.output l.channel).sounding + 1 }
      if ((onRig now r l).chan l.output l.channel).pending.isSome then
        u.setDesk (u.desk.report .staleProgramNotes l.output.val) else u := rfl
  rw [h, onRig_chan]

theorem soundedLeg_out (o : Output) : (soundedLeg now r l).out o = appendedOut now (r.out o) (onsOf [l] o) := by
  rw [soundedLeg_eq]
  dsimp only
  split
  · rw [Rig.out_setDesk, Rig.out_setChan, onRig_out]
  · rw [Rig.out_setChan, onRig_out]

theorem soundedLeg_chan (hs : l.sent = true) (o : Output) (c : Chan) : (soundedLeg now r l).chan o c =
    { r.chan o c with sounding := (r.chan o c).sounding + namedBy [l] o c } := by
  have h : (soundedLeg now r l).chan o c = ((onRig now r l).setChan l.output l.channel
      { r.chan l.output l.channel with sounding := (r.chan l.output l.channel).sounding + 1 }).chan o c := by
    rw [soundedLeg_eq]
    dsimp only
    split <;> rfl
  rw [h, Rig.chan_setChan, onRig_chan]
  by_cases hoc : o = l.output ∧ c = l.channel
  · obtain ⟨rfl, rfl⟩ := hoc
    simp [namedBy, hs]
  · have : ¬(l.output = o ∧ l.channel = c) := fun hoc' => hoc ⟨hoc'.1.symm, hoc'.2.symm⟩
    simp [namedBy, hs, hoc, this]

theorem soundedLeg_notes : r.sameNotes (soundedLeg now r l) := by
  rw [soundedLeg_eq]
  dsimp only
  split <;> exact ⟨rfl, rfl, rfl⟩

theorem soundedLeg_withNotes (u : Rig) : soundedLeg now (r.withNotes u) l = (soundedLeg now r l).withNotes u := by
  have hchan : (r.withNotes u).chan l.output l.channel = r.chan l.output l.channel := rfl
  rw [soundedLeg_eq, soundedLeg_eq, hchan]
  dsimp only
  split <;> rfl

theorem soundedLeg_setTable (t : List Entry) : soundedLeg now (r.setTable t) l = (soundedLeg now r l).setTable t := by
  have hchan : (r.setTable t).chan l.output l.channel = r.chan l.output l.channel := rfl
  rw [soundedLeg_eq, soundedLeg_eq, hchan]
  dsimp only
  split <;> rfl

end

/-- A leg on an output with room sounds. -/
theorem Rig.soundLeg_room {r : Rig} {l : Leg} (m : Moment) (hen : (r.out l.output).enabled = true)
    (hlen : (r.out l.output).urgent.length < 48) (hons : (r.out l.output).noteOns < 32) :
    r.soundLeg m l = (soundedLeg m.now r l).setTable (markLeg r.table l.id true) := by
  have hoff : r.offerNoteOn m l.output l.channel l.key l.velocity l.id =
      offerEvent r m l.output (.noteOn l.channel l.key l.velocity l.id) := rfl
  have hfull : ¬fullFor (r.out l.output) (.noteOn l.channel l.key l.velocity l.id) := by
    simp [fullFor, Urgent.isNoteOn, hlen, hons]
  rw [Rig.soundLeg, hoff, offerEvent_room hen hfull (by simp)]
  dsimp only
  rw [if_pos rfl, Rig.settleDiscard_none, soundedLeg_eq]
  show (onRig m.now r l).markSent l = _
  rw [Rig.markSent, onRig_chan]
  dsimp only
  split <;> rfl

/-! ### The legs of a new entry -/

/-- The instrument side once some legs have sounded in order, with room. -/
def soundedAll (now : StageTime) (ls : List Leg) (r : Rig) : Rig := ls.foldl (soundedLeg now) r

theorem soundedAll_cons (now : StageTime) (l : Leg) (ls : List Leg) (r : Rig) :
    soundedAll now (l :: ls) r = soundedAll now ls (soundedLeg now r l) := rfl

theorem soundedAll_notes (now : StageTime) (ls : List Leg) (r : Rig) : r.sameNotes (soundedAll now ls r) := by
  induction ls generalizing r with
  | nil => exact r.sameNotes_refl
  | cons l ls ih => exact Rig.sameNotes_trans (soundedLeg_notes now r l) (ih _)

theorem soundedAll_withNotes (now : StageTime) (ls : List Leg) (r u : Rig) :
    soundedAll now ls (r.withNotes u) = (soundedAll now ls r).withNotes u := by
  induction ls generalizing r with
  | nil => rfl
  | cons l ls ih => rw [soundedAll_cons, soundedAll_cons, soundedLeg_withNotes, ih]

theorem soundedAll_setTable (now : StageTime) (ls : List Leg) (r : Rig) (t : List Entry) :
    soundedAll now ls (r.setTable t) = (soundedAll now ls r).setTable t := by
  induction ls generalizing r with
  | nil => rfl
  | cons l ls ih => rw [soundedAll_cons, soundedAll_cons, soundedLeg_setTable, ih]

theorem soundedAll_out (now : StageTime) (ls : List Leg) (r : Rig) (o : Output) :
    (soundedAll now ls r).out o = appendedOut now (r.out o) (onsOf ls o) := by
  induction ls generalizing r with
  | nil => exact (appendedOut_nil _ _).symm
  | cons l ls ih => rw [soundedAll_cons, ih, soundedLeg_out, appendedOut_append, onsOf_cons l ls]

theorem soundedAll_chan (now : StageTime) {ls : List Leg} (hs : ∀ l ∈ ls, l.sent = true) (r : Rig) (o : Output)
    (c : Chan) : (soundedAll now ls r).chan o c =
      { r.chan o c with sounding := (r.chan o c).sounding + namedBy ls o c } := by
  induction ls generalizing r with
  | nil => rfl
  | cons l ls ih =>
    rw [soundedAll_cons, ih fun x hx => hs x (List.mem_cons_of_mem _ hx), soundedLeg_chan _ _ _ (hs l List.mem_cons_self),
      namedBy_cons l ls, ← Nat.add_assoc]

/-- Legs on outputs with room for all of them sound one after another. -/
theorem Rig.soundLegs_room {r : Rig} (m : Moment) {ls : List Leg} (hen : ∀ l ∈ ls, (r.out l.output).enabled = true)
    (hroom : ∀ o, (r.out o).urgent.length + ls.length ≤ 48 ∧ (r.out o).noteOns + ls.length ≤ 32) :
    ls.foldl (fun r l => r.soundLeg m l) r =
      (soundedAll m.now ls r).setTable (ls.foldl (fun t l => markLeg t l.id true) r.table) := by
  induction ls generalizing r with
  | nil => rfl
  | cons l ls ih =>
    obtain ⟨hlen, hons⟩ := hroom l.output
    rw [List.length_cons] at hlen hons
    rw [List.foldl_cons, Rig.soundLeg_room m (hen l List.mem_cons_self) (by omega) (by omega), ih]
    · rw [soundedAll_setTable, soundedAll_cons]
      rfl
    · intro x hx
      rw [Rig.out_setTable, soundedLeg_out, appendedOut_enabled]
      exact hen x (List.mem_cons_of_mem _ hx)
    · intro o
      obtain ⟨hlen, hons⟩ := hroom o
      rw [List.length_cons] at hlen hons
      have hone := onsOf_length_le [l] o
      have hcount := List.countP_le_length (p := Urgent.isNoteOn) (l := onsOf [l] o)
      rw [List.length_singleton] at hone
      rw [Rig.out_setTable, soundedLeg_out, appendedOut_length, OutPort.noteOns_appendedOut]
      omega

/-! ### The new entry -/

/-- The legs of a new entry, every one sent. -/
def newLegs (first : Nat) (plans : List LegPlan) : List Leg :=
  (numberLegs first plans).map fun l => { l with sent := true }

theorem newLegs_sent {first : Nat} {plans : List LegPlan} {l : Leg} (h : l ∈ newLegs first plans) : l.sent = true := by
  obtain ⟨x, -, rfl⟩ := List.mem_map.mp h
  rfl

theorem newLegs_plans (first : Nat) (plans : List LegPlan) :
    ((newLegs first plans).map fun l => (⟨l.output, l.channel, l.key, l.velocity⟩ : LegPlan)) = plans := by
  rw [newLegs, List.map_map]
  induction plans generalizing first with
  | nil => rfl
  | cons p ps ih => exact congrArg (p :: ·) (ih (first + 1))

theorem newLegs_length (first : Nat) (plans : List LegPlan) : (newLegs first plans).length = plans.length := by
  rw [newLegs, List.length_map, numberLegs_length]

theorem numberLegs_id {first : Nat} {plans : List LegPlan} {l : Leg} (h : l ∈ numberLegs first plans) :
    first ≤ l.id := by
  induction plans generalizing first with
  | nil => exact absurd h List.not_mem_nil
  | cons p ps ih =>
    rcases List.mem_cons.mp h with rfl | h
    · exact Nat.le_refl _
    · exact Nat.le_of_succ_le (ih h)

/-- Marks on numbers that no leg of a table has. -/
theorem markLegs_absent {es : List Entry} {ls : List Leg} (h : ∀ e ∈ es, ∀ l ∈ e.legs, ∀ x ∈ ls, l.id ≠ x.id) :
    ls.foldl (fun t l => markLeg t l.id true) es = es := by
  induction ls with
  | nil => rfl
  | cons x ls ih =>
    have hone : markLeg es x.id true = es := by
      refine (List.map_congr_left fun e he => ?_).trans (List.map_id es)
      have hl : (e.legs.map fun l => if l.id = x.id then { l with sent := true } else l) = e.legs :=
        (List.map_congr_left fun l hl => if_neg (h e he l hl x List.mem_cons_self)).trans (List.map_id _)
      rw [hl]
      rfl
    rw [List.foldl_cons, hone]
    exact ih fun e he l hl y hy => h e he l hl y (List.mem_cons_of_mem _ hy)

theorem markLegs_append (es fs : List Entry) (ls : List Leg) :
    ls.foldl (fun t l => markLeg t l.id true) (es ++ fs) =
      ls.foldl (fun t l => markLeg t l.id true) es ++ ls.foldl (fun t l => markLeg t l.id true) fs := by
  induction ls generalizing es fs with
  | nil => rfl
  | cons x ls ih =>
    have hone : markLeg (es ++ fs) x.id true = markLeg es x.id true ++ markLeg fs x.id true := List.map_append
    rw [List.foldl_cons, hone, ih]
    rfl

/-- Marks on the legs of an entry: those of the numbers marked are sent. -/
theorem markLegs_entry (e : Entry) (ls : List Leg) :
    ls.foldl (fun t l => markLeg t l.id true) [e] =
      [{ e with legs := e.legs.map fun l => { l with sent := l.sent || ls.any fun x => x.id = l.id } }] := by
  induction ls generalizing e with
  | nil => simp
  | cons x ls ih =>
    have hone : markLeg [e] x.id true =
        [{ e with legs := e.legs.map fun l => if l.id = x.id then { l with sent := true } else l }] := rfl
    rw [List.foldl_cons, hone, ih]
    simp only [List.map_map, List.any_cons, List.cons.injEq, Entry.mk.injEq, and_true, true_and]
    refine List.map_congr_left fun l _ => ?_
    by_cases hl : l.id = x.id
    · simp [hl]
    · simp [hl, Ne.symm hl]

/-- A note is created with room: its entry, every leg of it sent, stands behind the others. -/
theorem Rig.create_room {r : Rig} (m : Moment) (n : Input) (c : Chan) (k : Seven) {plans : List LegPlan}
    (hen : ∀ p ∈ plans, (r.out p.output).enabled = true)
    (hids : ∀ e ∈ r.table, ∀ l ∈ e.legs, l.id < r.nextLeg)
    (hroom : ∀ o, (r.out o).urgent.length + plans.length ≤ 48 ∧ (r.out o).noteOns + plans.length ≤ 32) :
    r.create m n c k plans = { soundedAll m.now (newLegs r.nextLeg plans) r with
      table := r.table ++ [⟨n, c, k, false, m.generation, newLegs r.nextLeg plans⟩]
      nextLeg := r.nextLeg + plans.length } := by
  generalize hu : ({ r with
    table := r.table ++ [⟨n, c, k, false, m.generation, numberLegs r.nextLeg plans⟩]
    nextLeg := r.nextLeg + plans.length } : Rig) = u
  have hout : ∀ o, u.out o = r.out o := fun o => hu ▸ rfl
  have hstart : r.create m n c k plans = (newLegs r.nextLeg plans).foldl (fun r l => r.soundLeg m l) u := by
    rw [newLegs, List.foldl_map, ← hu]
    rfl
  have hmem : ∀ l ∈ newLegs r.nextLeg plans, ⟨l.output, l.channel, l.key, l.velocity⟩ ∈ plans := fun l hl => by
    rw [← newLegs_plans r.nextLeg plans]
    exact List.mem_map.mpr ⟨l, hl, rfl⟩
  rw [hstart, Rig.soundLegs_room m (fun l hl => by rw [hout]; exact hen _ (hmem l hl))
    fun o => by rw [hout, newLegs_length]; exact hroom o]
  have htable : (newLegs r.nextLeg plans).foldl (fun t l => markLeg t l.id true) u.table =
      r.table ++ [⟨n, c, k, false, m.generation, newLegs r.nextLeg plans⟩] := by
    have hut : u.table = r.table ++ [⟨n, c, k, false, m.generation, numberLegs r.nextLeg plans⟩] := hu ▸ rfl
    rw [hut, markLegs_append, markLegs_absent, markLegs_entry]
    · congr 2
      simp only [Entry.mk.injEq, true_and]
      refine List.map_congr_left fun l hl => ?_
      have hany : (newLegs r.nextLeg plans).any (fun x => x.id = l.id) = true :=
        List.any_eq_true.mpr ⟨{ l with sent := true }, List.mem_map.mpr ⟨l, hl, rfl⟩, by simp⟩
      rw [hany, Bool.or_true]
    · intro e he l hl x hx heq
      obtain ⟨y, hy, rfl⟩ := List.mem_map.mp hx
      exact absurd (numberLegs_id hy) (Nat.not_le.mpr (heq ▸ hids e he l hl))
  have hnotes : soundedAll m.now (newLegs r.nextLeg plans) u =
      (soundedAll m.now (newLegs r.nextLeg plans) r).withNotes u := by
    rw [← soundedAll_withNotes, ← hu]
    rfl
  have hped : (soundedAll m.now (newLegs r.nextLeg plans) r).pedals = r.pedals :=
    (soundedAll_notes m.now (newLegs r.nextLeg plans) r).2.1
  rw [htable, hnotes]
  generalize soundedAll m.now (newLegs r.nextLeg plans) r = w at hped ⊢
  subst hu
  rw [Rig.withNotes, ← hped]
  rfl

end Sys2Proof.Machine
end

section
/-! Note-ons (O48): the entry, the ends that come before it, and the cue actions behind it. -/
namespace Sys2Proof.Machine

/-! ### The Note Table's choice (R62, R63) -/

section
variable {r : Rig} {m : Moment} {n : Input} {c : Chan} {k : Seven} {plans : List LegPlan}

theorem Rig.strike_own {e : Entry} (h : r.table.find? (fun e => e.isFrom n c k) = some e) :
    r.strike m n c k plans = (r.endLegs m (legIds [e])).create m n c k plans := by
  rw [Rig.strike, h]

variable (h : r.table.find? (fun e => e.isFrom n c k) = none)
include h

theorem Rig.strike_new (hroom : r.table.length < 128) : r.strike m n c k plans = r.create m n c k plans := by
  rw [Rig.strike, h]
  exact if_pos hroom

variable (hfull : 128 ≤ r.table.length)
include hfull

theorem Rig.strike_steal {e : Entry} (he : r.table.find? (fun e => e.sustained) = some e) :
    r.strike m n c k plans = (r.endLegs m (legIds [e])).create m n c k plans := by
  rw [Rig.strike, h]
  refine (if_neg (Nat.not_lt.mpr hfull)).trans ?_
  rw [he]

theorem Rig.strike_dropped (he : r.table.find? (fun e => e.sustained) = none) :
    r.strike m n c k plans = r.report .tableFullDrops n.val := by
  rw [Rig.strike, h]
  refine (if_neg (Nat.not_lt.mpr hfull)).trans ?_
  rw [he]

end

/-! ### A note-on in SHOW -/

section
variable {s : State} {n : Input} {c : Chan} {k v : Seven}

/-- The legs that routing plans for a note-on. -/
def State.plannedLegs (s : State) (n : Input) (c : Chan) (k v : Seven) : List LegPlan :=
  (s.rig.buildLegs s.moment s.router.echo s.router.active n c k v).2

theorem State.noteOn_show (hm : s.scene.mode = .showMode) (hv : v.val ≠ 0) :
    s.eventArrives n .noteOn c k v = (s.arrived n .noteOn c k).routeNoteOn n c k v := by
  have hev : assemble .noteOn k v = .noteOn k v := if_neg hv
  rw [State.eventArrives_eq, hev, State.deliver_show (s := s.arrived n .noteOn c k) hm]
  rfl

/-- The note inputs hand a note-on to the router as they found the rest of the part. -/
theorem State.arrived_plannedLegs (s : State) (n : Input) (c : Chan) (k v : Seven) :
    ((s.arrived n .noteOn c k).rig.buildLegs s.moment s.router.echo s.router.active n c k v).2 =
      s.plannedLegs n c k v := by
  rw [(s.arrived_frame n .noteOn c k).2.2.2.2, Rig.buildLegs_setDesk]
  rfl

theorem State.arrived_builtRig (s : State) (n : Input) (c : Chan) (k v : Seven) :
    ((s.arrived n .noteOn c k).rig.buildLegs s.moment s.router.echo s.router.active n c k v).1 =
      s.rig.setDesk ((s.setDesk (arrivedDesk s n .noteOn c k)).rig.buildLegs s.moment s.router.echo s.router.active
        n c k v).1.desk := by
  have h := (s.arrived n .noteOn c k).rig.buildLegs_onlyDesk s.moment s.router.echo s.router.active n c k v
  rw [Rig.OnlyDesk, (s.arrived_frame n .noteOn c k).2.2.2.2] at h
  rw [(s.arrived_frame n .noteOn c k).2.2.2.2, h]
  rfl

/-- A note-on with legs is counted as routed and reaches the Note Table. -/
theorem State.routedNotes_legs (h : s.plannedLegs n c k v ≠ []) : (s.arrived n .noteOn c k).routedNotes n c k v =
    (s.arrived n .noteOn c k).setRig ((routedRig s n c k v).strike s.moment n c k (s.plannedLegs n c k v)) := by
  have hnotes : (s.arrived n .noteOn c k).routedNotes n c k v = (s.arrived n .noteOn c k).setRig
      (((s.arrived n .noteOn c k).rig.buildLegs s.moment s.router.echo s.router.active n c k v).1.routeLegs s.moment n c k
        ((s.arrived n .noteOn c k).rig.buildLegs s.moment s.router.echo s.router.active n c k v).2) := rfl
  rw [hnotes, State.arrived_plannedLegs, State.arrived_builtRig]
  generalize s.plannedLegs n c k v = plans at h
  cases plans with
  | nil => exact absurd rfl h
  | cons p ps => rfl

/-- A note-on without legs does not reach the Note Table. -/
theorem State.routedNotes_none (h : s.plannedLegs n c k v = []) : (s.arrived n .noteOn c k).routedNotes n c k v =
    (s.arrived n .noteOn c k).setRig (s.rig.setDesk ((s.setDesk (arrivedDesk s n .noteOn c k)).rig.buildLegs s.moment
      s.router.echo s.router.active n c k v).1.desk) := by
  have hnotes : (s.arrived n .noteOn c k).routedNotes n c k v = (s.arrived n .noteOn c k).setRig
      (((s.arrived n .noteOn c k).rig.buildLegs s.moment s.router.echo s.router.active n c k v).1.routeLegs s.moment n c k
        ((s.arrived n .noteOn c k).rig.buildLegs s.moment s.router.echo s.router.active n c k v).2) := rfl
  rw [hnotes, State.arrived_plannedLegs, State.arrived_builtRig, h]
  rfl

/-- A note-on that matches ROUTE entries alone does what its legs do. -/
theorem exec_noteOn_routes (hl : s.live = true) (hv : v.val ≠ 0) (hm : s.scene.mode = .showMode)
    (hroutes : ∀ e ∈ s.router.active, e.isMatch n c k v = true → e.action = .route) :
    exec (.noteOn n c k v) s = .next ((s.arrived n .noteOn c k).routedNotes n c k v) := by
  rw [exec_noteOn hl, State.noteOn_show hm hv, State.routeNoteOn_routes (s := s.arrived n .noteOn c k) hroutes]

/-- What a note changes beside its deframer: the instrument side but for the pedals. -/
theorem State.noteFrame (s : State) (n : Input) (c : Chan) (k : Seven) {t : Rig} (ht : t.pedals = s.rig.pedals) :
    SameBut [.desk, .inputs, .outputs, .records, .table, .legs] s ((s.arrived n .noteOn c k).setRig t) := by
  obtain ⟨hsame, -, -⟩ := s.arrived_onlyArrives n .noteOn c k
  refine (hsame.mono (by simp)).trans fun b hb => ?_
  cases b with
  | desk | outputs | records | table | legs => exact absurd (by decide) hb
  | pedals => exact ht
  | _ => rfl

theorem State.noteDesk (s : State) (n : Input) (c : Chan) (k : Seven) (d : Desk) :
    SameBut [.desk, .inputs] s ((s.arrived n .noteOn c k).setRig (s.rig.setDesk d)) ∧
      ((s.arrived n .noteOn c k).setRig (s.rig.setDesk d)).desk = d := by
  obtain ⟨hsame, -, -⟩ := s.arrived_onlyArrives n .noteOn c k
  refine ⟨hsame.trans fun b hb => ?_, rfl⟩
  cases b with
  | desk => exact absurd (by decide) hb
  | _ => rfl

theorem routedRig_eq (s : State) (n : Input) (c : Chan) (k v : Seven) : routedRig s n c k v =
    s.rig.setDesk (((s.setDesk (arrivedDesk s n .noteOn c k)).rig.buildLegs s.moment s.router.echo s.router.active n
      c k v).1.desk.report .routedNoteOns n.val) := rfl

/-- Routing a note-on has changed the desk alone. -/
structure NotesOf (s : State) (g : Rig) : Prop where
  table : g.table = s.rig.table
  pedals : g.pedals = s.rig.pedals
  nextLeg : g.nextLeg = s.rig.nextLeg
  out : ∀ o, g.out o = s.rig.out o
  chan : ∀ o c, g.chan o c = s.rig.chan o c

theorem routedRig_notesOf (s : State) (n : Input) (c : Chan) (k v : Seven) : NotesOf s (routedRig s n c k v) := by
  rw [routedRig_eq]
  generalize Desk.report _ _ _ = d
  exact ⟨rfl, rfl, rfl, fun _ => rfl, fun _ _ => rfl⟩

theorem Rig.report_setDesk (r : Rig) (d : Desk) (e : CounterEvent) (i : Nat) :
    (r.setDesk d).report e i = r.setDesk (d.report e i) := rfl

theorem State.noteDeframer (s : State) (n : Input) (c : Chan) (k : Seven) (t : Rig) :
    ((s.arrived n .noteOn c k).setRig t).deframer n = ⟨.channel .noteOn c, none⟩ := by
  obtain ⟨-, -, hdef⟩ := s.arrived_onlyArrives n .noteOn c k
  exact (hdef n).trans (if_pos rfl)

/-- The entry that a note-on creates. -/
def State.createdEntry (s : State) (n : Input) (c : Chan) (k v : Seven) : Entry :=
  ⟨n, c, k, false, s.scene.generation, newLegs s.rig.nextLeg (s.plannedLegs n c k v)⟩

theorem State.createdEntry_creates (s : State) (n : Input) (c : Chan) (k v : Seven) :
    Creates s n c k v (s.createdEntry n c k v) :=
  ⟨rfl, fun _ h => newLegs_sent h, newLegs_plans _ _⟩

theorem State.plannedLegs_length (s : State) (n : Input) (c : Chan) (k v : Seven) :
    (s.plannedLegs n c k v).length ≤ 8 := Rig.buildLegs_length _ _ _ _ _ _ _ _

theorem State.plannedLegs_enabled {p : LegPlan} (h : p ∈ s.plannedLegs n c k v) :
    (s.rig.out p.output).enabled = true := Rig.buildLegs_enabled h

theorem leg_id_lt (hcount : countsInStep s) {e : Entry} (he : e ∈ s.rig.table) {l : Leg} (hl : l ∈ e.legs) :
    l.id < s.rig.nextLeg := by
  obtain ⟨-, -, hlt⟩ := hcount
  exact hlt l (List.mem_flatMap.mpr ⟨e, he, hl⟩)

/-- A new source with room in the table and in the queues. -/
theorem routedRig_strike_new (hcount : countsInStep s) (htable : s.rig.table.length < 128)
    (hnew : ∀ e ∈ s.rig.table, ¬(e.input = n ∧ e.channel = c ∧ e.key = k))
    (hroom : ∀ o, (s.rig.out o).urgent.length ≤ 40 ∧ (s.rig.out o).noteOns ≤ 24) :
    (routedRig s n c k v).strike s.moment n c k (s.plannedLegs n c k v) =
      { soundedAll s.time (s.createdEntry n c k v).legs (routedRig s n c k v) with
        table := s.rig.table ++ [s.createdEntry n c k v]
        nextLeg := s.rig.nextLeg + (s.plannedLegs n c k v).length } := by
  have hfind : s.rig.table.find? (fun e => e.isFrom n c k) = none :=
    List.find?_eq_none.mpr fun e he hf => hnew e he (by simpa [Entry.isFrom, and_assoc] using hf)
  have hlen := s.plannedLegs_length n c k v
  obtain ⟨hgtable, -, hgnext, hgout, -⟩ := routedRig_notesOf s n c k v
  generalize routedRig s n c k v = g at *
  rw [Rig.strike_new (r := g) (hgtable ▸ hfind) (hgtable ▸ htable), Rig.create_room (r := g) s.moment n c k ?_ ?_ ?_,
    hgtable, hgnext]
  · rfl
  · intro p hp
    rw [hgout]
    exact State.plannedLegs_enabled hp
  · intro e he l hl
    rw [hgnext]
    exact leg_id_lt hcount (hgtable ▸ he) hl
  · intro o
    obtain ⟨hu, hn⟩ := hroom o
    rw [hgout]
    exact ⟨Nat.add_le_add hu hlen, Nat.add_le_add hn hlen⟩

/-- The entry of the source, or the first SUSTAINED one of a full table, ends before the note is created. -/
theorem routedRig_strike_displacing {victim : Entry} (h : Displaces s n c k victim) :
    victim ∈ s.rig.table ∧ (routedRig s n c k v).strike s.moment n c k (s.plannedLegs n c k v) =
      ((routedRig s n c k v).endLegs s.moment (legIds [victim])).create s.moment n c k (s.plannedLegs n c k v) := by
  obtain ⟨hgtable, -, -, -, -⟩ := routedRig_notesOf s n c k v
  generalize routedRig s n c k v = g at *
  unfold Displaces at h
  rw [← hgtable] at h ⊢
  rcases h with h | ⟨hnone, hfull, h⟩
  · exact ⟨List.mem_of_find?_eq_some h, Rig.strike_own h⟩
  · exact ⟨List.mem_of_find?_eq_some h, Rig.strike_steal hnone hfull h⟩

/-- A displacing note-on with room: the victim's legs end, and the new ones sound. -/
theorem routedRig_strike_room {victim : Entry} {cost : Nat} (hcost : s.rig.Costs cost) (h : Displaces s n c k victim)
    (htable : tableBounded s) (hcount : countsInStep s)
    (hroom : ∀ o, (s.rig.out o).urgent.length + cost * 8 + 8 ≤ 48 ∧ (s.rig.out o).noteOns ≤ 24) :
    (routedRig s n c k v).strike s.moment n c k (s.plannedLegs n c k v) =
      { soundedAll s.time (s.createdEntry n c k v).legs
          (victim.legs.foldl (endedLeg s.moment victim.generation) (routedRig s n c k v)) with
        table := s.rig.table.filter (fun e => !e.isFrom victim.input victim.channel victim.key) ++
          [s.createdEntry n c k v]
        nextLeg := s.rig.nextLeg + (s.plannedLegs n c k v).length } := by
  obtain ⟨hmem, hstrike⟩ := routedRig_strike_displacing (v := v) h
  have hbounded := (tableBounded_iff s).mp htable
  obtain ⟨-, hids, -⟩ := id hcount
  have hlegs := (hbounded.legs victim hmem).2
  have hone := filter_isFrom hbounded hmem ((isFrom_iff victim _ _ _).mpr rfl)
  have hplans := s.plannedLegs_length n c k v
  have hcost8 : cost * victim.legs.length ≤ cost * 8 := Nat.mul_le_mul_left cost hlegs
  obtain ⟨hgtable, -, hgnext, hgout, hgchan⟩ := routedRig_notesOf s n c k v
  generalize routedRig s n c k v = g at *
  have hgcost : g.Costs cost := ⟨hcost.1, fun o c hp => hcost.2 o c (hgchan o c ▸ hp)⟩
  have hends := Rig.endEntries_room (r := g) hgcost s.moment (hgtable ▸ hbounded.full)
    (by rw [allLegs, hgtable]; exact hids) (fun e => e.isFrom victim.input victim.channel victim.key) (fun o _ => by
      rw [hgtable, hone, flatMap_legs_single, hgout]
      have := (hroom o).1
      omega)
  rw [hgtable, hone, endedAll_single] at hends
  rw [hstrike, hends]
  have hlong : (datedLegs [victim]).length = victim.legs.length := by
    rw [← List.length_map (f := fun x => x.2), datedLegs_legs, flatMap_legs_single]
  have hspec := endedAll_spec hgcost s.moment (datedLegs [victim])
  have hnotes := endedAll_notes s.moment (datedLegs [victim]) g
  rw [endedAll_single] at hnotes
  simp only [endedAll_single, hlong] at hspec
  generalize victim.legs.foldl (endedLeg s.moment victim.generation) g = w at hspec hnotes ⊢
  obtain ⟨-, -, hnext⟩ := hnotes
  rw [hgnext] at hnext
  rw [Rig.create_room (r := w.setTable _) s.moment n c k ?_ ?_ ?_]
  · rw [soundedAll_setTable, Rig.setTable_nextLeg, hnext]
    rfl
  · intro p hp
    obtain ⟨es, hout, -, -⟩ := hspec p.output
    rw [Rig.out_setTable, hout, appendedOut_enabled, hgout]
    exact State.plannedLegs_enabled hp
  · intro e he l hl
    rw [Rig.setTable_nextLeg, hnext]
    exact leg_id_lt hcount (List.mem_of_mem_filter he) hl
  · intro o
    obtain ⟨es, hout, hes, hquiet⟩ := hspec o
    obtain ⟨hu, hn⟩ := hroom o
    have hnone : es.countP Urgent.isNoteOn = 0 := List.countP_eq_zero.mpr fun e he => by simp [hquiet e he]
    rw [Rig.out_setTable, hout, appendedOut_length, OutPort.noteOns_appendedOut, hgout, hnone]
    omega

/-- The pedals stay as they are when a note's legs end and sound. -/
theorem soundedAll_endedLegs_pedals (now : StageTime) (ls : List Leg) (m : Moment) (e : Entry) (g : Rig) :
    (soundedAll now ls (e.legs.foldl (endedLeg m e.generation) g)).pedals = g.pedals := by
  rw [← endedAll_single]
  exact (soundedAll_notes now ls _).2.1.trans (endedAll_notes m _ g).2.1

end

/-! ### The clauses of the rule -/

section
variable {s : State} {n : Input} {c : Chan} {k v : Seven} (hl : s.live = true) (hv : v.val ≠ 0)
  (hm : s.scene.mode = .showMode)
  (hroutes : ∀ e ∈ s.router.active, e.isMatch n c k v = true → e.action = .route)
include hl hv hm

/-- What a note-on does beside its cue entries, and the cue actions behind it. -/
theorem noteOn_cues :
    ∃ u t, exec (.noteOn n c k v) { s with router := { s.router with
        active := s.router.active.filter fun e => e.action = .route } } = .next u ∧
      exec (.noteOn n c k v) s = .next t ∧ CuesFire { u with router := s.router } t n c k v := by
  generalize hs' : ({ s with router := { s.router with
    active := s.router.active.filter fun e => e.action = .route } } : State) = s'
  have hroutes' : ∀ e ∈ s'.router.active, e.isMatch n c k v = true → e.action = .route := by
    rw [← hs']
    exact fun e he _ => of_decide_eq_true (List.mem_filter.mp he).2
  have hexec := exec_noteOn_routes (s := s') (n := n) (c := c) (k := k) (by rw [← hs']; exact hl) hv
    (by rw [← hs']; exact hm) hroutes'
  refine ⟨_, _, hexec, by rw [exec_noteOn hl, State.noteOn_show hm hv], ?_⟩
  have hbuild := (s.arrived n .noteOn c k).rig.buildLegs_routes s.moment s.router.echo s.router.active n c k v
  have hsame : { (s'.arrived n .noteOn c k).routedNotes n c k v with router := s.router } =
      (s.arrived n .noteOn c k).routedNotes n c k v := by
    rw [← hs']
    exact congrArg (fun x : Rig × List LegPlan =>
      (s.arrived n .noteOn c k).setRig (x.1.routeLegs s.moment n c k x.2)) hbuild
  rw [hsame]
  exact (s.arrived n .noteOn c k).routeNoteOn_cuesFire n c k v

include hroutes

theorem noteOn_noLegs (hnone : s.plannedLegs n c k v = []) :
    ∃ t, exec (.noteOn n c k v) s = .next t ∧ SameBut [.desk, .inputs] s t ∧
      t.desk = ((s.setDesk (arrivedDesk s n .noteOn c k)).rig.buildLegs s.moment s.router.echo
        s.router.active n c k v).1.desk := by
  rw [exec_noteOn_routes hl hv hm hroutes, State.routedNotes_none hnone]
  exact ⟨_, rfl, s.noteDesk n c k _⟩

variable (hlegs : s.plannedLegs n c k v ≠ [])
include hlegs

theorem exec_noteOn_legs : exec (.noteOn n c k v) s = .next ((s.arrived n .noteOn c k).setRig
    ((routedRig s n c k v).strike s.moment n c k (s.plannedLegs n c k v))) := by
  rw [exec_noteOn_routes hl hv hm hroutes, State.routedNotes_legs hlegs]

theorem noteOn_dropped (hfull : 128 ≤ s.rig.table.length)
    (hnone : ∀ e ∈ s.rig.table, e.isFrom n c k = false ∧ e.sustained = false) :
    ∃ t, exec (.noteOn n c k v) s = .next t ∧ SameBut [.desk, .inputs] s t ∧
      t.desk = (((s.setDesk (arrivedDesk s n .noteOn c k)).rig.buildLegs s.moment s.router.echo
        s.router.active n c k v).1.desk.report .routedNoteOns n.val).report .tableFullDrops n.val := by
  have hown : s.rig.table.find? (fun e => e.isFrom n c k) = none :=
    List.find?_eq_none.mpr fun e he => by simp [(hnone e he).1]
  have hheld : s.rig.table.find? (fun e => e.sustained) = none :=
    List.find?_eq_none.mpr fun e he => by simp [(hnone e he).2]
  have htable := (routedRig_notesOf s n c k v).table
  rw [← htable] at hown hheld hfull
  rw [exec_noteOn_legs hl hv hm hroutes hlegs, Rig.strike_dropped hown hfull hheld, routedRig_eq, Rig.report_setDesk]
  exact ⟨_, rfl, s.noteDesk n c k _⟩

theorem noteOn_new (hcount : countsInStep s) (htable : s.rig.table.length < 128)
    (hnew : ∀ e ∈ s.rig.table, ¬(e.input = n ∧ e.channel = c ∧ e.key = k))
    (hroom : ∀ o, (s.rig.out o).urgent.length ≤ 40 ∧ (s.rig.out o).noteOns ≤ 24) :
    ∃ t created, exec (.noteOn n c k v) s = .next t ∧
      SameBut [.desk, .inputs, .outputs, .records, .table, .legs] s t ∧
      Creates s n c k v created ∧ t.rig.table = s.rig.table ++ [created] ∧
      (∀ o, t.rig.out o = appendedOut s.time (s.rig.out o) (onsOf created.legs o)) ∧
      t.desk = (created.legs.foldl (soundedLeg s.time) (routedRig s n c k v)).desk ∧
      (∀ o d, t.rig.chan o d = { s.rig.chan o d with
        sounding := (s.rig.chan o d).sounding + namedBy created.legs o d }) ∧
      t.deframer n = ⟨.channel .noteOn c, none⟩ := by
  rw [exec_noteOn_legs hl hv hm hroutes hlegs, routedRig_strike_new hcount htable hnew hroom]
  obtain ⟨-, hpedals, -, hout, hchan⟩ := routedRig_notesOf s n c k v
  generalize routedRig s n c k v = g at *
  refine ⟨_, s.createdEntry n c k v, rfl, s.noteFrame n c k ?_, s.createdEntry_creates n c k v, rfl, fun o => ?_, rfl,
    fun o d => ?_, s.noteDeframer n c k _⟩
  · exact (soundedAll_notes s.time _ g).2.1.trans hpedals
  · rw [← hout]
    exact soundedAll_out s.time _ g o
  · rw [← hchan]
    exact soundedAll_chan s.time (fun l h => newLegs_sent h) g o d

variable {victim : Entry} (hvictim : Displaces s n c k victim) (htable : tableBounded s) (hcount : countsInStep s)
include hvictim htable hcount

theorem noteOn_displacing (hroom : ∀ o, (s.rig.out o).urgent.length ≤ 24 ∧ (s.rig.out o).noteOns ≤ 24) :
    ∃ t created u, exec (.noteOn n c k v) s = .next t ∧
      u = created.legs.foldl (soundedLeg s.time)
        (victim.legs.foldl (endedLeg s.moment victim.generation) (routedRig s n c k v)) ∧
      SameBut [.desk, .inputs, .outputs, .records, .table, .legs] s t ∧
      Creates s n c k v created ∧
      t.rig.table = s.rig.table.filter (fun e => !e.isFrom victim.input victim.channel victim.key) ++ [created] ∧
      t.rig.outputs = u.outputs ∧ t.rig.records = u.records ∧ t.desk = u.desk ∧
      t.deframer n = ⟨.channel .noteOn c, none⟩ := by
  have hcost : s.rig.Costs 2 := ⟨Nat.le_succ 1, fun _ _ _ => Nat.le_refl 2⟩
  rw [exec_noteOn_legs hl hv hm hroutes hlegs,
    routedRig_strike_room hcost hvictim htable hcount fun o => ⟨by have := (hroom o).1; omega, (hroom o).2⟩]
  obtain ⟨-, hpedals, -, -, -⟩ := routedRig_notesOf s n c k v
  generalize routedRig s n c k v = g at *
  exact ⟨_, s.createdEntry n c k v, _, rfl, rfl,
    s.noteFrame n c k ((soundedAll_endedLegs_pedals s.time _ _ _ _).trans hpedals),
    s.createdEntry_creates n c k v, rfl, rfl, rfl, rfl, s.noteDeframer n c k _⟩

theorem noteOn_displacing_roomy (hroomy : Roomy s 16) (hons : ∀ o, (s.rig.out o).noteOns ≤ 24) :
    ∃ t created, exec (.noteOn n c k v) s = .next t ∧
      SameBut [.desk, .inputs, .outputs, .records, .table, .legs] s t ∧
      Creates s n c k v created ∧
      t.rig.table = s.rig.table.filter (fun e => !e.isFrom victim.input victim.channel victim.key) ++ [created] ∧
      (∀ o, t.rig.out o = appendedOut s.time (s.rig.out o)
        (offsOf s.rig victim.legs o ++ onsOf created.legs o)) ∧
      (∀ o d, t.rig.chan o d = { s.rig.chan o d with
        sounding := (s.rig.chan o d).sounding - namedBy victim.legs o d + namedBy created.legs o d }) ∧
      t.deframer n = ⟨.channel .noteOn c, none⟩ := by
  obtain ⟨hnone, hfree⟩ := hroomy
  rw [exec_noteOn_legs hl hv hm hroutes hlegs, routedRig_strike_room (Rig.NonePending.costs hnone) hvictim htable hcount
    fun o => ⟨by have := hfree o; omega, hons o⟩]
  obtain ⟨-, hpedals, -, hgout, hgchan⟩ := routedRig_notesOf s n c k v
  generalize routedRig s n c k v = g at *
  obtain ⟨-, hout, hchan⟩ := endedAll_nonePending (r := g) (fun o d => by rw [hgchan]; exact hnone o d) s.moment
    victim.generation (datedLegs [victim])
  rw [endedAll_single, datedLegs_legs, flatMap_legs_single] at hout hchan
  refine ⟨_, s.createdEntry n c k v, rfl,
    s.noteFrame n c k ((soundedAll_endedLegs_pedals s.time _ _ _ _).trans hpedals), s.createdEntry_creates n c k v, rfl, fun o => ?_, fun o d => ?_, s.noteDeframer n c k _⟩
  · refine (soundedAll_out s.time _ _ o).trans ?_
    rw [hout, hgout, offsOf_congr fun o => congrArg OutPort.enabled (hgout o)]
    exact appendedOut_append s.time (s.rig.out o) (offsOf s.rig victim.legs o) _
  · refine (soundedAll_chan s.time (fun l h => newLegs_sent h) _ o d).trans ?_
    rw [hchan, hgchan]
    rfl

end

/-- Settles O48: the note's entry by the Note Table's choice, and its cue actions. -/
theorem noteOnRouted : Obligations.NoteOnRouted := by
  refine fun s n c k v hl hv => ⟨fun hm => ?_, fun hm hcount hroutes hlegs => ⟨?_, ?_, ?_, ?_⟩,
    fun hm hroutes hnone => noteOn_noLegs hl hv hm hroutes hnone, fun hm => noteOn_cues hl hv hm⟩
  · rw [exec_noteOn hl, State.eventArrives_eq, State.deliver_setup (s := s.arrived n .noteOn c k) hm]
    exact ⟨_, rfl, s.arrived_onlyArrives n .noteOn c k⟩
  · exact noteOn_new hl hv hm hroutes hlegs hcount
  · exact fun victim hvictim htable hroom => noteOn_displacing hl hv hm hroutes hlegs hvictim htable hcount hroom
  · exact fun victim hvictim htable hroomy hons =>
      noteOn_displacing_roomy hl hv hm hroutes hlegs hvictim htable hcount hroomy hons
  · exact noteOn_dropped hl hv hm hroutes hlegs

end Sys2Proof.Machine
end

section
/-! The bounds of the active-note table are kept by every act, and so by every step (R52, R60, R62, R63). -/
namespace Sys2Proof.Machine

theorem Acts.table {s t : State} (h : Acts s t) (k : TableBounded s.rig.table) : TableBounded t.rig.table := by
  induction h with
  | refl => exact k
  | tail _ act ih => exact act.table ih

/-- Settles O7: a step is a chain of acts, each of which keeps the table within its bounds. -/
theorem tableStaysBounded : Obligations.TableStaysBounded := fun s t hb hstep =>
  (tableBounded_iff t).mpr ((step_acts hstep).table ((tableBounded_iff s).mp hb))

end Sys2Proof.Machine
end

section
/-! The scene requests of the control ports: what an accepted one stages (O21). -/
namespace Sys2Proof.Machine

/-! ### The four scene requests (R100, R101, R188) -/

/-- Each form of a scene request runs as one request for its ask and its quantize octet. -/
theorem GoForm.exec {s : State} {p : Port} {r : Request} {rest : List Request} {i : Instr} {row : RequestRow}
    {ask : SceneAsk} {octet : Nat} (form : GoForm p r i row ask octet) (h : Heads s p row r rest) :
    exec i s = .next (s.portRequest p ask octet) := by
  cases form with
  | song hscene =>
    have hrun : Machine.exec (.goSong p) s = .next (s.goSongRequest p r) := whenLive_serve_of_heads h _
    rw [hrun, State.goSongRequest, sceneOrFirst, if_neg hscene]
  | songOnly hfirst =>
    have hrun : Machine.exec (.goSong p) s = .next (s.goSongRequest p r) := whenLive_serve_of_heads h _
    rw [hrun, State.goSongRequest, sceneOrFirst, if_pos hfirst]
  | scene => exact whenLive_serve_of_heads h (State.goSceneRequest p)
  | next => exact whenLive_serve_of_heads h (State.goNextRequest p)
  | prev => exact whenLive_serve_of_heads h (State.goPrevRequest p)

/-! ### Acceptance (R95, R97, R98) -/

/-- A request passes the checks of R97 in SHOW when its target exists and is not current, and no change of a higher
rank is staged. -/
theorem State.judge_accepts {s : State} {g : Origin} {ask : SceneAsk} {song scene : Nat}
    (hm : s.scene.mode = .showMode) (h : Resolves s (s.rank g) ask song scene)
    (hsong : song < s.mem.header.setlistLength) (hscene : scene < (s.mem.song song).sceneCount)
    (hnew : ∀ c, s.scene.current = some c → ¬(c.song = song ∧ c.scene = scene))
    (hfree : ∀ c, s.scene.staged = some c → c.rank ≤ s.rank g) : s.judge g ask = .ok (song, scene) := by
  rw [State.judge_show hm, h.resolve]
  refine (State.checkTarget_slot hsong hscene hnew).trans ?_
  cases hs : s.scene.staged with
  | none => rfl
  | some c => exact if_neg (Nat.not_lt.mpr (hfree c hs))

/-- A scene request that passes its checks is answered DONE and then accepted (R97). -/
theorem State.portRequest_accepts {s : State} {p : Port} {ask : SceneAsk} {octet : Nat} {q : Option Quantize}
    {t : Nat × Nat} (hq : decodeQuantize octet = some q) (h : s.judge (portOrigin p) ask = .ok t) :
    s.portRequest p ask octet = (s.answer p .done []).accept (portOrigin p) t q 0 := by
  simp only [State.portRequest, hq, h]

/-- A copied scene record keeps its echo permit mask (R105). -/
theorem Scene.copied_echo (x : Scene) : x.copied.echo = x.echo := by
  unfold Scene.copied
  split <;> rfl

/-- Settles O21: the four requests run alike, pass their checks, and are answered before their change enters the
slot. -/
theorem goAccepted : Obligations.GoAccepted := by
  intro s p r rest i row ask octet q song scene form hheads hq hm hres hsong hscene hnew hfree
  have hrun : exec i s = .next ((s.answer p .done []).accept (portOrigin p) (song, scene) q 0) :=
    (form.exec hheads).trans (congrArg _ (State.portRequest_accepts hq
      (State.judge_accepts hm hres hsong hscene hnew hfree)))
  obtain ⟨-, hrequests, -⟩ := hheads
  have hdesk := s.answer_desk p r rest .done [] hrequests
  obtain ⟨hframe, hslot, hmem, hrouter, hempty, hdisplaced⟩ :=
    (s.answer p .done []).accept_spec (portOrigin p) song scene q 0
  refine ⟨_, hrun, ((s.answer_sameBut p .done []).mono (by simp)).trans hframe, hslot, hmem, ?_, ?_, ?_, ?_, ?_,
    fun hs => (hempty hs).trans hdesk, fun c hs => (hdisplaced c hs).trans (congrArg (supersededDesk s · c _) hdesk)⟩
  all_goals rw [hrouter]
  · rfl
  · rfl
  · exact Scene.copied_echo _

end Sys2Proof.Machine
end

section
/-! The duplicate and fan-out rule on planned legs (R52): which candidates it keeps, and which it clips. -/
namespace Sys2Proof.Machine

/-! ### One candidate -/

/-- What the duplicate rule compares of a planned leg (R52). -/
def LegPlan.note (l : LegPlan) : Output × Chan × Seven := (l.output, l.channel, l.key)

theorem any_sameNote {kept : List LegPlan} {l : LegPlan} :
    kept.any (·.sameNote l) = true ↔ l.note ∈ kept.map LegPlan.note := by
  simp [LegPlan.sameNote, LegPlan.note, and_assoc]

theorem keepPlan_duplicate {kept : List LegPlan} {l : LegPlan} (h : l.note ∈ kept.map LegPlan.note) :
    keepPlan kept l = kept := if_pos (any_sameNote.mpr h)

theorem keepPlan_fresh {kept : List LegPlan} {l : LegPlan} (h : l.note ∉ kept.map LegPlan.note)
    (hroom : kept.length < 8) : keepPlan kept l = kept ++ [l] :=
  (if_neg (any_sameNote.not.mpr h)).trans (if_pos hroom)

theorem keepPlan_full {kept : List LegPlan} {l : LegPlan} (hfull : 8 ≤ kept.length) : keepPlan kept l = kept := by
  unfold keepPlan
  split
  · rfl
  · exact if_neg (Nat.not_lt.mpr hfull)

/-- A candidate is kept if its note is new and there is room; otherwise it leaves the kept legs as they are. -/
theorem keepPlan_cases (kept : List LegPlan) (l : LegPlan) : keepPlan kept l = kept ∨
    (l.note ∉ kept.map LegPlan.note ∧ keepPlan kept l = kept ++ [l]) := by
  by_cases hdup : l.note ∈ kept.map LegPlan.note
  · exact .inl (keepPlan_duplicate hdup)
  · rcases Nat.lt_or_ge kept.length 8 with hroom | hfull
    · exact .inr ⟨hdup, keepPlan_fresh hdup hroom⟩
    · exact .inl (keepPlan_full hfull)

/-! ### All candidates -/

theorem foldl_keepPlan_full {kept : List LegPlan} (hfull : 8 ≤ kept.length) (ls : List LegPlan) :
    ls.foldl keepPlan kept = kept := by
  induction ls with
  | nil => rfl
  | cons l ls ih => rw [List.foldl_cons, keepPlan_full hfull, ih]

/-- A kept leg stays kept. -/
theorem subset_foldl_keepPlan (ls kept : List LegPlan) : kept ⊆ ls.foldl keepPlan kept := by
  induction ls generalizing kept with
  | nil => exact List.Subset.refl _
  | cons l ls ih =>
    have hstep : kept ⊆ keepPlan kept l := by
      rcases keepPlan_cases kept l with h | ⟨-, h⟩ <;> rw [h]
      · exact List.Subset.refl _
      · exact List.subset_append_left _ _
    exact List.Subset.trans hstep (ih _)

/-- The kept legs stand in the order of the candidates. -/
theorem foldl_keepPlan_sublist (ls kept : List LegPlan) : (ls.foldl keepPlan kept).Sublist (kept ++ ls) := by
  induction ls generalizing kept with
  | nil => rw [List.append_nil]; exact .refl _
  | cons l ls ih =>
    refine (ih _).trans ?_
    rcases keepPlan_cases kept l with h | ⟨-, h⟩ <;> rw [h]
    · exact (List.sublist_cons_self l ls).append_left kept
    · simp

/-- No two kept legs have one note. -/
theorem foldl_keepPlan_nodup (ls : List LegPlan) {kept : List LegPlan} (h : (kept.map LegPlan.note).Nodup) :
    ((ls.foldl keepPlan kept).map LegPlan.note).Nodup := by
  induction ls generalizing kept with
  | nil => exact h
  | cons l ls ih =>
    refine ih ?_
    rcases keepPlan_cases kept l with hk | ⟨hnew, hk⟩ <;> rw [hk]
    · exact h
    · rw [List.map_append, List.map_singleton, ← List.concat_eq_append]
      exact h.concat hnew

/-- A candidate whose note is new is kept while fewer than 8 distinct notes stand before it. -/
theorem mem_foldl_keepPlan_of_fresh {before later : List LegPlan} {l : LegPlan}
    (hnew : l.note ∉ before.map LegPlan.note) (hfew : (before.map LegPlan.note).dedup.length < 8) :
    l ∈ (before ++ l :: later).foldl keepPlan [] := by
  have hsub : (before.foldl keepPlan []).map LegPlan.note ⊆ before.map LegPlan.note :=
    ((foldl_keepPlan_sublist before []).map _).subset
  have hroom : (before.foldl keepPlan []).length < 8 := by
    have hnodup : ((before.foldl keepPlan []).map LegPlan.note).Nodup :=
      foldl_keepPlan_nodup before List.nodup_nil
    have hle := (hnodup.subperm fun x hx => List.mem_dedup.mpr (hsub hx)).length_le
    rw [List.length_map] at hle
    exact hle.trans_lt hfew
  rw [List.foldl_append, List.foldl_cons, keepPlan_fresh (fun h => hnew (hsub h)) hroom]
  exact subset_foldl_keepPlan later _ (by simp)

/-! ### Clipped candidates -/

/-- FAN-OUT CLIPPED is reported for the candidates whose note no kept leg has. -/
theorem foldl_keepLeg_desk (ls : List LegPlan) (r : Rig) (kept : List LegPlan) :
    (ls.foldl Rig.keepLeg (r, kept)).1.desk =
      (ls.filter fun l => decide (l.note ∉ (ls.foldl keepPlan kept).map LegPlan.note)).foldl
        (fun d l => d.report .fanOutClipped l.output.val) r.desk := by
  induction ls generalizing r kept with
  | nil => rfl
  | cons l ls ih =>
    have hkept : kept.map LegPlan.note ⊆ ((l :: ls).foldl keepPlan kept).map LegPlan.note :=
      List.map_subset _ (subset_foldl_keepPlan (l :: ls) kept)
    rw [List.filter_cons, List.foldl_cons]
    by_cases hdup : l.note ∈ kept.map LegPlan.note
    · have hleg : Rig.keepLeg (r, kept) l = (r, kept) := if_pos (any_sameNote.mpr hdup)
      rw [if_neg (by simpa using hkept hdup), hleg, ih, List.foldl_cons, keepPlan_duplicate hdup]
    · rcases Nat.lt_or_ge kept.length 8 with hroom | hfull
      · have hleg : Rig.keepLeg (r, kept) l = (r, kept ++ [l]) :=
          (if_neg (any_sameNote.not.mpr hdup)).trans (if_pos hroom)
        have hmem : l.note ∈ ((l :: ls).foldl keepPlan kept).map LegPlan.note := by
          rw [List.foldl_cons, keepPlan_fresh hdup hroom]
          exact List.map_subset _ (subset_foldl_keepPlan ls _) (by simp)
        rw [if_neg (by simpa using hmem), hleg, ih, List.foldl_cons, keepPlan_fresh hdup hroom]
      · have hleg : Rig.keepLeg (r, kept) l = (r.report .fanOutClipped l.output.val, kept) :=
          (if_neg (any_sameNote.not.mpr hdup)).trans (if_neg (Nat.not_lt.mpr hfull))
        rw [foldl_keepPlan_full hfull, if_pos (by simpa using hdup), List.foldl_cons, hleg, ih,
          foldl_keepPlan_full hfull]
        rfl

end Sys2Proof.Machine
end

section
/-! The candidate legs of a note-on and what forming them reports (R47 to R51), and the legs that are built. -/
namespace Sys2Proof.Machine

/-! ### Matching ROUTE entries (R47) -/

/-- The ROUTE entries of a bank that match a note-on, in bank order. -/
def matchingRoutes (bank : List Layer) (n : Input) (c : Chan) (k v : Seven) : List Layer :=
  bank.filter fun e => decide (e.action = .route ∧ e.inputs.getLsbD n.val = true ∧
      e.sourceChannel = c.val + 1 ∧ e.keyLow ≤ k.val ∧ k.val ≤ e.keyHigh ∧ e.velocityLow ≤ v.val ∧
      v.val ≤ e.velocityHigh)

theorem mem_matchingRoutes {bank : List Layer} {n : Input} {c : Chan} {k v : Seven} {e : Layer} :
    e ∈ matchingRoutes bank n c k v ↔ e ∈ bank ∧ e.action = .route ∧ e.inputs.getLsbD n.val = true ∧
      e.sourceChannel = c.val + 1 ∧ e.keyLow ≤ k.val ∧ k.val ≤ e.keyHigh ∧ e.velocityLow ≤ v.val ∧
      v.val ≤ e.velocityHigh := by
  simp only [matchingRoutes, List.mem_filter, decide_eq_true_eq]

theorem filter_isMatch_routes (bank : List Layer) (n : Input) (c : Chan) (k v : Seven) :
    ((bank.filter fun e => e.action = .route).filter fun e => e.isMatch n c k v) =
      matchingRoutes bank n c k v := by
  rw [List.filter_filter, matchingRoutes]
  refine List.filter_congr fun e _ => Bool.eq_iff_iff.mpr ?_
  simp only [Layer.isMatch, Layer.hears, Bool.and_eq_true, decide_eq_true_eq]
  tauto

/-! ### One output of an entry (R48, R49, R51) -/

theorem echoes_iff {echo : BitVec 4} {n : Input} {o : Output} :
    echoes echo n o = true ↔ o.val = n.val ∧ echo.getLsbD n.val = false := by
  simp [echoes]

/-- An output is passed over when the echo rule removes it or it is disabled. -/
theorem passedOver_iff {g : Rig} {echo : BitVec 4} {n : Input} {o : Output} :
    (echoes echo n o || !(g.out o).enabled) = true ↔
      (o.val = n.val ∧ echo.getLsbD n.val = false) ∨ (g.out o).enabled = false := by
  rw [Bool.or_eq_true, echoes_iff, Bool.not_eq_true']

theorem Layer.velocityOf_eq (e : Layer) (v : Seven) : e.velocityOf v =
    Fin.ofNat 128 (min 127 (max 1 ((((v.val * e.scale + 32) / 64 : Nat) : Int) + e.offset))).toNat := by
  rw [Layer.velocityOf, clampInt_eq 1 127 _ (by omega)]

theorem Rig.candidate_plans (g : Rig) (m : Moment) (echo : BitVec 4) (n : Input) (k v : Seven) (e : Layer)
    (o : Output) : (g.candidate m echo n k v e o).2 = (candidateLeg g m echo n k v e o).toList := by
  unfold Rig.candidate candidateLeg
  by_cases hpass : (o.val = n.val ∧ echo.getLsbD n.val = false) ∨ (g.out o).enabled = false
  · rw [if_pos (passedOver_iff.mpr hpass), if_pos hpass]
    rfl
  · rw [if_neg (passedOver_iff.not.mpr hpass), if_neg hpass, Layer.keyOf]
    by_cases hkey : 0 ≤ (k.val : Int) + e.transpose ∧ (k.val : Int) + e.transpose ≤ 127
    · rw [if_pos hkey, if_pos hkey, ← Layer.velocityOf_eq]
      rfl
    · rw [if_neg hkey, if_neg hkey]
      rfl

/-- The desk once one output of a matching ROUTE entry has been looked at: a key outside 0 to 127 is reported
where the output is not passed over (R48). -/
def keyedDesk (g : Rig) (echo : BitVec 4) (n : Input) (k : Seven) (e : Layer) (d : Desk) (o : Output) : Desk :=
  if ¬(o.val = n.val ∧ echo.getLsbD n.val = false) ∧ (g.out o).enabled = true ∧
      ¬(0 ≤ (k.val : Int) + e.transpose ∧ (k.val : Int) + e.transpose ≤ 127)
    then d.report .outOfRangeKeys o.val else d

theorem Rig.OnlyDesk.candidate_desk {g t : Rig} (h : g.OnlyDesk t) (m : Moment) (echo : BitVec 4) (n : Input)
    (k v : Seven) (e : Layer) (o : Output) :
    (t.candidate m echo n k v e o).1.desk = keyedDesk g echo n k e t.desk o := by
  have hout : t.out o = g.out o := by rw [h, Rig.out_setDesk]
  unfold Rig.candidate keyedDesk
  rw [← hout]
  by_cases hpass : (o.val = n.val ∧ echo.getLsbD n.val = false) ∨ (t.out o).enabled = false
  · rw [if_pos (passedOver_iff.mpr hpass), if_neg]
    rintro ⟨hecho, hen, -⟩
    exact hpass.elim hecho fun hoff => absurd (hen.symm.trans hoff) (by decide)
  · rw [if_neg (passedOver_iff.not.mpr hpass), Layer.keyOf]
    obtain ⟨hecho, hen⟩ := not_or.mp hpass
    by_cases hkey : 0 ≤ (k.val : Int) + e.transpose ∧ (k.val : Int) + e.transpose ≤ 127
    · rw [if_pos hkey, if_neg fun ⟨_, _, hout⟩ => hout hkey]
    · rw [if_neg hkey, if_pos ⟨hecho, Bool.eq_true_of_not_eq_false hen, hkey⟩]
      rfl

/-! ### One entry (R48, R50) -/

/-- A route is void when its output mask is the output of its input alone, and the pair is not permitted (R50). -/
theorem Layer.isVoid_iff {e : Layer} {echo : BitVec 4} {n : Input} :
    e.isVoid echo n = true ↔ e.outputs = BitVec.twoPow 6 n.val ∧ echo.getLsbD n.val = false := by
  have hmem : ∀ o : Output, o ∈ outputsOf e.outputs ↔ e.outputs.getLsbD o.val = true := fun o => by
    rw [outputsOf, List.mem_filter, and_iff_right (mem_allOutputs o)]
  have hvoid : e.isVoid echo n = true ↔ outputsOf e.outputs ≠ [] ∧
      ∀ o ∈ outputsOf e.outputs, o.val = n.val ∧ echo.getLsbD n.val = false := by
    simp only [Layer.isVoid, Bool.and_eq_true, Bool.not_eq_true', List.isEmpty_eq_false_iff, List.all_eq_true,
      echoes_iff]
  have hn : n.val < 6 := by omega
  rw [hvoid]
  constructor
  · rintro ⟨hne, hall⟩
    obtain ⟨o, ho⟩ := List.exists_mem_of_ne_nil _ hne
    obtain ⟨hon, hecho⟩ := hall o ho
    refine ⟨BitVec.eq_of_getLsbD_eq fun i hi => ?_, hecho⟩
    rw [BitVec.getLsbD_twoPow, Bool.eq_iff_iff, decide_eq_true hn, Bool.true_and, decide_eq_true_iff]
    constructor
    · exact fun hbit => ((hall ⟨i, hi⟩ ((hmem _).mpr hbit)).1).symm
    · rintro rfl
      exact hon ▸ (hmem o).mp ho
  · rintro ⟨hmask, hecho⟩
    have hbit : ∀ o : Output, o ∈ outputsOf e.outputs ↔ o.val = n.val := fun o => by
      rw [hmem, hmask, BitVec.getLsbD_twoPow, decide_eq_true hn, Bool.true_and, decide_eq_true_iff, eq_comm]
    exact ⟨List.ne_nil_of_mem ((hbit ⟨n.val, hn⟩).mpr rfl), fun o ho => ⟨(hbit o).mp ho, hecho⟩⟩

/-- The desk once a matching ROUTE entry has been found void or not (R50). -/
def voidedDesk (m : Moment) (echo : BitVec 4) (n : Input) (c : Chan) (d : Desk) (e : Layer) : Desk :=
  if e.outputs = BitVec.twoPow 6 n.val ∧ echo.getLsbD n.val = false then
    (d.report .voidRoutes n.val).record
      { time := m.now, kind := .voidRoute, origin := none, output := some (Fin.ofNat 6 n.val),
        song := none, scene := none, generation := none, channel := some c, detail := none,
        cueTag := e.cueTag }
  else d

theorem Rig.reportVoid_desk (t : Rig) (m : Moment) (echo : BitVec 4) (n : Input) (c : Chan) (e : Layer) :
    (if e.isVoid echo n then t.reportVoid m n c e else t).desk = voidedDesk m echo n c t.desk e := by
  have hn : (Fin.castLE (by decide) n : Output) = Fin.ofNat 6 n.val :=
    Fin.ext (Nat.mod_eq_of_lt (by omega)).symm
  unfold voidedDesk
  by_cases hvoid : e.outputs = BitVec.twoPow 6 n.val ∧ echo.getLsbD n.val = false
  · rw [if_pos hvoid, if_pos (Layer.isVoid_iff.mpr hvoid), ← hn]
    rfl
  · rw [if_neg hvoid, if_neg (Layer.isVoid_iff.not.mpr hvoid)]

/-- A fold that gathers lists beside a rig leaves the desk that its rounds leave one after another. -/
theorem Rig.foldl_gather_desk {α β : Type} {b : Rig} {f : Rig → α → Rig × List β} {tell : Desk → α → Desk}
    {l : List α} (hf : ∀ t : Rig, ∀ a ∈ l, b.OnlyDesk t → b.OnlyDesk (f t a).1 ∧ (f t a).1.desk = tell t.desk a)
    {r : Rig} (hr : b.OnlyDesk r) (xs : List β) :
    (l.foldl (fun acc a => ((f acc.1 a).1, acc.2 ++ (f acc.1 a).2)) (r, xs)).1.desk = l.foldl tell r.desk := by
  induction l generalizing r xs with
  | nil => rfl
  | cons a l ih =>
    obtain ⟨honly, hdesk⟩ := hf r a List.mem_cons_self hr
    rw [List.foldl_cons, ih (fun t a ha => hf t a (List.mem_cons_of_mem _ ha)) honly, hdesk, List.foldl_cons]

/-- The desk once a matching ROUTE entry has formed its candidates (R48, R50). -/
def entryDesk (g : Rig) (m : Moment) (echo : BitVec 4) (n : Input) (c : Chan) (k : Seven) (d : Desk) (e : Layer) :
    Desk := (outputsOf e.outputs).foldl (keyedDesk g echo n k e) (voidedDesk m echo n c d e)

section
variable {g t : Rig} {e : Layer} (h : g.OnlyDesk t) (hroute : e.action = .route) (m : Moment) (echo : BitVec 4)
  (n : Input) (c : Chan) (k v : Seven)
include h hroute

theorem Rig.OnlyDesk.entryLegs_plans : (t.entryLegs m echo n c k v e).2 =
    (outputsOf e.outputs).filterMap fun o => candidateLeg g m echo n k v e o := by
  rw [h.entryLegs, if_pos hroute, List.filterMap_eq_flatMap_toList]
  simp only [Rig.candidate_plans]

theorem Rig.OnlyDesk.entryLegs_desk :
    (t.entryLegs m echo n c k v e).1.desk = entryDesk g m echo n c k t.desk e := by
  have hstart : g.OnlyDesk (if e.isVoid echo n then t.reportVoid m n c e else t) := by
    split
    · exact h.trans (t.onlyDesk_setDesk _)
    · exact h
  rw [entryDesk, ← Rig.reportVoid_desk, Rig.entryLegs, if_pos hroute]
  exact Rig.foldl_gather_desk (f := fun t o => t.candidate m echo n k v e o)
    (fun t o _ ht => ⟨ht.trans (t.candidate_onlyDesk m echo n k v e o), ht.candidate_desk m echo n k v e o⟩) hstart []

end

/-! ### The legs that are built -/

section
variable (g : Rig) (m : Moment) (echo : BitVec 4) (bank : List Layer) (n : Input) (c : Chan) (k v : Seven)

theorem candidateLegs_eq : candidateLegs g m echo bank n c k v = (matchingRoutes bank n c k v).flatMap fun e =>
    (outputsOf e.outputs).filterMap fun o => candidateLeg g m echo n k v e o := rfl

theorem formedDesk_eq : formedDesk g m echo bank n c k v =
    (matchingRoutes bank n c k v).foldl (entryDesk g m echo n c k) g.desk := rfl

/-- Building legs forms the candidates and puts them under the duplicate and fan-out rule one after another. -/
theorem Rig.buildLegs_candidates : ∃ t : Rig, t.desk = formedDesk g m echo bank n c k v ∧
    g.buildLegs m echo bank n c k v = (candidateLegs g m echo bank n c k v).foldl Rig.keepLeg (t, []) := by
  have hg := Rig.OnlyDesk.refl g
  have hroute : ∀ e ∈ matchingRoutes bank n c k v, e.action = .route := fun e he => by
    obtain ⟨-, h, -⟩ := mem_matchingRoutes.mp he
    exact h
  have hplans := Rig.foldl_gather (f := fun t e => t.entryLegs m echo n c k v e)
    (fun t e ht => ⟨ht.trans (t.entryLegs_onlyDesk m echo n c k v e),
      (ht.entryLegs m echo n c k v e).trans (hg.entryLegs m echo n c k v e).symm⟩)
    (matchingRoutes bank n c k v) hg []
  have hdesk := Rig.foldl_gather_desk (f := fun t e => t.entryLegs m echo n c k v e)
    (fun t e he ht => ⟨ht.trans (t.entryLegs_onlyDesk m echo n c k v e),
      ht.entryLegs_desk (hroute e he) m echo n c k v⟩) hg []
  rw [List.nil_append, List.flatMap_congr fun e he => hg.entryLegs_plans (hroute e he) m echo n c k v] at hplans
  rw [← g.buildLegs_routes m echo bank n c k v, Rig.buildLegs, filter_isMatch_routes]
  exact ⟨_, hdesk.trans (formedDesk_eq g m echo bank n c k v).symm, congrArg (List.foldl Rig.keepLeg _) hplans⟩

/-- The legs that are built are the candidates that the duplicate and fan-out rule keeps. -/
theorem Rig.buildLegs_plans : (g.buildLegs m echo bank n c k v).2 =
    (candidateLegs g m echo bank n c k v).foldl keepPlan [] := by
  obtain ⟨t, -, hbuild⟩ := g.buildLegs_candidates m echo bank n c k v
  rw [hbuild, Rig.foldl_keepLeg]

theorem Rig.buildLegs_desk : (g.buildLegs m echo bank n c k v).1.desk = builtDesk g m echo bank n c k v := by
  rw [builtDesk, Rig.buildLegs_plans]
  obtain ⟨t, hformed, hbuild⟩ := g.buildLegs_candidates m echo bank n c k v
  rw [hbuild, foldl_keepLeg_desk, hformed]
  rfl

end

/-- What a candidate leg is made of (R48, R49, R51). -/
theorem candidateLeg_eq_some {g : Rig} {m : Moment} {echo : BitVec 4} {n : Input} {k v : Seven} {e : Layer}
    {o : Output} {l : LegPlan} (h : candidateLeg g m echo n k v e o = some l) :
    l.output = o ∧ (g.out o).enabled = true ∧ ¬(o.val = n.val ∧ echo.getLsbD n.val = false) ∧
      (l.key.val : Int) = k.val + e.transpose ∧
      (l.velocity.val : Int) =
        min 127 (max 1 ((((v.val * e.scale + 32) / 64 : Nat) : Int) + e.offset)) ∧
      l.channel = match (g.chan o e.dest).redirect with
        | some (a, gen) => if gen = m.generation then a else e.dest
        | none => e.dest := by
  have hval : ∀ x : Int, 0 ≤ x → x ≤ 127 → ((Fin.ofNat 128 x.toNat : Seven).val : Int) = x := fun x h0 h1 => by
    rw [Fin.val_ofNat, Nat.mod_eq_of_lt (by omega), Int.toNat_of_nonneg h0]
  unfold candidateLeg at h
  split at h
  · exact absurd h nofun
  · rename_i hpass
    obtain ⟨hecho, hen⟩ := not_or.mp hpass
    split at h
    · rename_i hkey
      obtain ⟨hlow, hhigh⟩ := hkey
      rw [← Option.some.inj h]
      exact ⟨rfl, Bool.eq_true_of_not_eq_false hen, hecho, hval _ hlow hhigh, hval _ (by omega) (by omega), rfl⟩
    · exact absurd h nofun

/-- Settles O47: the legs are the candidates that the duplicate and fan-out rule keeps, and the desk has the reports
of forming them and of the rule. -/
theorem legsBuilt : Obligations.LegsBuilt := by
  intro g m echo bank n c k v
  have hsub := foldl_keepPlan_sublist (candidateLegs g m echo bank n c k v) []
  have hnodup := foldl_keepPlan_nodup (candidateLegs g m echo bank n c k v) (kept := []) List.nodup_nil
  have hplans := g.buildLegs_plans m echo bank n c k v
  rw [← hplans] at hsub hnodup
  refine ⟨⟨g.buildLegs_length m echo bank n c k v, hnodup, fun l hl => ?_⟩,
    ⟨hsub, fun before l later hsplit hnew hfew => ?_⟩, ?_⟩
  · obtain ⟨e, he, hleg⟩ := List.mem_flatMap.mp ((candidateLegs_eq g m echo bank n c k v) ▸ hsub.subset hl)
    obtain ⟨o, ho, hleg⟩ := List.mem_filterMap.mp hleg
    obtain ⟨hbank, hmatch⟩ := mem_matchingRoutes.mp he
    obtain ⟨rfl, hen, hecho, hkey, hvelocity, hchannel⟩ := candidateLeg_eq_some hleg
    obtain ⟨hroute, hin, hchan, hkeyLow, hkeyHigh, hvelLow, hvelHigh⟩ := hmatch
    exact ⟨hen, hecho, by omega, e, hbank, hroute, hin, hchan, hkeyLow, hkeyHigh, hvelLow, hvelHigh,
      (List.mem_filter.mp ho).2, hkey, hvelocity, hchannel⟩
  · rw [hplans, hsplit]
    exact mem_foldl_keepPlan_of_fresh hnew hfew
  · rw [g.buildLegs_onlyDesk m echo bank n c k v, g.buildLegs_desk]
    rfl

end Sys2Proof.Machine
end

section
/-! How a record loses legs: what the offers leave of it, and what the end of a leg and the discard of its note-on
make of its counts and of its pending program (R61, R65, R68, R86). -/
namespace Sys2Proof.Machine

/-! ### Dated legs in the table -/

theorem mem_datedLegs {es : List Entry} {x : Generation × Leg} :
    x ∈ datedLegs es ↔ ∃ e ∈ es, x.2 ∈ e.legs ∧ e.generation = x.1 := by
  simp only [datedLegs, List.mem_flatMap, List.mem_map]
  constructor
  · rintro ⟨e, he, l, hl, rfl⟩
    exact ⟨e, he, hl, rfl⟩
  · rintro ⟨e, he, hl, hg⟩
    exact ⟨e, he, x.2, hl, by rw [hg]⟩

theorem findLeg_dated {es : List Entry} {id : Nat} {x : Generation × Leg} (h : findLeg es id = some x) :
    x ∈ datedLegs es ∧ x.2.id = id := by
  obtain ⟨-, hid, e, he, hl, hg⟩ := findLeg_some (g := x.1) (l := x.2) h
  exact ⟨mem_datedLegs.mpr ⟨e, he, hl, hg⟩, hid⟩

theorem datedLegs_removeLeg (es : List Entry) (id : Nat) :
    datedLegs (removeLeg es id) = (datedLegs es).filter fun x => x.2.id ≠ id := by
  induction es with
  | nil => rfl
  | cons e es ih =>
    have hcons : datedLegs (e :: es) = e.legs.map (fun l => (e.generation, l)) ++ datedLegs es := rfl
    have hlegs : (e.legs.map fun l => (e.generation, l)).filter (fun x => x.2.id ≠ id) =
        (e.legs.filter fun l => l.id ≠ id).map fun l => (e.generation, l) := List.filter_map
    rw [hcons, List.filter_append, hlegs, ← ih, removeLeg, List.map_cons, List.filter_cons]
    split
    · rfl
    · rename_i h
      have hnil : e.legs.filter (fun l => decide (l.id ≠ id)) = [] := by simpa using h
      rw [hnil]
      rfl

theorem datedLegs_markLeg (es : List Entry) (id : Nat) (sent : Bool) : datedLegs (markLeg es id sent) =
    (datedLegs es).map fun x => if x.2.id = id then (x.1, { x.2 with sent := sent }) else x := by
  simp only [datedLegs, markLeg, List.flatMap_map, List.map_flatMap, List.map_map]
  refine List.flatMap_congr fun e _ => List.map_congr_left fun l _ => ?_
  simp only [Function.comp_apply]
  split <;> rfl

theorem datedLegs_append (es fs : List Entry) : datedLegs (es ++ fs) = datedLegs es ++ datedLegs fs :=
  List.flatMap_append

/-- A leg of its own number stands before the others. -/
theorem datedLegs_perm {es : List Entry} (hn : (legIds es).Nodup) {x : Generation × Leg} (hx : x ∈ datedLegs es) :
    (datedLegs es).Perm (x :: (datedLegs es).filter fun y => y.2.id ≠ x.2.id) := by
  rw [← datedLegs_ids] at hn
  obtain ⟨before, behind, h⟩ := List.append_of_mem hx
  rw [h] at hn ⊢
  have hp : (before ++ x :: behind).Perm (x :: (before ++ behind)) := List.perm_middle
  have hne := (hp.map fun y => y.2.id).nodup_iff.mp hn
  rw [List.map_cons, List.nodup_cons] at hne
  have hself : (before ++ x :: behind).filter (fun y => decide (y.2.id ≠ x.2.id)) = before ++ behind := by
    rw [List.filter_append, List.filter_cons_of_neg (by simp), ← List.filter_append, List.filter_eq_self]
    intro y hy
    exact decide_eq_true fun he => hne.1 (List.mem_map.mpr ⟨y, hy, he⟩)
  rw [hself]
  exact hp

/-- The same table with one leg marked. -/
theorem datedLegs_markLeg_perm {es : List Entry} (hn : (legIds es).Nodup) {x : Generation × Leg}
    (hx : x ∈ datedLegs es) (sent : Bool) : (datedLegs (markLeg es x.2.id sent)).Perm
      ((x.1, { x.2 with sent := sent }) :: (datedLegs es).filter fun y => y.2.id ≠ x.2.id) := by
  rw [datedLegs_markLeg]
  refine ((datedLegs_perm hn hx).map _).trans ?_
  rw [List.map_cons, if_pos rfl]
  refine List.Perm.cons _ (.of_eq ?_)
  refine (List.map_congr_left fun y hy => ?_).trans (List.map_id _)
  exact if_neg (by simpa using (List.mem_filter.mp hy).2)

/-- The generation and the number of each leg of a table. -/
def stamps (es : List Entry) : List (Generation × Nat) := (datedLegs es).map fun x => (x.1, x.2.id)

theorem stamps_ids (es : List Entry) : (stamps es).map Prod.snd = legIds es := by
  rw [stamps, List.map_map, ← datedLegs_ids]
  rfl

theorem stamps_bareTable (es : List Entry) : stamps (bareTable es) = stamps es := by
  simp [stamps, datedLegs, bareTable, List.flatMap_map, List.map_flatMap, Function.comp_def]

theorem stamps_removeLeg (es : List Entry) (id : Nat) : (stamps (removeLeg es id)).Sublist (stamps es) := by
  rw [stamps, datedLegs_removeLeg]
  exact List.filter_sublist.map _

theorem Rig.Works.stamps {r t : Rig} (h : r.Works t) : stamps t.table = stamps r.table := by
  rw [← stamps_bareTable, h.notes.1, stamps_bareTable]

/-- The end of a leg brings no leg. -/
theorem Rig.endLeg_stamps (r : Rig) (m : Moment) (id : Nat) :
    (stamps (r.endLeg m id).table).Sublist (stamps r.table) := by
  obtain ⟨-, h⟩ | ⟨g, l, hf, -⟩ := r.endLeg_cases m id
  · rw [h]
  · rw [(Rig.endLeg_works m (by simp [hf])).stamps]
    exact stamps_removeLeg _ _

/-! ### What offers leave of records -/

/-- A record that differs at most in what it holds and owes. -/
def ChanRec.Alike (x y : ChanRec) : Prop := ∃ held owed, y = { x with held := held, panicOwed := owed }

theorem ChanRec.Alike.refl (x : ChanRec) : x.Alike x := ⟨x.held, x.panicOwed, rfl⟩

theorem ChanRec.Alike.trans {x y z : ChanRec} (h : x.Alike y) (k : y.Alike z) : x.Alike z := by
  obtain ⟨a, b, rfl⟩ := h
  obtain ⟨d, e, rfl⟩ := k
  exact ⟨d, e, rfl⟩

/-- From `r` to `t` the notes stay, the enables stay, and the records differ in what they hold and owe alone. -/
structure Rig.Quiet (r t : Rig) : Prop where
  notes : r.sameNotes t
  enabled : ∀ o, (t.out o).enabled = (r.out o).enabled
  chan : ∀ o c, (r.chan o c).Alike (t.chan o c)

theorem Rig.Quiet.refl (r : Rig) : r.Quiet r := ⟨r.sameNotes_refl, fun _ => rfl, fun _ _ => .refl _⟩

theorem Rig.Quiet.trans {r t u : Rig} (h : r.Quiet t) (k : t.Quiet u) : r.Quiet u :=
  ⟨Rig.sameNotes_trans h.notes k.notes, fun o => (k.enabled o).trans (h.enabled o),
    fun o c => (h.chan o c).trans (k.chan o c)⟩

theorem Rig.setDesk_quiet (r : Rig) (d : Desk) : r.Quiet (r.setDesk d) :=
  ⟨⟨rfl, rfl, rfl⟩, fun _ => rfl, fun _ _ => .refl _⟩

theorem Rig.setOut_quiet (r : Rig) (o : Output) {x : OutPort} (h : x.enabled = (r.out o).enabled) :
    r.Quiet (r.setOut o x) := by
  refine ⟨⟨rfl, rfl, rfl⟩, fun p => ?_, fun _ _ => .refl _⟩
  rw [Rig.out_setOut]
  split
  · rename_i hp
    rw [h, hp]
  · rfl

theorem Rig.setChan_quiet (r : Rig) (o : Output) (c : Chan) {x : ChanRec} (h : (r.chan o c).Alike x) :
    r.Quiet (r.setChan o c x) := by
  refine ⟨⟨rfl, rfl, rfl⟩, fun _ => rfl, fun p d => ?_⟩
  rw [Rig.chan_setChan]
  split
  · rename_i hp
    rw [hp.1, hp.2]
    exact h
  · exact .refl _

theorem appendedRig_quiet (now : StageTime) (r : Rig) (o : Output) (e : Urgent) : r.Quiet (appendedRig now r o e) := by
  refine ⟨appendedRig_notes now r o e, fun p => ?_, fun p c => ?_⟩
  · rw [appendedRig_out]
    split
    · rename_i hp
      rw [appendedOut_enabled, hp]
    · rfl
  · rw [appendedRig_chan]
    split
    · exact ⟨none, _, rfl⟩
    · exact .refl _

theorem Rig.refuse_quiet (r : Rig) (m : Moment) (o : Output) (e : Urgent) : r.Quiet (r.refuse m o e) := by
  have owe : ∀ c, r.Quiet (r.owe m o c) := fun c => by
    rw [Rig.owe_eq]
    exact ((r.setChan_quiet o c ⟨_, true, rfl⟩).trans (Rig.setOut_quiet _ o (by simp))).trans (Rig.setDesk_quiet _ _)
  cases e with
  | noteOn c k v l =>
    rw [Rig.refuse, Rig.reportDiscard_eq]
    exact Rig.Quiet.trans (r.setOut_quiet o (by rfl)) (Rig.setDesk_quiet _ _)
  | noteOff c k => exact owe c
  | program c p x => exact r.setChan_quiet o c ⟨some p, _, rfl⟩
  | allNotesOff c =>
    rw [Rig.refuse]
    split
    · exact .refl r
    · exact owe c

theorem Rig.replace_quiet (r : Rig) (m : Moment) (o : Output) (e : Urgent) :
    r.Quiet (r.replace m o e fun r => r.refuse m o e).rig := by
  cases hd : (r.out o).discardable with
  | none =>
    rw [r.replace_none m o e _ hd]
    exact r.refuse_quiet m o e
  | some x =>
    obtain ⟨-, -, hnotes, hout, -, hchan⟩ := r.replace_spec m o e (fun r => r.refuse m o e)
      (d := x.1) (leg := x.2.1) (rest := x.2.2) hd
    refine ⟨hnotes, fun p => ?_, fun p c => ?_⟩
    · rw [hout]
      split
      · rename_i hp
        rw [hp]
      · rfl
    · rw [hchan]
      split
      · exact ⟨none, _, rfl⟩
      · exact .refl _

/-- An offer of any event changes no note and no count. -/
theorem offerEvent_quiet (r : Rig) (m : Moment) (o : Output) {e : Urgent} (he : ∀ c p, e ≠ .program c p true) :
    r.Quiet (offerEvent r m o e).rig := by
  cases hen : (r.out o).enabled
  · rw [offerEvent_disabled hen]
    cases e with
    | program c p x => exact r.setChan_quiet o c ⟨some p, _, rfl⟩
    | noteOn | noteOff | allNotesOff => exact .refl r
  · by_cases hfull : fullFor (r.out o) e
    · rw [offerEvent_full hen hfull he]
      exact r.replace_quiet m o e
    · rw [offerEvent_room hen hfull he]
      exact appendedRig_quiet m.now r o e

theorem Rig.offerNoteOn_quiet (r : Rig) (m : Moment) (o : Output) (c : Chan) (k v : Seven) (leg : Nat) :
    r.Quiet (r.offerNoteOn m o c k v leg).rig := offerEvent_quiet r m o (e := .noteOn c k v leg) (by simp)

theorem Rig.offerNoteOff_quiet (r : Rig) (m : Moment) (o : Output) (c : Chan) (k : Seven) :
    r.Quiet (r.offerNoteOff m o c k).rig := offerEvent_quiet r m o (e := .noteOff c k) (by simp)

theorem Rig.offerAllNotesOff_quiet (r : Rig) (m : Moment) (o : Output) (c : Chan) :
    r.Quiet (r.offerAllNotesOff m o c).rig := offerEvent_quiet r m o (e := .allNotesOff c) (by simp)

theorem Rig.offerProgram_quiet (r : Rig) (m : Moment) (o : Output) (c : Chan) (p : Program) :
    r.Quiet (r.offerProgram m o c p).rig := offerEvent_quiet r m o (e := .program c p false) (by simp)

theorem Rig.startLine_quiet (r : Rig) (m : Moment) (o : Output) : r.Quiet (r.startLine m o) := by
  rw [Rig.startLine_eq]
  exact Rig.Quiet.trans (r.setOut_quiet o (by rfl)) (Rig.setDesk_quiet _ _)

/-! ### The loss of a leg -/

/-- A record that loses a sent leg of generation `g`: both its counts fall where the leg is old, and the pending
program is made current when the old-leg count comes to 0 (R61, R65, R68, R86). -/
def ChanRec.lose (x : ChanRec) (current g : Generation) : ChanRec :=
  match x.pending with
  | none => { x with sounding := x.sounding - 1 }
  | some p =>
    if age current p.generation < age current g then
      if x.old ≤ 1 then
        { madeCurrent p.program x with sounding := x.sounding - 1, old := x.old - 1, pending := none }
      else { x with sounding := x.sounding - 1, old := x.old - 1 }
    else { x with sounding := x.sounding - 1 }

/-- From `r` to `t` the record of leg `l` loses the leg, and the rest stays quiet. -/
structure Rig.Loses (current g : Generation) (l : Leg) (r t : Rig) : Prop where
  notes : r.sameNotes t
  enabled : ∀ o, (t.out o).enabled = (r.out o).enabled
  chan : ∀ o c, (if o = l.output ∧ c = l.channel then (r.chan o c).lose current g else r.chan o c).Alike (t.chan o c)

/-- The loss of a sent leg as the model carries it out: the counts fall, and the last old leg releases the pending
program, which may discard a note-on. -/
def Rig.loseLeg (r : Rig) (m : Moment) (g : Generation) (l : Leg) : Rig × Option Nat :=
  let x := r.lowerCounts l.output l.channel ((r.chan l.output l.channel).isOld m.generation g)
  if x.2 then x.1.release m l.output l.channel else (x.1, none)

theorem Rig.release_quiet {r : Rig} {o : Output} {c : Chan} {p : Pending} (hp : (r.chan o c).pending = some p)
    (m : Moment) : (r.setChan o c { madeCurrent p.program (r.chan o c) with pending := none }).Quiet
      (r.release m o c).1 := by
  have hq := r.offerProgram_quiet m o c p.program
  rw [Rig.release, hp]
  refine ⟨hq.notes, hq.enabled, fun q d => ?_⟩
  rw [Rig.chan_setChan, Rig.chan_setChan]
  split
  · obtain ⟨held, owed, he⟩ := hq.chan o c
    rw [he]
    exact ⟨held, owed, rfl⟩
  · exact hq.chan q d

theorem ChanRec.isOld_iff {x : ChanRec} {current g : Generation} : x.isOld current g = true ↔
    ∃ p, x.pending = some p ∧ age current p.generation < age current g := by
  unfold ChanRec.isOld
  cases x.pending <;> simp

theorem ChanRec.lose_fresh {x : ChanRec} {current g : Generation} (h : x.isOld current g = false) :
    x.lose current g = { x with sounding := x.sounding - 1 } := by
  unfold ChanRec.lose
  split
  · rfl
  · rename_i p hp
    refine if_neg fun hage => ?_
    rw [ChanRec.isOld_iff.mpr ⟨p, hp, hage⟩] at h
    contradiction

theorem ChanRec.lose_old {x : ChanRec} {current g : Generation} {p : Pending} (hp : x.pending = some p)
    (h : age current p.generation < age current g) : x.lose current g =
      if x.old ≤ 1 then
        { madeCurrent p.program x with sounding := x.sounding - 1, old := x.old - 1, pending := none }
      else { x with sounding := x.sounding - 1, old := x.old - 1 } := by
  unfold ChanRec.lose
  split
  · rename_i hn
    rw [hn] at hp
    contradiction
  · rename_i q hq
    obtain rfl : q = p := Option.some.inj (hq.symm.trans hp)
    exact if_pos h

theorem Rig.Loses.of_quiet {r t : Rig} {current g : Generation} {l : Leg} {x : ChanRec}
    (hx : (r.chan l.output l.channel).lose current g = x) (h : (r.setChan l.output l.channel x).Quiet t) :
    Rig.Loses current g l r t := by
  refine ⟨h.notes, h.enabled, fun q d => ?_⟩
  have hq := h.chan q d
  rw [Rig.chan_setChan] at hq
  split
  · rename_i hqd
    rw [if_pos hqd, ← hx] at hq
    rw [hqd.1, hqd.2] at hq ⊢
    exact hq
  · rename_i hqd
    rw [if_neg hqd] at hq
    exact hq

theorem Rig.loseLeg_loses (r : Rig) (m : Moment) (g : Generation) (l : Leg) :
    Rig.Loses m.generation g l r (r.loseLeg m g l).1 := by
  cases hold : (r.chan l.output l.channel).isOld m.generation g
  · refine .of_quiet (ChanRec.lose_fresh hold) ?_
    simpa [Rig.loseLeg, Rig.lowerCounts, hold] using .refl _
  obtain ⟨p, hp, hage⟩ := ChanRec.isOld_iff.mp hold
  refine .of_quiet (ChanRec.lose_old hp hage) ?_
  by_cases hlast : (r.chan l.output l.channel).old ≤ 1
  case neg =>
    have hzero : ¬(r.chan l.output l.channel).old - 1 = 0 := by omega
    rw [if_neg hlast]
    simpa [Rig.loseLeg, Rig.lowerCounts, hold, hzero] using .refl _
  have hzero : (r.chan l.output l.channel).old - 1 = 0 := by omega
  have hrel := Rig.release_quiet (p := p) (o := l.output) (c := l.channel)
    (r := r.setChan l.output l.channel { r.chan l.output l.channel with
      sounding := (r.chan l.output l.channel).sounding - 1, old := (r.chan l.output l.channel).old - 1 })
    (by rw [Rig.chan_setChan, if_pos ⟨rfl, rfl⟩]; exact hp) m
  have hlose : r.loseLeg m g l = (r.setChan l.output l.channel { r.chan l.output l.channel with
      sounding := (r.chan l.output l.channel).sounding - 1
      old := (r.chan l.output l.channel).old - 1 }).release m l.output l.channel := by
    simp [Rig.loseLeg, Rig.lowerCounts, hold, hzero]
  rw [if_pos hlast, hlose]
  refine Rig.Quiet.trans ?_ hrel
  refine ⟨⟨rfl, rfl, rfl⟩, fun _ => rfl, fun q d => ?_⟩
  simp only [Rig.chan_setChan, and_self, if_true]
  split <;> exact .refl _

/-- A discarded note-on whose leg is sent: the leg becomes unsent, its record loses it, and the note-on that a
released PROGRAM discards is settled in turn. -/
theorem Rig.settleDiscard_loseLeg {r : Rig} {id : Nat} {g : Generation} {l : Leg}
    (hf : findLeg r.table id = some (g, l)) (hs : l.sent = true) (m : Moment) (fuel : Nat) :
    r.settleDiscard (fuel + 1) m (some id) =
      ((r.setTable (markLeg r.table id false)).loseLeg m g l).1.settleDiscard fuel m
        ((r.setTable (markLeg r.table id false)).loseLeg m g l).2 := by
  have hlose : (r.setTable (markLeg r.table id false)).loseLeg m g l =
      let x := (r.setTable (markLeg r.table id false)).lowerCounts l.output l.channel
        ((r.chan l.output l.channel).isOld m.generation g)
      if x.2 then x.1.release m l.output l.channel else (x.1, none) := rfl
  simp only [hlose, Rig.settleDiscard, hf, hs, if_true]
  split
  · rfl
  · exact (Rig.settleDiscard_none _ _ _).symm

/-- A sent leg that ends leaves the table, its NOTE-OFF is offered, and its record loses it. -/
theorem Rig.endLeg_loseLeg {r : Rig} {id : Nat} {g : Generation} {l : Leg}
    (hf : findLeg r.table id = some (g, l)) (hs : l.sent = true) (m : Moment) :
    ∃ a, a = ((r.setTable (removeLeg r.table id)).offerNoteOff m l.output l.channel l.key).settled m ∧
      r.endLeg m id = (a.loseLeg m g l).1.settleDiscard discardFuel m (a.loseLeg m g l).2 := by
  refine ⟨_, rfl, ?_⟩
  simp only [Rig.endLeg, hf, hs, if_true, Rig.loseLeg, Rig.releaseSettled]
  split
  · rfl
  · rw [Rig.settleDiscard_none]

end Sys2Proof.Machine
end

section
/-! Facts about one record and the legs that may rest on it, and that they last through discards, settlement and the
ends of legs (R35, R61, R65, R68 to R70, R86). -/
namespace Sys2Proof.Machine

/-! ### Discards -/

/-- One change of the work of the outputs as the note table sees it: a quiet one, or a sent leg that becomes unsent
and is lost by its record. -/
inductive Rig.Discard (m : Moment) (r : Rig) : Rig → Prop
  | quiet {t : Rig} (h : r.Quiet t) : Rig.Discard m r t
  | unsent {t : Rig} {g : Generation} {l : Leg} (found : findLeg r.table l.id = some (g, l)) (sent : l.sent = true)
      (h : Rig.Loses m.generation g l (r.setTable (markLeg r.table l.id false)) t) : Rig.Discard m r t

/-- Discards, one after another. -/
abbrev Rig.Discards (m : Moment) : Rig → Rig → Prop := Relation.ReflTransGen (Rig.Discard m)

theorem Rig.Quiet.discards {r t : Rig} (h : r.Quiet t) (m : Moment) : Rig.Discards m r t := .single (.quiet h)

theorem Rig.discards_foldl {α : Type} {m : Moment} {f : Rig → α → Rig}
    (hf : ∀ (r : Rig) (a : α), Rig.Discards m r (f r a)) (l : List α) (r : Rig) : Rig.Discards m r (l.foldl f r) := by
  induction l generalizing r with
  | nil => exact .refl
  | cons a l ih => exact (hf r a).trans (ih (f r a))

theorem Rig.settleDiscard_discards (fuel : Nat) (m : Moment) (id : Option Nat) (r : Rig) :
    Rig.Discards m r (r.settleDiscard fuel m id) := by
  induction fuel generalizing id r with
  | zero => exact .refl
  | succ fuel ih =>
    cases id with
    | none => exact .refl
    | some id =>
      cases hf : findLeg r.table id with
      | none =>
        rw [Rig.settleDiscard_ended hf]
      | some x =>
        obtain ⟨g, l⟩ := x
        cases hs : l.sent
        · rw [Rig.settleDiscard_unsent hf hs]
        · obtain ⟨-, rfl⟩ := findLeg_dated hf
          rw [Rig.settleDiscard_loseLeg hf hs]
          exact (Relation.ReflTransGen.single (.unsent hf hs (Rig.loseLeg_loses _ m g l))).trans (ih _ _)

theorem Offer.settled_discards {r : Rig} {x : Offer} (m : Moment) (h : r.Quiet x.rig) :
    Rig.Discards m r (x.settled m) := (h.discards m).trans (Rig.settleDiscard_discards _ m _ _)

theorem Rig.settleChan_discards (r : Rig) (m : Moment) (o : Output) (c : Chan) :
    Rig.Discards m r (r.settleChan m o c) := by
  have owed : Rig.Discards m r (if (r.chan o c).panicOwed = true then
      (if (r.offerAllNotesOff m o c).appended = true then
        (r.offerAllNotesOff m o c).rig.setChan o c
          { (r.offerAllNotesOff m o c).rig.chan o c with panicOwed := false }
      else (r.offerAllNotesOff m o c).rig).settleDiscard discardFuel m
        (r.offerAllNotesOff m o c).discarded else r) := by
    have h := r.offerAllNotesOff_quiet m o c
    split
    · refine Relation.ReflTransGen.trans (Rig.Quiet.discards ?_ m) (Rig.settleDiscard_discards _ m _ _)
      split
      · exact h.trans (Rig.setChan_quiet _ o c ⟨_, false, rfl⟩)
      · exact h
    · exact .refl
  unfold Rig.settleChan
  dsimp only
  split
  · exact owed
  · exact owed.trans (Offer.settled_discards m (Rig.offerProgram_quiet _ m o c _))

theorem Rig.settle_discards (r : Rig) (m : Moment) (o : Output) : Rig.Discards m r (r.settle m o) :=
  Rig.discards_foldl (fun r c => r.settleChan_discards m o c) _ r

theorem OutPort.completeHead_enabled (q : OutPort) : q.completeHead.enabled = q.enabled := by
  unfold OutPort.completeHead
  split
  · rfl
  · rfl
  · split
    · rfl
    · split <;> rfl

theorem Rig.completeLine_discards (r : Rig) (m : Moment) (o : Output) : Rig.Discards m r (r.completeLine m o) := by
  unfold Rig.completeLine
  split
  · exact .refl
  · dsimp only
    have h : Rig.Discards m r (r.setOut o (r.out o).completeHead.clearFlags) :=
      (r.setOut_quiet (x := (r.out o).completeHead.clearFlags) o (r.out o).completeHead_enabled).discards m
    refine Relation.ReflTransGen.trans ?_ ((Rig.startLine_quiet _ m o).discards m)
    split
    · exact h.trans (Rig.settle_discards _ m o)
    · exact h

/-- Discards change sent marks alone in the table, and no enable. -/
theorem Rig.Discards.frame {m : Moment} {r t : Rig} (h : Rig.Discards m r t) :
    bareTable t.table = bareTable r.table ∧ t.nextLeg = r.nextLeg ∧
      ∀ o, (t.out o).enabled = (r.out o).enabled := by
  induction h with
  | refl => exact ⟨rfl, rfl, fun _ => rfl⟩
  | tail _ step ih =>
    obtain ⟨ht, hn, he⟩ := ih
    cases step with
    | quiet h =>
      obtain ⟨kt, -, kn⟩ := h.notes
      exact ⟨by rw [kt, ht], kn.trans hn, fun o => (h.enabled o).trans (he o)⟩
    | unsent _ _ h =>
      obtain ⟨kt, -, kn⟩ := h.notes
      refine ⟨?_, kn.trans hn, fun o => (h.enabled o).trans (he o)⟩
      rw [kt, Rig.setTable_table, bareTable_markLeg, ht]

theorem Rig.Discards.legIds {m : Moment} {r t : Rig} (h : Rig.Discards m r t) : legIds t.table = legIds r.table := by
  rw [← legIds_bareTable, h.frame.1, legIds_bareTable]

/-! ### Facts that last -/

/-- A dated leg is sent and names record (o, c). -/
def soundsOn (o : Output) (c : Chan) (x : Generation × Leg) : Bool :=
  x.2.sent && x.2.output = o && x.2.channel = c

theorem soundsOn_iff {o : Output} {c : Chan} {x : Generation × Leg} :
    soundsOn o c x = true ↔ x.2.sent = true ∧ x.2.output = o ∧ x.2.channel = c := by
  simp [soundsOn, and_assoc]

theorem soundsOn_unsent {x : Generation × Leg} (h : x.2.sent = false) (o : Output) (c : Chan) :
    soundsOn o c x = false := by
  simp [soundsOn, h]

/-- The fact `I` about record (o, c) and the dated legs of the table, at generation `current`, rests neither on what
the record holds and owes nor on the order of the legs, on unsent legs or on those of other records, and stays when the
record loses a leg. -/
structure Lasting (current : Generation) (o : Output) (c : Chan)
    (I : ChanRec → List (Generation × Leg) → Prop) : Prop where
  alike : ∀ {x y ls}, x.Alike y → I x ls → I y ls
  perm : ∀ {x ls ks}, ls.Perm ks → I x ls → I x ks
  drop : ∀ {x y ls}, soundsOn o c y = false → I x (y :: ls) → I x ls
  unsent : ∀ {x y ls}, y.2.sent = false → I x ls → I x (y :: ls)
  lose : ∀ {x y ls}, soundsOn o c y = true → I x (y :: ls) → I (x.lose current y.1) ls

section
variable {o : Output} {c : Chan} {I : ChanRec → List (Generation × Leg) → Prop}

/-- A fact that counts a leg lasts through the loss of the leg. -/
theorem Rig.Loses.lasting {m : Moment} (hI : Lasting m.generation o c I) {r t : Rig} {g : Generation} {l : Leg}
    (h : Rig.Loses m.generation g l r t) (hs : l.sent = true) {ls : List (Generation × Leg)}
    (k : I (r.chan o c) ((g, l) :: ls)) : I (t.chan o c) ls := by
  have hc := h.chan o c
  split at hc
  · rename_i hoc
    exact hI.alike hc (hI.lose (y := (g, l)) (soundsOn_iff.mpr ⟨hs, hoc.1.symm, hoc.2.symm⟩) k)
  · rename_i hoc
    refine hI.alike hc (hI.drop ?_ k)
    rw [← Bool.not_eq_true, soundsOn_iff]
    exact fun hx => hoc ⟨hx.2.1.symm, hx.2.2.symm⟩

/-- A fact lasts through discards, also while further legs `ghosts` that have left the table are still counted. -/
theorem Rig.Discards.lasting {m : Moment} (hI : Lasting m.generation o c I) {r t : Rig} (h : Rig.Discards m r t)
    (hn : (Machine.legIds r.table).Nodup) (ghosts : List (Generation × Leg))
    (k : I (r.chan o c) (ghosts ++ datedLegs r.table)) : I (t.chan o c) (ghosts ++ datedLegs t.table) := by
  induction h with
  | refl => exact k
  | @tail u v before step ih =>
    cases step with
    | quiet h =>
      rw [h.notes.1]
      exact hI.alike (h.chan o c) ih
    | @unsent g l found sent h =>
      have hnu : (Machine.legIds u.table).Nodup := by rw [Rig.Discards.legIds before]; exact hn
      obtain ⟨hx, -⟩ := findLeg_dated found
      have hfront := hI.perm (((datedLegs_perm hnu hx).append_left ghosts).trans List.perm_middle) ih
      have hlost := h.lasting hI sent hfront
      rw [h.notes.1, Rig.setTable_table]
      refine hI.perm ?_ (hI.unsent (y := (g, { l with sent := false })) rfl hlost)
      exact (((datedLegs_markLeg_perm hnu hx false).append_left ghosts).trans List.perm_middle).symm

/-- A fact lasts through the end of a leg. -/
theorem Rig.endLeg_lasting {m : Moment} (hI : Lasting m.generation o c I) {r : Rig} (id : Nat)
    (hn : (legIds r.table).Nodup) (k : I (r.chan o c) (datedLegs r.table)) :
    I ((r.endLeg m id).chan o c) (datedLegs (r.endLeg m id).table) := by
  obtain ⟨-, h⟩ | ⟨g, l, hf, ⟨hs, h⟩ | ⟨hs, -⟩⟩ := r.endLeg_cases m id
  · rwa [h]
  · obtain ⟨hx, rfl⟩ := findLeg_dated hf
    rw [h, Rig.chan_setTable, Rig.setTable_table, datedLegs_removeLeg]
    exact hI.drop (soundsOn_unsent hs o c) (hI.perm (datedLegs_perm hn hx) k)
  · obtain ⟨hx, rfl⟩ := findLeg_dated hf
    obtain ⟨a, ha, h⟩ := Rig.endLeg_loseLeg hf hs m
    have hfront : I ((r.setTable (removeLeg r.table l.id)).chan o c)
        ([(g, l)] ++ datedLegs (r.setTable (removeLeg r.table l.id)).table) := by
      rw [Rig.setTable_table, datedLegs_removeLeg]
      exact hI.perm (datedLegs_perm hn hx) k
    have hids : (legIds (removeLeg r.table l.id)).Nodup := by
      rw [← stamps_ids] at hn ⊢
      exact hn.sublist ((stamps_removeLeg _ _).map _)
    have hoff : Rig.Discards m (r.setTable (removeLeg r.table l.id)) a :=
      ha ▸ Offer.settled_discards m (Rig.offerNoteOff_quiet _ m _ _ _)
    have hlose := a.loseLeg_loses m g l
    have hlost := hlose.lasting hI hs (hoff.lasting hI hids [(g, l)] hfront)
    rw [h]
    refine (Rig.settleDiscard_discards discardFuel m _ _).lasting hI ?_ [] (by rw [hlose.notes.1]; exact hlost)
    rw [hlose.notes.1, hoff.legIds]
    exact hids

end

/-! ### Operations that lose legs -/

/-- From `r` to `t` legs are lost and none is gained: each fact about a record that the loss of legs keeps lasts. -/
structure Rig.Sheds (m : Moment) (r t : Rig) : Prop where
  lasts : (legIds r.table).Nodup → ∀ {o : Output} {c : Chan} {I : ChanRec → List (Generation × Leg) → Prop},
    Lasting m.generation o c I → I (r.chan o c) (datedLegs r.table) → I (t.chan o c) (datedLegs t.table)
  stamps : (stamps t.table).Sublist (stamps r.table)
  nextLeg : t.nextLeg = r.nextLeg
  enabled : ∀ o, (t.out o).enabled = (r.out o).enabled

theorem Rig.Sheds.refl (m : Moment) (r : Rig) : Rig.Sheds m r r := ⟨fun _ _ _ _ _ k => k, .refl _, rfl, fun _ => rfl⟩

theorem Rig.Sheds.nodup {m : Moment} {r t : Rig} (h : Rig.Sheds m r t) (hn : (legIds r.table).Nodup) :
    (legIds t.table).Nodup := by
  rw [← stamps_ids] at hn ⊢
  exact hn.sublist (h.stamps.map _)

theorem Rig.Sheds.trans {m : Moment} {r t u : Rig} (h : Rig.Sheds m r t) (k : Rig.Sheds m t u) : Rig.Sheds m r u :=
  ⟨fun hn _ _ _ hI hr => k.lasts (h.nodup hn) hI (h.lasts hn hI hr), k.stamps.trans h.stamps,
    k.nextLeg.trans h.nextLeg, fun o => (k.enabled o).trans (h.enabled o)⟩

theorem Rig.sheds_foldl {α : Type} {m : Moment} {f : Rig → α → Rig} (hf : ∀ (r : Rig) (a : α), Rig.Sheds m r (f r a))
    (l : List α) (r : Rig) : Rig.Sheds m r (l.foldl f r) := by
  induction l generalizing r with
  | nil => exact .refl m r
  | cons a l ih => exact (hf r a).trans (ih (f r a))

theorem Rig.Discards.sheds {m : Moment} {r t : Rig} (h : Rig.Discards m r t) : Rig.Sheds m r t := by
  obtain ⟨ht, hn, he⟩ := h.frame
  refine ⟨fun hd _ _ _ hI k => h.lasting hI hd [] k, ?_, hn, he⟩
  rw [← stamps_bareTable, ht, stamps_bareTable]

theorem Rig.Quiet.sheds {r t : Rig} (h : r.Quiet t) (m : Moment) : Rig.Sheds m r t := (h.discards m).sheds

theorem Rig.endLeg_enabled (r : Rig) (m : Moment) (id : Nat) (o : Output) :
    ((r.endLeg m id).out o).enabled = (r.out o).enabled := by
  obtain ⟨-, h⟩ | ⟨g, l, hf, ⟨-, h⟩ | ⟨hs, -⟩⟩ := r.endLeg_cases m id
  · rw [h]
  · rw [h, Rig.out_setTable]
  · obtain ⟨a, ha, h⟩ := Rig.endLeg_loseLeg hf hs m
    have hoff : Rig.Discards m (r.setTable (removeLeg r.table id)) a :=
      ha ▸ Offer.settled_discards m (Rig.offerNoteOff_quiet _ m _ _ _)
    rw [h, (Rig.settleDiscard_discards discardFuel m _ _).frame.2.2, (a.loseLeg_loses m g l).enabled, hoff.frame.2.2,
      Rig.out_setTable]

theorem Rig.endLeg_sheds (r : Rig) (m : Moment) (id : Nat) : Rig.Sheds m r (r.endLeg m id) :=
  ⟨fun hn _ _ _ hI k => Rig.endLeg_lasting hI id hn k, r.endLeg_stamps m id, (r.endLeg_pedals m id).2,
    r.endLeg_enabled m id⟩

theorem Rig.endLegs_sheds (r : Rig) (m : Moment) (ids : List Nat) : Rig.Sheds m r (r.endLegs m ids) :=
  Rig.sheds_foldl (fun r id => r.endLeg_sheds m id) ids r

/-! ### The ends of old legs (R70) -/

theorem Rig.endOldLeg_cases (r : Rig) (m : Moment) (o : Output) (c : Chan) (id : Nat) :
    r.endOldLeg m o c id = r ∨ ∃ x, findLeg r.table id = some x ∧ soundsOn o c x = true ∧
      (r.chan o c).isOld m.generation x.1 = true ∧ r.endOldLeg m o c id = r.endLeg m id := by
  unfold Rig.endOldLeg
  split
  · exact .inl rfl
  · rename_i g l hf
    split
    · rename_i h
      simp only [Bool.and_eq_true, decide_eq_true_eq] at h
      obtain ⟨⟨⟨hs, ho⟩, hc⟩, hold⟩ := h
      exact .inr ⟨(g, l), hf, soundsOn_iff.mpr ⟨hs, ho, hc⟩, hold, rfl⟩
    · exact .inl rfl

theorem Rig.endOldLegs_sheds (r : Rig) (m : Moment) (o : Output) (c : Chan) : Rig.Sheds m r (r.endOldLegs m o c) := by
  refine Rig.sheds_foldl (fun r id => ?_) _ r
  obtain h | ⟨-, -, -, -, h⟩ := r.endOldLeg_cases m o c id <;> rw [h]
  · exact .refl m r
  · exact r.endLeg_sheds m id

theorem Rig.markExpired_quiet (r : Rig) (o : Output) (c : Chan) : r.Quiet (r.markExpired o c) := r.setOut_quiet o rfl

/-- A spill expiry ends old legs one by one, and then at most marks a PROGRAM. -/
theorem Rig.expireSpill_quiet (r : Rig) (m : Moment) (o : Output) (c : Chan) :
    (r.endOldLegs m o c).Quiet (r.expireSpill m o c) := by
  obtain h | ⟨-, h⟩ := r.expireSpill_cases m o c <;> rw [h]
  · exact .refl _
  · exact Rig.markExpired_quiet _ o c

theorem Rig.expireSpill_sheds (r : Rig) (m : Moment) (o : Output) (c : Chan) :
    Rig.Sheds m r (r.expireSpill m o c) :=
  (r.endOldLegs_sheds m o c).trans ((r.expireSpill_quiet m o c).sheds m)

end Sys2Proof.Machine
end

section
/-! The counts of the records in step with the legs of the table: what each operation of the instrument side keeps of
them (R61, R64, R68, R79, R81 to R86). -/
namespace Sys2Proof.Machine

/-! ### A record in step -/

/-- A dated leg sounds on record (o, c) and is old for a program pending since generation `pending` (R61). -/
def oldOn (current : Generation) (o : Output) (c : Chan) (pending : Generation) (x : Generation × Leg) : Bool :=
  soundsOn o c x && decide (age current pending < age current x.1)

theorem oldOn_iff {current pending : Generation} {o : Output} {c : Chan} {x : Generation × Leg} :
    oldOn current o c pending x = true ↔ soundsOn o c x = true ∧ age current pending < age current x.1 := by
  simp [oldOn]

theorem oldOn_silent {o : Output} {c : Chan} {x : Generation × Leg} (h : soundsOn o c x = false)
    (current pending : Generation) : oldOn current o c pending x = false := by
  simp [oldOn, h]

/-- For a program pending since the present generation every sounding leg of another generation is old (R61, R84). -/
theorem countP_oldOn_of_earlier {current : Generation} {o : Output} {c : Chan} {ls : List (Generation × Leg)}
    (h : ∀ x ∈ ls, x.1 ≠ current) : ls.countP (oldOn current o c current) = ls.countP (soundsOn o c) := by
  refine List.countP_congr fun x hx => ?_
  have hage : age current current < age current x.1 := by
    have hne : current - x.1 ≠ 0 := fun hz => h x hx (sub_eq_zero.mp hz).symm
    simp only [age, sub_self]
    exact Nat.pos_of_ne_zero fun hz => hne (BitVec.eq_of_toNat_eq hz)
  rw [oldOn_iff]
  exact ⟨fun h => h.1, fun h => ⟨h, hage⟩⟩

/-- The counts of a record over dated legs: the sounding count is that of the sent legs, and, where `watch` holds, the
old-leg count agrees with the pending program (R61, R79). -/
structure ChanRec.InStep (watch : Prop) (current : Generation) (o : Output) (c : Chan) (x : ChanRec)
    (ls : List (Generation × Leg)) : Prop where
  sounding : x.sounding = ls.countP (soundsOn o c)
  idle : watch → x.pending = none → x.old = 0
  waiting : watch → ∀ p, x.pending = some p →
    0 < x.old ∧ x.old = ls.countP (oldOn current o c p.generation)

/-- Two records have the same counts and the same pending program. -/
def ChanRec.SameCounts (x y : ChanRec) : Prop := y.pending = x.pending ∧ y.sounding = x.sounding ∧ y.old = x.old

theorem ChanRec.SameCounts.refl (x : ChanRec) : x.SameCounts x := ⟨rfl, rfl, rfl⟩

theorem ChanRec.Alike.sameCounts {x y : ChanRec} (h : x.Alike y) : x.SameCounts y := by
  obtain ⟨held, owed, rfl⟩ := h
  exact ⟨rfl, rfl, rfl⟩

theorem ChanRec.InStep.congr {watch : Prop} {current : Generation} {o : Output} {c : Chan} {x y : ChanRec}
    {ls : List (Generation × Leg)} (k : x.InStep watch current o c ls) (h : x.SameCounts y) :
    y.InStep watch current o c ls := by
  obtain ⟨hp, hs, ho⟩ := h
  obtain ⟨sounding, idle, waiting⟩ := k
  exact ⟨hs.trans sounding, by rwa [hp, ho], by rwa [hp, ho]⟩

/-- Legs that do not sound on the record are not counted. -/
theorem ChanRec.inStep_cons_silent {watch : Prop} {current : Generation} {o : Output} {c : Chan} {x : ChanRec}
    {y : Generation × Leg} {ls : List (Generation × Leg)} (h : soundsOn o c y = false) :
    x.InStep watch current o c (y :: ls) ↔ x.InStep watch current o c ls := by
  have hs : (y :: ls).countP (soundsOn o c) = ls.countP (soundsOn o c) :=
    List.countP_cons_of_neg (by simp [h])
  have ho : ∀ g, (y :: ls).countP (oldOn current o c g) = ls.countP (oldOn current o c g) := fun g =>
    List.countP_cons_of_neg (by simp [oldOn_silent h])
  exact ⟨fun ⟨a, b, d⟩ => ⟨hs ▸ a, b, fun w p hp => ho p.generation ▸ d w p hp⟩,
    fun ⟨a, b, d⟩ => ⟨hs ▸ a, b, fun w p hp => ho p.generation ▸ d w p hp⟩⟩

/-- Counts stay in step when a leg is lost: the last old leg takes the pending program with it (R61, R68, R86). -/
theorem inStep_lasting (watch : Prop) (current : Generation) (o : Output) (c : Chan) :
    Lasting current o c fun x ls => x.InStep watch current o c ls := by
  refine ⟨fun h k => k.congr h.sameCounts, fun hp ⟨a, b, d⟩ => ⟨hp.countP_eq _ ▸ a, b, fun w p hx => hp.countP_eq _ ▸ d w p hx⟩,
    fun h => (ChanRec.inStep_cons_silent h).mp, fun h => (ChanRec.inStep_cons_silent (soundsOn_unsent h o c)).mpr, ?_⟩
  rintro x y ls hy ⟨sounding, idle, waiting⟩
  rw [List.countP_cons_of_pos hy] at sounding
  have hfall : x.sounding - 1 = ls.countP (soundsOn o c) := by omega
  cases hold : x.isOld current y.1
  · rw [ChanRec.lose_fresh hold]
    refine ⟨hfall, idle, fun w p hp => ?_⟩
    have hnew : ¬oldOn current o c p.generation y = true := fun h => by
      have hx : x.isOld current y.1 = true := ChanRec.isOld_iff.mpr ⟨p, hp, (oldOn_iff.mp h).2⟩
      rw [hx] at hold
      contradiction
    have := waiting w p hp
    rwa [List.countP_cons_of_neg hnew] at this
  · obtain ⟨p, hp, hage⟩ := ChanRec.isOld_iff.mp hold
    have waiting' : watch → 0 < x.old ∧ x.old = ls.countP (oldOn current o c p.generation) + 1 := fun w => by
      have := waiting w p hp
      rwa [List.countP_cons_of_pos (oldOn_iff.mpr ⟨hy, hage⟩)] at this
    rw [ChanRec.lose_old hp hage]
    split
    · rename_i hlast
      exact ⟨hfall, fun w _ => by have := waiting' w; dsimp only; omega, fun w q hq => nomatch hq⟩
    · rename_i hmore
      refine ⟨hfall, fun w hn => (nomatch hp.symm.trans hn), fun w q hq => ?_⟩
      obtain rfl : p = q := Option.some.inj (hp.symm.trans hq)
      have := waiting' w
      exact ⟨by dsimp only; omega, by dsimp only; omega⟩

/-- A new leg of the present generation sounds on its record: it is counted, and is not old (R61, R64). -/
theorem ChanRec.InStep.sound {watch : Prop} {current : Generation} {o : Output} {c : Chan} {x : ChanRec}
    {l : Leg} {ls : List (Generation × Leg)} (k : x.InStep watch current o c ls)
    (h : soundsOn o c (current, l) = true) :
    { x with sounding := x.sounding + 1 }.InStep watch current o c ((current, l) :: ls) := by
  obtain ⟨sounding, idle, waiting⟩ := k
  refine ⟨?_, idle, fun w p hp => ?_⟩
  · rw [List.countP_cons_of_pos h, ← sounding]
  · have hnew : ¬oldOn current o c p.generation (current, l) = true := fun h => by
      have := (oldOn_iff.mp h).2
      simp [age] at this
    rw [List.countP_cons_of_neg hnew]
    exact waiting w p hp

/-! ### Every record in step -/

/-- The counts of every record are in step with the table, and every leg has a number of its own below the next. -/
structure Rig.InStep (watch : Prop) (current : Generation) (r : Rig) : Prop where
  records : ∀ o c, (r.chan o c).InStep watch current o c (datedLegs r.table)
  ids : (legIds r.table).Nodup
  fresh : ∀ id ∈ legIds r.table, id < r.nextLeg

theorem allLegs_ids (r : Rig) : (allLegs r).map (fun l => l.id) = legIds r.table := List.map_flatMap

theorem sentLegs_eq (r : Rig) (o : Output) (c : Chan) :
    sentLegs r o c = (datedLegs r.table).countP (soundsOn o c) := by
  rw [sentLegs, allLegs, ← datedLegs_legs, ← List.countP_eq_length_filter, List.countP_map]
  rfl

theorem sentOldLegs_eq {s : State} {o : Output} {c : Chan} {p : Pending} (hp : (s.rig.chan o c).pending = some p) :
    sentOldLegs s o c = (datedLegs s.rig.table).countP (oldOn s.scene.generation o c p.generation) := by
  have hold : ∀ g, (s.rig.chan o c).isOld s.scene.generation g =
      decide (age s.scene.generation p.generation < age s.scene.generation g) := fun g => by
    rw [ChanRec.isOld, hp]
  simp only [sentOldLegs, hold, datedLegs]
  induction s.rig.table with
  | nil => rfl
  | cons e es ih =>
    rw [List.flatMap_cons, List.countP_append, ← ih, List.countP_map, List.countP_eq_length_filter]
    by_cases he : age s.scene.generation p.generation < age s.scene.generation e.generation
    · rw [List.filter_cons_of_pos (by simpa using he), List.flatMap_cons, List.length_append]
      congr 2
      refine List.filter_congr fun l _ => ?_
      simp [oldOn, soundsOn, he]
    · have hnone : e.legs.filter (oldOn s.scene.generation o c p.generation ∘ fun l => (e.generation, l)) = [] :=
        List.filter_eq_nil_iff.mpr fun l _ => by simp [oldOn, he]
      rw [List.filter_cons_of_neg (by simpa using he), hnone, List.length_nil, Nat.zero_add]

theorem countsInStep_iff (s : State) : countsInStep s ↔ s.rig.InStep False s.scene.generation := by
  unfold countsInStep
  rw [allLegs_ids]
  have hlegs : (∀ l ∈ allLegs s.rig, l.id < s.rig.nextLeg) ↔ ∀ id ∈ legIds s.rig.table, id < s.rig.nextLeg := by
    rw [← allLegs_ids, List.forall_mem_map]
  rw [hlegs]
  constructor
  · rintro ⟨hc, hn, hf⟩
    exact ⟨fun o c => ⟨(hc o c).trans (sentLegs_eq _ o c), nofun, nofun⟩, hn, hf⟩
  · rintro ⟨hc, hn, hf⟩
    exact ⟨fun o c => (hc o c).sounding.trans (sentLegs_eq _ o c).symm, hn, hf⟩

theorem inStep_iff (s : State) : s.rig.InStep True s.scene.generation ↔ countsInStep s ∧ oldInStep s := by
  rw [countsInStep_iff]
  constructor
  · rintro ⟨hc, hn, hf⟩
    refine ⟨⟨fun o c => ⟨(hc o c).sounding, nofun, nofun⟩, hn, hf⟩, fun o c => ⟨(hc o c).idle trivial, fun hne => ?_⟩⟩
    obtain ⟨p, hp⟩ := Option.ne_none_iff_exists'.mp hne
    obtain ⟨hpos, hold⟩ := (hc o c).waiting trivial p hp
    exact ⟨hpos, hold.trans (sentOldLegs_eq hp).symm⟩
  · rintro ⟨⟨hc, hn, hf⟩, ho⟩
    refine ⟨fun o c => ⟨(hc o c).sounding, fun _ => (ho o c).1, fun _ p hp => ?_⟩, hn, hf⟩
    obtain ⟨hpos, hold⟩ := (ho o c).2 (by simp [hp])
    exact ⟨hpos, hold.trans (sentOldLegs_eq hp)⟩

/-- No old-leg count is above its sounding count (R61). -/
theorem Rig.InStep.old_le {current : Generation} {r : Rig} (k : r.InStep True current) (o : Output) (c : Chan) :
    (r.chan o c).old ≤ (r.chan o c).sounding := by
  obtain ⟨sounding, idle, waiting⟩ := k.records o c
  cases hp : (r.chan o c).pending with
  | none =>
    rw [idle trivial hp]
    exact Nat.zero_le _
  | some p =>
    rw [(waiting trivial p hp).2, sounding]
    exact List.countP_mono_left fun y _ h => (oldOn_iff.mp h).1

section
variable {watch : Prop} {current : Generation} {r t : Rig}

theorem Rig.InStep.congr (k : r.InStep watch current) (hl : datedLegs t.table = datedLegs r.table)
    (hn : t.nextLeg = r.nextLeg) (hc : ∀ o c, (r.chan o c).SameCounts (t.chan o c)) : t.InStep watch current := by
  obtain ⟨records, ids, fresh⟩ := k
  refine ⟨fun o c => hl ▸ (records o c).congr (hc o c), ?_, ?_⟩
  · rwa [← datedLegs_ids, hl, datedLegs_ids]
  · rwa [← datedLegs_ids, hl, datedLegs_ids, hn]

/-- An empty table is in step with records that count nothing. -/
theorem Rig.InStep.of_empty (ht : t.table = [])
    (hc : ∀ o c, (t.chan o c).sounding = 0 ∧ (t.chan o c).old = 0 ∧ (t.chan o c).pending = none) :
    t.InStep watch current := by
  refine ⟨fun o c => ?_, by simp [ht, legIds], by simp [ht, legIds]⟩
  obtain ⟨hs, ho, hp⟩ := hc o c
  exact ⟨by simp [ht, datedLegs, hs], fun _ _ => ho, fun _ p hx => nomatch hp.symm.trans hx⟩

theorem Rig.Sheds.inStep {m : Moment} (h : Rig.Sheds m r t) (k : r.InStep watch m.generation) :
    t.InStep watch m.generation := by
  refine ⟨fun o c => h.lasts k.ids (inStep_lasting watch m.generation o c) (k.records o c), h.nodup k.ids, fun id hid => ?_⟩
  rw [h.nextLeg]
  rw [← stamps_ids] at hid
  exact k.fresh id (by rw [← stamps_ids]; exact (h.stamps.map Prod.snd).subset hid)

theorem Rig.InStep.setOut (k : r.InStep watch current) (o : Output) (x : OutPort) :
    (r.setOut o x).InStep watch current := k.congr rfl rfl fun _ _ => .refl _

theorem Rig.InStep.setDesk (k : r.InStep watch current) (d : Desk) : (r.setDesk d).InStep watch current :=
  k.congr rfl rfl fun _ _ => .refl _

theorem Rig.InStep.setChan (k : r.InStep watch current) (o : Output) (c : Chan) {x : ChanRec}
    (hx : x.InStep watch current o c (datedLegs r.table)) : (r.setChan o c x).InStep watch current := by
  refine ⟨fun q d => ?_, k.ids, k.fresh⟩
  rw [Rig.chan_setChan]
  split
  · rename_i h
    rw [h.1, h.2]
    exact hx
  · exact k.records q d

theorem Rig.InStep.foldl {α : Type} {f : Rig → α → Rig}
    (hf : ∀ (r : Rig) (a : α), r.InStep watch current → (f r a).InStep watch current) (l : List α)
    (k : r.InStep watch current) : (l.foldl f r).InStep watch current := by
  induction l generalizing r with
  | nil => exact k
  | cons a l ih => exact ih (hf r a k)

end

/-! ### Enables, bulk events and levels (R37 to R39) -/

section
variable {watch : Prop} {m : Moment} {r : Rig} (k : r.InStep watch m.generation)
include k

theorem Rig.InStep.disable (o : Output) : (r.disable o).InStep watch m.generation := by
  refine Rig.InStep.foldl (fun r e k => ?_) _ (k.setOut o _)
  unfold Rig.holdPurged
  split
  · split
    · exact k
    · exact (Rig.setChan_quiet r o _ ⟨some _, _, rfl⟩).sheds m |>.inStep k
  · exact k

theorem Rig.InStep.enableMask (mask : BitVec 6) : (r.enableMask m mask).InStep watch m.generation := by
  refine Rig.InStep.foldl (fun r o k => ?_) _ k
  unfold Rig.setEnable
  split
  · exact k
  · split
    · exact (Rig.settle_discards _ m o).sheds.inStep (k.setOut o _)
    · exact k.disable o

theorem Rig.InStep.offerBulk (o : Output) (kind : ContinuousKind) (c : Chan) (v : Fourteen) :
    (r.offerBulk m o kind c v).InStep watch m.generation := by
  have start : ∀ x, ((r.setOut o x).startLine m o).InStep watch m.generation := fun x =>
    ((Rig.startLine_quiet _ m o).sheds m).inStep (k.setOut o x)
  unfold Rig.offerBulk
  dsimp only
  split
  · split
    · exact (k.setOut o _).setDesk _
    · split
      · exact (k.setOut o _).setDesk _
      · split
        · exact start _
        · exact ((Rig.startLine_quiet _ m o).sheds m).inStep ((k.setOut o _).setDesk _)
  · exact k

/-! ### New notes (R62 to R64) -/

omit k in
/-- A leg that becomes sent: its table mark and its record. -/
theorem Rig.markSent_spec (r : Rig) (l : Leg) :
    (r.markSent l).table = markLeg r.table l.id true ∧ (r.markSent l).nextLeg = r.nextLeg ∧
      ∀ o c, (r.markSent l).chan o c = if o = l.output ∧ c = l.channel then
        { r.chan o c with sounding := (r.chan o c).sounding + 1 } else r.chan o c := by
  have h : ∀ o c, (((r.setTable (markLeg r.table l.id true)).setChan l.output l.channel
      { r.chan l.output l.channel with sounding := (r.chan l.output l.channel).sounding + 1 }).chan o c) =
      if o = l.output ∧ c = l.channel then
        { r.chan o c with sounding := (r.chan o c).sounding + 1 } else r.chan o c := fun o c => by
    rw [Rig.chan_setChan]
    split
    · rename_i hoc
      rw [hoc.1, hoc.2]
    · rfl
  unfold Rig.markSent
  dsimp only
  split <;> exact ⟨rfl, rfl, h⟩

theorem Rig.InStep.markSent {l : Leg} (hl : (m.generation, l) ∈ datedLegs r.table) (hs : l.sent = false) :
    (r.markSent l).InStep watch m.generation := by
  obtain ⟨ht, hn, hc⟩ := r.markSent_spec l
  have hids : legIds (markLeg r.table l.id true) = legIds r.table := by
    rw [← legIds_bareTable, bareTable_markLeg, legIds_bareTable]
  refine ⟨fun o c => ?_, by rw [ht, hids]; exact k.ids, by rw [ht, hids, hn]; exact k.fresh⟩
  have hI := inStep_lasting watch m.generation o c
  have hrest := hI.drop (soundsOn_unsent (x := (m.generation, l)) hs o c)
    (hI.perm (datedLegs_perm k.ids hl) (k.records o c))
  rw [ht, hc]
  refine hI.perm (datedLegs_markLeg_perm k.ids hl true).symm ?_
  split
  · rename_i hoc
    exact hrest.sound (soundsOn_iff.mpr ⟨rfl, hoc.1.symm, hoc.2.symm⟩)
  · rename_i hoc
    refine (ChanRec.inStep_cons_silent ?_).mpr hrest
    rw [← Bool.not_eq_true, soundsOn_iff]
    exact fun hx => hoc ⟨hx.2.1.symm, hx.2.2.symm⟩

omit k in
/-- An unsent leg stays as it is when other legs become unsent. -/
theorem Rig.Discards.mem_unsent {t : Rig} (h : Rig.Discards m r t) {x : Generation × Leg} (hs : x.2.sent = false)
    (hx : x ∈ datedLegs r.table) : x ∈ datedLegs t.table := by
  induction h with
  | refl => exact hx
  | tail _ step ih =>
    cases step with
    | quiet h =>
      rw [h.notes.1]
      exact ih
    | unsent found sent h =>
      rw [h.notes.1, Rig.setTable_table, datedLegs_markLeg]
      refine List.mem_map.mpr ⟨x, ih, ?_⟩
      split
      · rw [← hs]
      · rfl

theorem Rig.InStep.soundLeg {l : Leg} (hl : (m.generation, l) ∈ datedLegs r.table) (hs : l.sent = false) :
    (r.soundLeg m l).InStep watch m.generation ∧
      ∀ x ∈ datedLegs r.table, x.2.sent = false → x.2.id ≠ l.id → x ∈ datedLegs (r.soundLeg m l).table := by
  have hoff := r.offerNoteOn_quiet m l.output l.channel l.key l.velocity l.id
  have ht := hoff.notes.1
  unfold Rig.soundLeg
  dsimp only
  generalize r.offerNoteOn m l.output l.channel l.key l.velocity l.id = off at hoff ht
  have ka := (hoff.sheds m).inStep k
  split
  · have kb := ka.markSent (ht ▸ hl) hs
    have hd := Rig.settleDiscard_discards discardFuel m off.discarded (off.rig.markSent l)
    refine ⟨hd.sheds.inStep kb, fun x hx hxs hne => hd.mem_unsent hxs ?_⟩
    rw [(off.rig.markSent_spec l).1, datedLegs_markLeg, ht]
    exact List.mem_map.mpr ⟨x, hx, if_neg hne⟩
  · exact ⟨ka, fun x hx _ _ => ht ▸ hx⟩

theorem Rig.InStep.soundLegs {ls : List Leg} (hn : (ls.map fun l => l.id).Nodup)
    (hl : ∀ l ∈ ls, (m.generation, l) ∈ datedLegs r.table ∧ l.sent = false) :
    (ls.foldl (fun r l => r.soundLeg m l) r).InStep watch m.generation := by
  induction ls generalizing r with
  | nil => exact k
  | cons l ls ih =>
    rw [List.map_cons, List.nodup_cons] at hn
    obtain ⟨hmem, hs⟩ := hl l List.mem_cons_self
    obtain ⟨kl, hrest⟩ := k.soundLeg hmem hs
    refine ih kl hn.2 fun x hx => ?_
    obtain ⟨hxm, hxs⟩ := hl x (List.mem_cons_of_mem _ hx)
    exact ⟨hrest _ hxm hxs fun he => hn.1 (List.mem_map.mpr ⟨x, hx, he⟩), hxs⟩

omit k in
theorem numberLegs_ids (first : Nat) (plans : List LegPlan) :
    (numberLegs first plans).map (fun l => l.id) = List.range' first plans.length := by
  induction plans generalizing first with
  | nil => rfl
  | cons p ps ih => rw [numberLegs, List.map_cons, ih, List.length_cons, List.range'_succ]

omit k in
theorem numberLegs_unsent {first : Nat} {plans : List LegPlan} {l : Leg} (h : l ∈ numberLegs first plans) :
    l.sent = false := by
  induction plans generalizing first with
  | nil => exact absurd h List.not_mem_nil
  | cons p ps ih =>
    rcases List.mem_cons.mp h with rfl | h
    · rfl
    · exact ih h

/-- A new entry of unsent legs with new numbers. -/
theorem Rig.InStep.newEntry (n : Input) (c : Chan) (key : Seven) (plans : List LegPlan) :
    Rig.InStep watch m.generation { r with
      table := r.table ++ [⟨n, c, key, false, m.generation, numberLegs r.nextLeg plans⟩]
      nextLeg := r.nextLeg + plans.length } := by
  have hnew : datedLegs [⟨n, c, key, false, m.generation, numberLegs r.nextLeg plans⟩] =
      (numberLegs r.nextLeg plans).map fun l => (m.generation, l) := List.flatMap_singleton _ _
  have hids : legIds (r.table ++ [⟨n, c, key, false, m.generation, numberLegs r.nextLeg plans⟩]) =
      legIds r.table ++ List.range' r.nextLeg plans.length := by
    rw [legIds, List.flatMap_append, List.flatMap_singleton, numberLegs_ids]
    rfl
  have hunsent : ∀ (ks ls : List (Generation × Leg)) (o : Output) (d : Chan) (x : ChanRec),
      (∀ y ∈ ks, y.2.sent = false) → x.InStep watch m.generation o d ls → x.InStep watch m.generation o d (ks ++ ls) := by
    intro ks ls o d x hks hx
    induction ks with
    | nil => exact hx
    | cons y ks ih =>
      exact (inStep_lasting watch m.generation o d).unsent (hks y List.mem_cons_self)
        (ih fun z hz => hks z (List.mem_cons_of_mem _ hz))
  refine ⟨fun o d => ?_, ?_, fun id hid => ?_⟩
  · rw [datedLegs_append, hnew]
    refine (inStep_lasting watch m.generation o d).perm List.perm_append_comm (hunsent _ _ o d _ (fun y hy => ?_) (k.records o d))
    obtain ⟨l, hl, rfl⟩ := List.mem_map.mp hy
    exact numberLegs_unsent hl
  · rw [hids, List.nodup_append]
    refine ⟨k.ids, List.nodup_range', fun a ha b hb => ?_⟩
    have := k.fresh a ha
    have := (List.mem_range'_1.mp hb).1
    omega
  · rw [hids, List.mem_append, List.mem_range'_1] at hid
    dsimp only
    rcases hid with h | h
    · have := k.fresh id h
      omega
    · omega

theorem Rig.InStep.create (n : Input) (c : Chan) (key : Seven) (plans : List LegPlan) :
    (r.create m n c key plans).InStep watch m.generation := by
  refine (k.newEntry n c key plans).soundLegs ?_ fun l hl => ⟨?_, numberLegs_unsent hl⟩
  · rw [numberLegs_ids]
    exact List.nodup_range'
  · rw [datedLegs_append]
    exact List.mem_append_right _ (mem_datedLegs.mpr ⟨_, List.mem_singleton_self _, hl, rfl⟩)

theorem Rig.InStep.endLegs (ids : List Nat) : (r.endLegs m ids).InStep watch m.generation :=
  (r.endLegs_sheds m ids).inStep k

theorem Rig.InStep.strike (n : Input) (c : Chan) (key : Seven) (plans : List LegPlan) :
    (r.strike m n c key plans).InStep watch m.generation := by
  unfold Rig.strike
  split
  · exact (k.endLegs _).create n c key plans
  · split
    · exact k.create n c key plans
    · split
      · exact (k.endLegs _).create n c key plans
      · exact k.setDesk _

theorem Rig.InStep.routeLegs (n : Input) (c : Chan) (key : Seven) (plans : List LegPlan) :
    (r.routeLegs m n c key plans).InStep watch m.generation := by
  unfold Rig.routeLegs
  split
  · exact k
  · exact (k.setDesk _).strike n c key _

omit k in
theorem datedLegs_sustainEntry (es : List Entry) (n : Input) (c : Chan) (key : Seven) :
    datedLegs (sustainEntry es n c key) = datedLegs es := by
  rw [datedLegs, sustainEntry, List.flatMap_map]
  refine List.flatMap_congr fun e _ => ?_
  split <;> rfl

theorem Rig.InStep.liftKey (n : Input) (c : Chan) (key : Seven) :
    (r.liftKey m n c key).InStep watch m.generation := by
  unfold Rig.liftKey
  split
  · exact k
  · split
    · exact k
    · split
      · exact k.congr (datedLegs_sustainEntry _ n c key) rfl fun _ _ => .refl _
      · exact k.endLegs _

theorem Rig.InStep.movePedal (n : Input) (c : Chan) (v : Seven) :
    (r.movePedal m n c v).InStep watch m.generation := by
  have pedal : ∀ x, (r.setPedal n c x).InStep watch m.generation := fun x => k.congr rfl rfl fun _ _ => .refl _
  unfold Rig.movePedal
  split
  · exact pedal _
  · split
    · exact (pedal _).endLegs _
    · exact k

/-! ### Program settings (R81 to R84) -/

theorem Rig.InStep.sendProgram (o : Output) (c : Chan) (p : Program) :
    (r.sendProgram m o c p).InStep watch m.generation := by
  have hoff := ((r.offerProgram_quiet m o c p).sheds m).inStep k
  refine (Rig.settleDiscard_discards discardFuel m _ _).sheds.inStep (hoff.setChan o c ?_)
  exact (hoff.records o c).congr ⟨rfl, rfl, rfl⟩

/-- After a flip no program is pending on the record (R83). -/
theorem Rig.InStep.flip (o : Output) (c alternate : Chan) (p : Program) :
    (r.flip m o c alternate p).InStep watch m.generation := by
  have hsend := k.sendProgram o alternate p
  refine hsend.setChan o c ?_
  obtain ⟨sounding, idle, -⟩ := hsend.records o c
  refine ⟨sounding, fun w _ => ?_, fun _ q hq => nomatch hq⟩
  dsimp only
  split
  · rfl
  · rename_i hp
    exact idle w (by simpa using hp)

/-- A program that comes to be pending waits for every leg now sounding, when none is of its generation (R84). -/
theorem Rig.InStep.leavePending (hnone : ∀ x ∈ stamps r.table, x.1 ≠ m.generation) (limit : Nat) (o : Output) (c : Chan)
    (p : Program) (hs : (r.chan o c).sounding ≠ 0) : (r.leavePending m limit o c p).InStep watch m.generation := by
  have hset : (r.setChan o c { r.chan o c with
      pending := some ⟨p, m.generation, after m.now (limit * 1000)⟩
      old := (r.chan o c).sounding }).InStep watch m.generation := by
    refine k.setChan o c ?_
    obtain ⟨sounding, -, -⟩ := k.records o c
    refine ⟨sounding, fun _ h => (nomatch h), fun _ q hq => ⟨Nat.pos_of_ne_zero hs, sounding.trans ?_⟩⟩
    obtain rfl := Option.some.inj hq
    exact (countP_oldOn_of_earlier fun x hx => hnone (x.1, x.2.id) (List.mem_map.mpr ⟨x, hx, rfl⟩)).symm
  unfold Rig.leavePending
  dsimp only
  split
  · exact (Rig.expireSpill_sheds _ m o c).inStep hset
  · exact hset

omit k in
theorem Rig.applySetting_stamps (r : Rig) (m : Moment) (limit : Nat) (t : Setting) :
    (stamps (r.applySetting m limit t).table).Sublist (stamps r.table) := by
  obtain ⟨-, -, h⟩ | ⟨-, h⟩ | ⟨a, -, -, -, h⟩ | ⟨-, -, h⟩ := r.applySetting_cases m limit t <;> rw [h]
  · rw [(r.sendProgram_works m _ _ _).stamps]
  · exact (r.sendProgram_works m t.output a t.program).stamps ▸ List.Sublist.refl _
  · unfold Rig.leavePending
    dsimp only
    split
    · exact (Rig.expireSpill_sheds _ m _ _).stamps
    · exact .refl _

/-- A program setting keeps the counts in step, when no leg is of the new generation. -/
theorem Rig.InStep.applySetting (hnone : ∀ x ∈ stamps r.table, x.1 ≠ m.generation) (limit : Nat) (t : Setting) :
    (r.applySetting m limit t).InStep watch m.generation := by
  obtain ⟨-, -, h⟩ | ⟨-, h⟩ | ⟨a, -, -, -, h⟩ | ⟨hs, -, h⟩ := r.applySetting_cases m limit t <;> rw [h]
  · exact k
  · exact k.sendProgram _ _ _
  · exact k.flip _ _ _ _
  · exact k.leavePending hnone limit _ _ _ hs

theorem Rig.InStep.applySettings (hnone : ∀ x ∈ stamps r.table, x.1 ≠ m.generation) (limit : Nat) (ts : List Setting) :
    (r.applySettings m limit ts).InStep watch m.generation := by
  have hstart : (r.mapRecords fun x => x.dropRedirect m.generation).InStep watch m.generation := by
    refine k.congr rfl rfl fun o c => ?_
    rw [Rig.chan_mapRecords, ChanRec.dropRedirect]
    split
    · split <;> exact ⟨rfl, rfl, rfl⟩
    · exact .refl _
  have fold : ∀ (ts : List Setting) (r : Rig), (∀ x ∈ stamps r.table, x.1 ≠ m.generation) →
      r.InStep watch m.generation → (ts.foldl (fun r t => r.applySetting m limit t) r).InStep watch m.generation := by
    intro ts
    induction ts with
    | nil => exact fun r _ k => k
    | cons t ts ih =>
      exact fun r hn k => ih _ (fun x hx => hn x ((r.applySetting_stamps m limit t).subset hx)) (k.applySetting hn limit t)
  exact fold ts _ hnone hstart

end

end Sys2Proof.Machine
end

section
/-! The counts stay in step through every act, and so through every step (O8): the take with its generation, the panic,
RESTART, leaving SHOW and the resets (R61, R72, R74, R76, R92, R109). -/
namespace Sys2Proof.Machine

/-! ### The take (R72, R109) -/

/-- A change of the desk alone. -/
theorem SameBut.rig_setDesk {l : List Block} {s t : State} (h : SameBut l s t) (ho : Block.outputs ∉ l)
    (hr : Block.records ∉ l) (ht : Block.table ∉ l) (hp : Block.pedals ∉ l) (hn : Block.legs ∉ l) :
    t.rig = s.rig.setDesk t.desk := by
  have h1 : t.rig.outputs = s.rig.outputs := h .outputs ho
  have h2 : t.rig.records = s.rig.records := h .records hr
  have h3 : t.rig.table = s.rig.table := h .table ht
  have h4 : t.rig.pedals = s.rig.pedals := h .pedals hp
  have h5 : t.rig.nextLeg = s.rig.nextLeg := h .legs hn
  rw [Rig.setDesk, ← h1, ← h2, ← h3, ← h4, ← h5]
  rfl

/-- The entries of the generation that a take to come will have are ended. -/
def horizonRig (s : State) : Rig :=
  s.rig.endLegs s.moment (legIds (s.rig.table.filter fun e => e.generation = s.scene.generation + 1))

/-- The moment of a take, at the generation that it begins. -/
def State.takeMoment (s : State) : Moment := ⟨s.time, s.scene.generation + 1⟩

theorem takenRig_eq (s : State) (c : Change) :
    takenRig s c = (horizonRig s).applySettings s.takeMoment s.mem.header.spillLimit c.copy.settings := rfl

/-- A take leaves the instrument side that its settings leave, and reports. -/
theorem State.take_rig (s : State) (c : Change) : (s.take c).rig = (takenRig s c).setDesk (s.take c).desk := by
  have hreport : ∀ (u : State) (b : Bool), (u.takeReport c b).rig = u.rig.setDesk (u.takeReport c b).desk :=
    fun u b => (u.takeReport_sameBut c b).rig_setDesk (by decide) (by decide) (by decide) (by decide) (by decide)
  unfold State.take
  dsimp only
  rw [hreport]
  rfl

theorem legIds_of_stamps {es : List Entry} {x : Generation × Nat} (h : x ∈ stamps es) : x.2 ∈ legIds es := by
  rw [← stamps_ids]
  exact List.mem_map.mpr ⟨x, h, rfl⟩

/-- A leg that has ended is gone. -/
theorem Rig.endLeg_absent (r : Rig) (m : Moment) (id : Nat) : id ∉ legIds (r.endLeg m id).table := by
  obtain ⟨hf, h⟩ | ⟨g, l, hf, -⟩ := r.endLeg_cases m id
  · rw [h]
    intro hid
    obtain ⟨e, he, hle⟩ := List.mem_flatMap.mp hid
    obtain ⟨l, hl, hli⟩ := List.mem_map.mp hle
    exact findLeg_none_iff.mp hf e he l hl hli
  · rw [← stamps_ids, (Rig.endLeg_works m (by simp [hf])).stamps, stamps_ids, Rig.setTable_table, ← datedLegs_ids,
      datedLegs_removeLeg]
    intro hid
    obtain ⟨x, hx, hxi⟩ := List.mem_map.mp hid
    simpa [hxi] using (List.mem_filter.mp hx).2

theorem Rig.endLegs_absent (m : Moment) {ids : List Nat} {id : Nat} (h : id ∈ ids) (r : Rig) :
    id ∉ legIds (r.endLegs m ids).table := by
  induction ids generalizing r with
  | nil => exact absurd h List.not_mem_nil
  | cons i ids ih =>
    by_cases hid : id ∈ ids
    · exact ih hid _
    · obtain rfl := (List.mem_cons.mp h).resolve_right hid
      intro hmem
      refine r.endLeg_absent m id ?_
      rw [← stamps_ids] at hmem ⊢
      exact (((r.endLeg m id).endLegs_sheds m ids).stamps.map _).subset hmem

/-- No leg of the generation of the horizon is left. -/
theorem horizonRig_stamps (s : State) : ∀ x ∈ stamps (horizonRig s).table, x.1 ≠ s.scene.generation + 1 := by
  intro x hx hg
  have hs := (s.rig.endLegs_sheds s.moment
    (legIds (s.rig.table.filter fun e => e.generation = s.scene.generation + 1))).stamps.subset hx
  obtain ⟨y, hy, rfl⟩ := List.mem_map.mp hs
  obtain ⟨e, he, hl, heg⟩ := mem_datedLegs.mp hy
  refine Rig.endLegs_absent s.moment ?_ s.rig (legIds_of_stamps hx)
  exact List.mem_flatMap.mpr ⟨e, List.mem_filter.mpr ⟨he, by simpa [heg] using hg⟩, List.mem_map.mpr ⟨y.2, hl, rfl⟩⟩

/-- The generation rises: ages rise alike, but for that of the new generation (R61). -/
theorem age_succ {current g : Generation} (h : g ≠ current + 1) : age (current + 1) g = age current g + 1 := by
  unfold age
  bv_omega

theorem age_succ_self (current : Generation) : age current (current + 1) = 65535 := by
  unfold age
  bv_omega

/-- Counts that are in step stay so when the generation rises, where no leg is of the new one: what is pending is not of
it either, as an older leg waits for it (R61, R72). -/
theorem ChanRec.InStep.advance {watch : Prop} {current : Generation} {o : Output} {c : Chan} {x : ChanRec}
    {ls : List (Generation × Leg)} (k : x.InStep watch current o c ls) (hnone : ∀ y ∈ ls, y.1 ≠ current + 1) :
    x.InStep watch (current + 1) o c ls := by
  obtain ⟨sounding, idle, waiting⟩ := k
  refine ⟨sounding, idle, fun w p hp => ?_⟩
  obtain ⟨hpos, hold⟩ := waiting w p hp
  have hpending : p.generation ≠ current + 1 := by
    intro hg
    obtain ⟨y, -, hy⟩ := List.countP_pos_iff.mp (hold ▸ hpos)
    have hage := (oldOn_iff.mp hy).2
    rw [hg, age_succ_self] at hage
    have : age current y.1 < 65536 := (current - y.1).isLt
    omega
  refine ⟨hpos, hold.trans (List.countP_congr fun y hy => ?_)⟩
  rw [oldOn_iff, oldOn_iff, age_succ hpending, age_succ (hnone y hy), Nat.add_lt_add_iff_right]

/-- The counts stay in step through a take. -/
theorem State.take_inStep {watch : Prop} {s : State} (k : s.rig.InStep watch s.scene.generation) (c : Change) :
    (s.take c).rig.InStep watch (s.scene.generation + 1) := by
  have hhorizon : (horizonRig s).InStep watch s.scene.generation := Rig.InStep.endLegs (m := s.moment) k _
  have hnone := horizonRig_stamps s
  have hrisen : (horizonRig s).InStep watch s.takeMoment.generation :=
    ⟨fun o d => (hhorizon.records o d).advance fun y hy => hnone _ (List.mem_map.mpr ⟨y, hy, rfl⟩),
      hhorizon.ids, hhorizon.fresh⟩
  rw [State.take_rig, takenRig_eq]
  exact (hrisen.applySettings hnone _ _).setDesk _

/-! ### Acts -/

theorem RigAct.inStep {watch : Prop} {s : State} {r : Rig} (h : RigAct s r)
    (k : s.rig.InStep watch s.moment.generation) : r.InStep watch s.moment.generation := by
  cases h with
  | line o => exact (s.rig.completeLine_discards s.moment o).sheds.inStep k
  | spill o c => exact (s.rig.expireSpill_sheds s.moment o c).inStep k
  | enable mask => exact k.enableMask mask
  | level o n _ => exact k.setOut o _
  | panic cause =>
    obtain ⟨ht, -, -, -, hc, -⟩ := s.rig.panic_spec s.moment cause
    refine .of_empty ht fun o c => ?_
    rw [hc, panickedRec, ChanRec.panicCurrent]
    split
    · exact ⟨rfl, rfl, by assumption⟩
    · exact ⟨rfl, rfl, rfl⟩
  | bulk o kind c v => exact k.offerBulk o kind c v
  | note n c key plans _ _ => exact k.routeLegs n c key plans
  | lift n c key _ => exact k.liftKey n c key
  | pedal n c v _ => exact k.movePedal n c v

theorem Act.inStep {watch : Prop} {s t : State} (h : Act s t) (k : s.rig.InStep watch s.scene.generation) :
    t.rig.InStep watch t.scene.generation := by
  cases h with
  | aside h =>
    have hs : t.scene = s.scene := h .scene (by decide)
    have ht : t.rig.table = s.rig.table := h .table (by decide)
    have hn : t.rig.nextLeg = s.rig.nextLeg := h .legs (by decide)
    have hc : t.rig.records = s.rig.records := h .records (by decide)
    rw [hs]
    refine k.congr (by rw [ht]) hn fun o c => ?_
    rw [Rig.chan, Rig.chan, hc]
    exact .refl _
  | rig h => exact h.inStep k
  | taken c _ _ =>
    have hg : (s.take c).scene.generation = s.scene.generation + 1 := by
      unfold State.take
      dsimp only
      rw [State.takeReport_scene]
      rfl
    rw [hg]
    exact State.take_inStep k c
  | left =>
    refine (Rig.InStep.endLegs (m := s.moment) k (legIds s.rig.table)).congr rfl rfl fun o c => ?_
    show ChanRec.SameCounts _ ((s.rig.leaveShow s.moment).chan o c)
    rw [Rig.leaveShow, Rig.chan_mapRecords]
    exact ⟨rfl, rfl, rfl⟩
  | restarted =>
    obtain ⟨ht, -, -, -, hc, -⟩ := s.restartScene.rig.restart_spec s.restartScene.moment
    rw [State.restartNotes_rig]
    exact .of_empty ht fun o c => by rw [hc]; exact ⟨rfl, rfl, rfl⟩
  | cutShort => exact k.congr rfl rfl fun _ _ => .refl _
  | reset a b =>
    refine .of_empty rfl fun o c => ?_
    have hclear : State.reset.rig.chan o c = ChanRec.clear := by simp [Rig.chan, State.reset, Rig.pinReset]
    show (State.reset.rig.chan o c).sounding = 0 ∧ (State.reset.rig.chan o c).old = 0 ∧
      (State.reset.rig.chan o c).pending = none
    rw [hclear]
    exact ⟨rfl, rfl, rfl⟩
  | dropped | staged | readied | position | frozen | entered => exact k

theorem Acts.inStep {watch : Prop} {s t : State} (h : Acts s t) (k : s.rig.InStep watch s.scene.generation) :
    t.rig.InStep watch t.scene.generation := by
  induction h with
  | refl => exact k
  | tail _ act ih => exact act.inStep ih

/-- Settles O8: each act of a step keeps the counts of every record in step with the legs of the table. -/
theorem countsStayInStep : Obligations.CountsStayInStep := by
  refine ⟨fun s t h hstep => ?_, fun s t h ho _ hstep => ?_⟩
  · exact (countsInStep_iff t).mpr ((step_acts hstep).inStep ((countsInStep_iff s).mp h))
  · have k := (step_acts hstep).inStep ((inStep_iff s).mpr ⟨h, ho⟩)
    exact ⟨((inStep_iff t).mp k).2, k.old_le⟩

end Sys2Proof.Machine
end

section
/-! The watched lines (O59): the sync and panic inputs, the beat line and the audio clock (R73, R125, R130, R155). -/
namespace Sys2Proof.Machine

/-! ### Deadlines -/

theorem reached_of_lt {now t : StageTime} (h : (now - t).toNat < 2 ^ 31) : reached now t = true := decide_eq_true h

theorem reached_of_le {now t : StageTime} (h : 2 ^ 31 ≤ (now - t).toNat) : reached now t = false :=
  decide_eq_false (Nat.not_lt.mpr h)

/-! ### The beat line (R125) -/

section
variable {s : State} {d : StageTime} (hd : s.tempo.lineHighUntil = some d)
include hd

theorem State.beatLineDue_reached (h : (s.time - d).toNat < 2 ^ 31) :
    s.beatLineDue = s.setTempo { s.tempo with lineHighUntil := none } := by
  simp only [State.beatLineDue, hd, reached_of_lt h, if_true]

theorem State.beatLineDue_early (h : 2 ^ 31 ≤ (s.time - d).toNat) : s.beatLineDue = s := by
  simp only [State.beatLineDue, hd, reached_of_le h, Bool.false_eq_true, if_false]

end

/-! ### The audio clock (R155) -/

section
variable {s : State}

theorem State.audioLoss_present (h : s.click.audio = .present) : s.audioLoss = s.setClick s.click.loseClock := by
  rw [State.audioLoss, h]

variable (h : s.click.audio = .missing)
include h

theorem State.samplePeriod_missing : s.samplePeriod = s := by rw [State.samplePeriod, h]

theorem State.openRun_missing (hr : s.click.presenceRun = none) :
    s.openRun = s.setClick { s.click with presenceRun := some s.time } := by
  rw [State.openRun, h, hr]

theorem State.endRun_missing : s.endRun = s.setClick { s.click with presenceRun := none } := by
  rw [State.endRun, h]

theorem ClickGen.returnDue_missing {d : StageTime} (hd : s.click.presenceRun = some d) (now : StageTime) :
    s.click.returnDue now = reached now (d + 1000) := by
  rw [ClickGen.returnDue, h, hd]
  rfl

end

/-! ### The commands -/

section
variable {s : State} (hl : s.live = true)
include hl

theorem exec_syncLineFall : exec .syncLineFall s = .next (s.setPins { s.pins with syncHigh := false }) :=
  whenLive_of_live (fun s => s.setPins { s.pins with syncHigh := false }) hl

theorem exec_panicLineRise : exec .panicLineRise s = .next (s.setPins { s.pins with panicLow := false }) :=
  whenLive_of_live (fun s => s.setPins { s.pins with panicLow := false }) hl

theorem exec_beatLineEnd : exec .beatLineEnd s = .next s.beatLineDue := whenLive_of_live _ hl
theorem exec_audioClockLoss : exec .audioClockLoss s = .next s.audioLoss := whenLive_of_live _ hl
theorem exec_audioClockReturn : exec .audioClockReturn s = .next s.audioReturn := whenLive_of_live _ hl
theorem exec_presenceRunOpen : exec .presenceRunOpen s = .next s.openRun := whenLive_of_live _ hl
theorem exec_presenceRunGap : exec .presenceRunGap s = .next s.endRun := whenLive_of_live _ hl
theorem exec_samplePeriod : exec .samplePeriod s = .next s.samplePeriod := whenLive_of_live _ hl

end

/-- Settles O59: each line by the case of its own operation. -/
theorem watchedLines : Obligations.WatchedLines := by
  intro s hl
  refine ⟨⟨_, exec_syncLineFall hl, s.setPins_sameBut _, rfl⟩, ⟨_, exec_panicLineRise hl, s.setPins_sameBut _, rfl⟩,
    fun d hd h => ?_, fun d hd h => ?_, fun h => ?_, State.audioLines_missing, fun h hr => ?_, fun h => ?_,
    fun d h hd => ⟨fun hdue => ?_, fun hearly => ?_⟩, fun h => ?_⟩
  · rw [exec_beatLineEnd hl, State.beatLineDue_reached hd h]
    exact ⟨_, rfl, s.setTempo_sameBut _, rfl⟩
  · rw [exec_beatLineEnd hl, State.beatLineDue_early hd h]
  · rw [exec_audioClockLoss hl, State.audioLoss_present h]
    exact ⟨_, rfl, s.setClick_sameBut _, rfl, fun i => Vector.getElem_replicate _, rfl, rfl, rfl, rfl,
      State.audioLines_missing rfl⟩
  · rw [exec_presenceRunOpen hl, State.openRun_missing h hr]
    exact ⟨_, rfl, s.setClick_sameBut _, rfl⟩
  · rw [exec_presenceRunGap hl, State.endRun_missing h]
    exact ⟨_, rfl, s.setClick_sameBut _, rfl⟩
  · rw [exec_audioClockReturn hl, State.audioReturn, ClickGen.returnDue_missing h hd, if_pos (reached_of_lt hdue)]
    exact ⟨_, rfl, s.setClick_sameBut _, rfl, rfl, rfl, rfl, rfl, rfl⟩
  · rw [exec_audioClockReturn hl, State.audioReturn, ClickGen.returnDue_missing h hd, reached_of_le hearly]
    rfl
  · rw [exec_samplePeriod hl, State.samplePeriod_missing h]

end Sys2Proof.Machine
end

section
/-! ENTER SETUP (O30): every note ends, the scene is left, and the change of mode is reported (R76, R91, R118, R183). -/
namespace Sys2Proof.Machine

theorem exec_enterSetup {s : State} {p : Port} {r : Request} {rest : List Request} (h : Heads s p .enterSetup r rest) :
    exec (.enterSetup p) s = .next (s.enterSetupRequest p r) := whenLive_serve_of_heads h _

/-- The part with every leg of the table ended. -/
def State.notesEnded (s : State) : State := s.setRig (s.rig.endLegs s.moment (legIds s.rig.table))

/-- Leaving SHOW, block by block, on the part whose notes have ended. -/
theorem State.leaveShow_sameBut (s : State) :
    SameBut [.mem, .records, .pedals, .router, .scene] s.notesEnded s.leaveShow := by
  intro b hb
  cases b with
  | mem | records | pedals | router | scene => exact absurd (by decide) hb
  | _ => rfl

theorem State.notesEnded_sameBut (s : State) : SameBut [.desk, .outputs, .records, .table] s s.notesEnded :=
  s.setRig_sameBut _ (s.rig.endLegs_pedals s.moment _)

theorem State.leaveShow_chan (s : State) (o : Output) (c : Chan) :
    s.leaveShow.rig.chan o c = { s.notesEnded.rig.chan o c with redirect := none } :=
  Rig.chan_mapRecords { s.notesEnded.rig with pedals := Vector.replicate 64 false }
    (fun x => { x with redirect := none }) o c

theorem State.reportMode_sameBut (s : State) : SameBut [.desk] s s.reportMode :=
  (s.raise_sameBut _).trans (State.record_sameBut _ _)

/-- Settles O30: the end of all legs, and then the stages of `State.leaveShow`, its answer and its report. -/
theorem enterSetupRule : Obligations.EnterSetupRule := by
  intro s p r rest h
  rw [exec_enterSetup h, State.enterSetupRequest]
  refine ⟨fun hm => ?_, fun hm hb => ?_⟩
  · rw [if_pos hm]
    exact onlyAnswers_answer h .mode []
  rw [if_neg (by simp [hm])]
  obtain ⟨-, hq, -⟩ := h
  have hfull := ((tableBounded_iff s).mp hb).full
  have hrequests : (s.leaveShow.port p).requests = r :: rest := ((s.rig.endLegs_reports s.moment _).sameQueue p).1.trans hq
  have hdesk : ((s.leaveShow.answer p .done []).reportMode).desk = modeDesk s.notesEnded p r rest .setupMode := by
    rw [State.reportMode, State.record, State.setDesk_desk, State.raise, State.setDesk_desk,
      State.answer_desk _ p r rest _ _ hrequests]
    rfl
  have hreport : SameBut [.desk] s.leaveShow ((s.leaveShow.answer p .done []).reportMode) :=
    (State.answer_sameBut _ _ _ _).trans (State.reportMode_sameBut _)
  generalize (s.leaveShow.answer p .done []).reportMode = t at hdesk hreport
  have hrig := hreport.rig_setDesk (by decide) (by decide) (by decide) (by decide) (by decide)
  refine ⟨_, t, rfl, rfl, ?_, ?_, ?_, ?_, ?_, ?_, hreport .mem (by decide), hreport .router (by decide),
    hreport .scene (by decide), hdesk⟩
  · exact ((s.notesEnded_sameBut.mono (by simp)).trans (s.leaveShow_sameBut.mono (by simp))).trans (hreport.mono (by simp))
  · rw [hrig]
    exact s.rig.endLegs_all s.moment hfull
  · exact fun n c => Rig.pedal_of_up (by rw [hrig]; rfl) n c
  · rw [hrig]
    exact s.leaveShow_chan
  · rw [hrig]
    rfl
  · rw [hrig]
    exact (s.rig.endLegs_sheds s.moment _).enabled

end Sys2Proof.Machine
end

section
/-! What a spill expiry leaves, whatever room there is: no old leg, and every other leg in its entry (R61, R70, R85). -/
namespace Sys2Proof.Machine

/-! ### A spill on its way -/

/-- A spill of program `p` on record (o, c): the program is pending and the old-leg count is that of its old legs, above
0 where `waits` holds; or none is left and the program is current. -/
def Spilling (waits : Prop) (current : Generation) (o : Output) (c : Chan) (p : Pending) (x : ChanRec)
    (ls : List (Generation × Leg)) : Prop :=
  (x.pending = some p ∧ x.old = ls.countP (oldOn current o c p.generation) ∧ (waits → 0 < x.old)) ∨
    (x.pending = none ∧ x.program = some p.program.number ∧ ls.countP (oldOn current o c p.generation) = 0)

theorem spilling_lasting (waits : Prop) (current : Generation) (o : Output) (c : Chan) (p : Pending) :
    Lasting current o c (Spilling waits current o c p) := by
  have silent : ∀ {x : ChanRec} {y : Generation × Leg} {ls : List (Generation × Leg)}, soundsOn o c y = false →
      (Spilling waits current o c p x (y :: ls) ↔ Spilling waits current o c p x ls) := by
    intro x y ls h
    rw [Spilling, Spilling, List.countP_cons_of_neg (by simp [oldOn_silent h])]
  refine ⟨?_, fun hp k => ?_, fun h => (silent h).mp, fun h => (silent (soundsOn_unsent h o c)).mpr, ?_⟩
  · rintro x y ls ⟨held, owed, rfl⟩ k
    exact k
  · rwa [Spilling, ← hp.countP_eq]
  · intro x y ls hy k
    cases hold : x.isOld current y.1
    · have hnew : x.pending = some p → ¬oldOn current o c p.generation y = true := fun hp h => by
        rw [ChanRec.isOld_iff.mpr ⟨p, hp, (oldOn_iff.mp h).2⟩] at hold
        contradiction
      rw [ChanRec.lose_fresh hold]
      rcases k with ⟨hp, hc, hw⟩ | ⟨hp, hprog, hc⟩
      · rw [List.countP_cons_of_neg (hnew hp)] at hc
        exact .inl ⟨hp, hc, hw⟩
      · refine .inr ⟨hp, hprog, ?_⟩
        have := List.Sublist.countP_le (p := oldOn current o c p.generation) (List.sublist_cons_self y ls)
        omega
    · obtain ⟨q, hq, hage⟩ := ChanRec.isOld_iff.mp hold
      rcases k with ⟨hp, hc, hw⟩ | ⟨hp, -⟩
      case inr => exact nomatch hq.symm.trans hp
      obtain rfl : q = p := Option.some.inj (hq.symm.trans hp)
      rw [List.countP_cons_of_pos (oldOn_iff.mpr ⟨hy, hage⟩)] at hc
      rw [ChanRec.lose_old hp hage]
      split
      · exact .inr ⟨rfl, rfl, by omega⟩
      · exact .inl ⟨hp, by dsimp only; omega, fun _ => by dsimp only; omega⟩

/-- No leg of the numbers `ids` is old for program `p`, as long as a program is pending. -/
def NoneOldOf (current : Generation) (o : Output) (c : Chan) (p : Pending) (ids : List Nat) (x : ChanRec)
    (ls : List (Generation × Leg)) : Prop :=
  x.pending = none ∨ ∀ y ∈ ls, y.2.id ∈ ids → oldOn current o c p.generation y = false

theorem ChanRec.lose_pending (x : ChanRec) (current g : Generation) :
    (x.lose current g).pending = none ∨ (x.lose current g).pending = x.pending := by
  cases hold : x.isOld current g
  · rw [ChanRec.lose_fresh hold]
    exact .inr rfl
  · obtain ⟨p, hp, hage⟩ := ChanRec.isOld_iff.mp hold
    rw [ChanRec.lose_old hp hage]
    split
    · exact .inl rfl
    · exact .inr rfl

theorem noneOldOf_lasting (current : Generation) (o : Output) (c : Chan) (p : Pending) (ids : List Nat) :
    Lasting current o c (NoneOldOf current o c p ids) := by
  refine ⟨?_, fun hp k => k.imp_right fun k y hy => k y (hp.mem_iff.mpr hy),
    fun _ k => k.imp_right fun k y hy => k y (List.mem_cons_of_mem _ hy), fun hs k => k.imp_right fun k z hz hid => ?_, ?_⟩
  · rintro x y ls ⟨held, owed, rfl⟩ k
    exact k
  · rcases List.mem_cons.mp hz with rfl | hz
    · exact oldOn_silent (soundsOn_unsent hs o c) _ _
    · exact k z hz hid
  · intro x y ls _ k
    rcases x.lose_pending current y.1 with h | h
    · exact .inl h
    · exact (k.imp_left h.trans).imp_right fun k z hz => k z (List.mem_cons_of_mem _ hz)

/-! ### One old leg after another (R70) -/

section
variable {r : Rig} {m : Moment} {o : Output} {c : Chan} {id : Nat}

theorem Rig.endOldLeg_absent (hf : findLeg r.table id = none) : r.endOldLeg m o c id = r := by
  rw [Rig.endOldLeg, hf]

theorem Rig.endOldLeg_found {x : Generation × Leg} (hf : findLeg r.table id = some x) :
    r.endOldLeg m o c id =
      if (soundsOn o c x && (r.chan o c).isOld m.generation x.1) = true then r.endLeg m id else r := by
  rw [Rig.endOldLeg, hf]
  rfl

theorem findLeg_of_dated {es : List Entry} (hn : (legIds es).Nodup) {x : Generation × Leg} (hx : x ∈ datedLegs es) :
    findLeg es x.2.id = some x := by
  obtain ⟨e, he, hl, hg⟩ := mem_datedLegs.mp hx
  rw [findLeg_of_mem (by rw [List.map_flatMap]; exact hn) he hl, hg]

/-- An old leg that has had its turn is gone. -/
theorem Rig.endOldLeg_noneOld {p : Pending} (hn : (legIds r.table).Nodup) {ids : List Nat}
    (hp : (r.chan o c).pending = some p ∨ (r.chan o c).pending = none)
    (k : NoneOldOf m.generation o c p ids (r.chan o c) (datedLegs r.table)) :
    NoneOldOf m.generation o c p (id :: ids) ((r.endOldLeg m o c id).chan o c)
      (datedLegs (r.endOldLeg m o c id).table) := by
  have gone : ∀ {t : Rig}, NoneOldOf m.generation o c p ids (t.chan o c) (datedLegs t.table) →
      (∀ y ∈ datedLegs t.table, y.2.id = id → (t.chan o c).pending = none ∨ oldOn m.generation o c p.generation y = false) →
      NoneOldOf m.generation o c p (id :: ids) (t.chan o c) (datedLegs t.table) := by
    intro t kt h
    by_cases hnone : (t.chan o c).pending = none
    · exact .inl hnone
    · refine .inr fun y hy hid => ?_
      rcases List.mem_cons.mp hid with he | hid
      · exact (h y hy he).resolve_left hnone
      · exact kt.resolve_left hnone y hy hid
  cases hf : findLeg r.table id with
  | none =>
    rw [Rig.endOldLeg_absent hf]
    refine gone k fun y hy he => ?_
    rw [← he, findLeg_of_dated hn hy] at hf
    contradiction
  | some x =>
    rw [Rig.endOldLeg_found hf]
    split
    · refine gone ((r.endLeg_sheds m id).lasts hn (noneOldOf_lasting m.generation o c p ids) k) fun y hy he => ?_
      have hid : y.2.id ∈ legIds (r.endLeg m id).table := by
        rw [← datedLegs_ids]
        exact List.mem_map.mpr ⟨y, hy, rfl⟩
      exact absurd (he ▸ hid) (r.endLeg_absent m id)
    · rename_i hnot
      refine gone k fun y hy he => hp.symm.imp_right fun hp => ?_
      obtain rfl : x = y := by
        rw [← he, findLeg_of_dated hn hy] at hf
        exact (Option.some.inj hf).symm
      rw [← Bool.not_eq_true, oldOn_iff]
      rintro ⟨hs, hage⟩
      exact hnot (by rw [hs, ChanRec.isOld_iff.mpr ⟨p, hp, hage⟩]; rfl)

theorem Spilling.pending {waits : Prop} {current : Generation} {p : Pending} {x : ChanRec}
    {ls : List (Generation × Leg)} (h : Spilling waits current o c p x ls) : x.pending = some p ∨ x.pending = none :=
  h.imp (fun h => h.1) fun h => h.1

theorem Rig.endOldLeg_sheds (r : Rig) (m : Moment) (o : Output) (c : Chan) (id : Nat) :
    Rig.Sheds m r (r.endOldLeg m o c id) := by
  obtain h | ⟨-, -, -, -, h⟩ := r.endOldLeg_cases m o c id <;> rw [h]
  · exact .refl m r
  · exact r.endLeg_sheds m id

end

section
variable {waits : Prop} {m : Moment} {o : Output} {c : Chan} {p : Pending}

/-- The ends of old legs leave no old leg, and with one to end the program is released (R70, R85). -/
theorem Rig.endOldLegs_spilled {r : Rig} (hn : (legIds r.table).Nodup)
    (k : Spilling waits m.generation o c p (r.chan o c) (datedLegs r.table)) :
    (datedLegs (r.endOldLegs m o c).table).countP (oldOn m.generation o c p.generation) = 0 ∧
      (waits → ((r.endOldLegs m o c).chan o c).pending = none ∧
        ((r.endOldLegs m o c).chan o c).program = some p.program.number) := by
  have fold : ∀ (ids done : List Nat) (r : Rig), (legIds r.table).Nodup →
      Spilling waits m.generation o c p (r.chan o c) (datedLegs r.table) →
      NoneOldOf m.generation o c p done (r.chan o c) (datedLegs r.table) →
      NoneOldOf m.generation o c p (ids.reverse ++ done) ((ids.foldl (fun r id => r.endOldLeg m o c id) r).chan o c)
        (datedLegs (ids.foldl (fun r id => r.endOldLeg m o c id) r).table) := by
    intro ids
    induction ids with
    | nil => exact fun done r _ _ h => h
    | cons id ids ih =>
      intro done r hn k h
      have hs := r.endOldLeg_sheds m o c id
      rw [List.reverse_cons, List.append_assoc]
      exact ih (id :: done) _ (hs.nodup hn) (hs.lasts hn (spilling_lasting waits m.generation o c p) k)
        (Rig.endOldLeg_noneOld hn k.pending h)
  have hs := r.endOldLegs_sheds m o c
  have hall := fold (legIds r.table) [] r hn k (.inr fun _ _ h => absurd h List.not_mem_nil)
  have hend := hs.lasts hn (spilling_lasting waits m.generation o c p) k
  change NoneOldOf _ o c p _ ((r.endOldLegs m o c).chan o c) (datedLegs (r.endOldLegs m o c).table) at hall
  rcases hend with ⟨hp, hold, hw⟩ | ⟨hp, hprog, hzero⟩
  · have hzero : (datedLegs (r.endOldLegs m o c).table).countP (oldOn m.generation o c p.generation) = 0 := by
      refine List.countP_eq_zero.mpr fun y hy => ?_
      have hid : y.2.id ∈ (legIds r.table).reverse ++ [] := by
        rw [List.append_nil, List.mem_reverse, ← stamps_ids]
        exact (hs.stamps.map Prod.snd).subset
          (List.mem_map.mpr ⟨(y.1, y.2.id), List.mem_map.mpr ⟨y, hy, rfl⟩, rfl⟩)
      simpa using hall.resolve_left (by simp [hp]) y hy hid
    exact ⟨hzero, fun w => absurd (hw w) (by omega)⟩
  · exact ⟨hzero, fun _ => ⟨hp, hprog⟩⟩

theorem Rig.expireSpill_spilled {r : Rig} (hn : (legIds r.table).Nodup)
    (k : Spilling waits m.generation o c p (r.chan o c) (datedLegs r.table)) :
    (datedLegs (r.expireSpill m o c).table).countP (oldOn m.generation o c p.generation) = 0 ∧
      (waits → ((r.expireSpill m o c).chan o c).pending = none ∧
        ((r.expireSpill m o c).chan o c).program = some p.program.number) := by
  have hq := r.expireSpill_quiet m o c
  obtain ⟨held, owed, hx⟩ := hq.chan o c
  rw [hq.notes.1, hx]
  exact Rig.endOldLegs_spilled hn k

end

/-! ### The legs that stay (R70) -/

/-- Leg `l` of entry `e` stands in a table, but for its sent mark and the other legs of the entry. -/
def StandsIn (es : List Entry) (e : Entry) (l : Leg) : Prop :=
  ∃ e' ∈ es, ∃ l' ∈ e'.legs, e' = { e with legs := e'.legs } ∧ l' = { l with sent := l'.sent }

theorem StandsIn.of_mem {es : List Entry} {e : Entry} {l : Leg} (he : e ∈ es) (hl : l ∈ e.legs) : StandsIn es e l :=
  ⟨e, he, l, hl, rfl, rfl⟩

theorem StandsIn.trans {es fs : List Entry} {e : Entry} {l : Leg} (h : StandsIn es e l)
    (k : ∀ e' ∈ es, ∀ l' ∈ e'.legs, l'.id = l.id → StandsIn fs e' l') : StandsIn fs e l := by
  obtain ⟨e', he, l', hl, hee, hll⟩ := h
  obtain ⟨x, hx, y, hy, hxx, hyy⟩ := k e' he l' hl (by rw [hll])
  refine ⟨x, hx, y, hy, ?_, ?_⟩
  · rw [hxx, hee]
  · rw [hyy, hll]

/-- Tables that differ in sent marks alone have the same legs standing. -/
theorem StandsIn.of_bareTable {es fs : List Entry} (h : bareTable fs = bareTable es) {e : Entry} (he : e ∈ es) {l : Leg}
    (hl : l ∈ e.legs) : StandsIn fs e l := by
  obtain ⟨e', he', hee⟩ := mem_bareTable.mp (h ▸ mem_bareTable.mpr ⟨e, he, rfl⟩)
  simp only [Entry.mk.injEq] at hee
  obtain ⟨h1, h2, h3, h4, h5, hlegs⟩ := hee
  obtain ⟨l', hl', hll⟩ := List.mem_map.mp (hlegs ▸ List.mem_map.mpr ⟨l, hl, rfl⟩)
  simp only [Leg.mk.injEq] at hll
  obtain ⟨k1, k2, k3, k4, k5, -⟩ := hll
  refine ⟨e', he', l', hl', ?_, ?_⟩
  · rw [h1, h2, h3, h4, h5]
  · rw [← k1, ← k2, ← k3, ← k4, ← k5]

/-- The end of a leg leaves the legs of other numbers in their entries. -/
theorem Rig.endLeg_stands {r : Rig} {e : Entry} (he : e ∈ r.table) {l : Leg} (hl : l ∈ e.legs) (m : Moment) {id : Nat}
    (hid : l.id ≠ id) : StandsIn (r.endLeg m id).table e l := by
  obtain ⟨-, h⟩ | ⟨g, k, hf, -⟩ := r.endLeg_cases m id
  · rw [h]
    exact .of_mem he hl
  · have hbare := (Rig.endLeg_works m (r := r) (id := id) (by simp [hf])).notes.1
    have hkeep : l ∈ e.legs.filter fun l => l.id ≠ id := List.mem_filter.mpr ⟨hl, by simpa using hid⟩
    have hmem : { e with legs := e.legs.filter fun l => l.id ≠ id } ∈ removeLeg r.table id := by
      refine List.mem_filter.mpr ⟨List.mem_map.mpr ⟨e, he, rfl⟩, ?_⟩
      simpa using ⟨l, hl, hid⟩
    exact StandsIn.of_bareTable hbare hmem hkeep

/-- A sent leg of a table in which legs only became unsent or ended stands as it was. -/
theorem sentBefore_lasting (current : Generation) (o : Output) (c : Chan) (before : List (Generation × Leg)) :
    Lasting current o c fun _ ls => ∀ y ∈ ls, y.2.sent = true → y ∈ before := by
  refine ⟨fun _ k => k, fun hp k y hy => k y (hp.mem_iff.mpr hy), fun _ k y hy => k y (List.mem_cons_of_mem _ hy),
    fun hs k y hy hsent => ?_, fun _ k y hy => k y (List.mem_cons_of_mem _ hy)⟩
  rcases List.mem_cons.mp hy with rfl | hy
  · exact absurd hsent (by simp [hs])
  · exact k y hy hsent

/-- The legs that are not old stand after the ends of the old ones. -/
theorem Rig.endOldLegs_stands {waits : Prop} {m : Moment} {o : Output} {c : Chan} {p : Pending} {r : Rig}
    (hn : (legIds r.table).Nodup) (k : Spilling waits m.generation o c p (r.chan o c) (datedLegs r.table)) {e : Entry}
    (he : e ∈ r.table) {l : Leg} (hl : l ∈ e.legs)
    (hold : oldOn m.generation o c p.generation (e.generation, l) = false) :
    StandsIn (r.endOldLegs m o c).table e l := by
  have fold : ∀ (ids : List Nat) (t : Rig), (legIds t.table).Nodup →
      Spilling waits m.generation o c p (t.chan o c) (datedLegs t.table) →
      (∀ y ∈ datedLegs t.table, y.2.sent = true → y ∈ datedLegs r.table) → StandsIn t.table e l →
      StandsIn (ids.foldl (fun r id => r.endOldLeg m o c id) t).table e l := by
    intro ids
    induction ids with
    | nil => exact fun t _ _ _ h => h
    | cons id ids ih =>
      intro t hnt kt hsent h
      have hs := t.endOldLeg_sheds m o c id
      refine ih _ (hs.nodup hnt) (hs.lasts hnt (spilling_lasting waits m.generation o c p) kt)
        (hs.lasts hnt (sentBefore_lasting m.generation o c _) hsent) ?_
      show StandsIn (t.endOldLeg m o c id).table e l
      obtain heq | ⟨x, hf, hsx, hisOld, heq⟩ := t.endOldLeg_cases m o c id <;> rw [heq]
      · exact h
      · obtain ⟨hx, rfl⟩ := findLeg_dated hf
        obtain ⟨q, hq, hage⟩ := ChanRec.isOld_iff.mp hisOld
        obtain rfl : q = p := by
          rcases kt.pending with hp | hp <;> rw [hp] at hq
          · exact (Option.some.inj hq).symm
          · contradiction
        have hxr := hsent x hx (soundsOn_iff.mp hsx).1
        have hne : l.id ≠ x.2.id := by
          intro hid
          have h1 := findLeg_of_dated hn (x := (e.generation, l)) (mem_datedLegs.mpr ⟨e, he, hl, rfl⟩)
          have h2 := findLeg_of_dated hn hxr
          rw [← hid] at h2
          have hxe : (e.generation, l) = x := Option.some.inj (h1.symm.trans h2)
          rw [hxe, oldOn_iff.mpr ⟨hsx, hage⟩] at hold
          contradiction
        exact h.trans fun e' he' l' hl' hid => Rig.endLeg_stands he' hl' m (by rw [hid]; exact hne)
  exact fold _ r hn k (fun y hy _ => hy) (.of_mem he hl)

end Sys2Proof.Machine
end

section
/-! A spill expiry where the queue has room (O46): the NOTE-OFFs, the release behind them, and the table left (R61, R68
to R71, R85, R86; log entries 7, 31). -/
namespace Sys2Proof.Machine

/-- The NOTE-OFFs that the ends of dated legs of channel `c` offer, in their order. -/
def dateOffs (c : Chan) (ls : List (Generation × Leg)) : List Urgent := ls.map fun x => .noteOff c x.2.key

/-- Record (o, c) once `k` old legs have ended, the last of them releasing program `p`; the program is held on an output
that is not enabled. -/
def spentRec (enabled : Bool) (p : Program) (k : Nat) (x : ChanRec) : ChanRec :=
  { madeCurrent p x with
    sounding := x.sounding - k
    old := 0
    pending := none
    held := if enabled then none else some p }

/-- From `r` to `t` the legs `ended` of record (o, c) have ended with room, the last of them releasing program `p`. -/
structure Rig.Spent (now : StageTime) (o : Output) (c : Chan) (p : Program) (ended : List (Generation × Leg))
    (r t : Rig) : Prop where
  table : t.table = dropLegs (ended.map fun x => x.2.id) r.table
  out : ∀ y, t.out y = appendedOut now (r.out y)
    (if y = o ∧ (r.out o).enabled = true then dateOffs c ended ++ [.program c p false] else [])
  chan : ∀ y d, t.chan y d =
    if y = o ∧ d = c then spentRec (r.out o).enabled p ended.length (r.chan o c) else r.chan y d

/-! ### One old leg with room -/

theorem offsOf_single (r : Rig) {l : Leg} (hs : l.sent = true) (y : Output) : offsOf r [l] y =
    if y = l.output ∧ (r.out l.output).enabled = true then [.noteOff l.channel l.key] else [] := by
  by_cases hy : y = l.output
  · subst hy
    simp [offsOf, hs]
  · simp [offsOf, hy, Ne.symm hy]

theorem Rig.chan_setChan_self (r : Rig) (o : Output) (c : Chan) (x : ChanRec) : (r.setChan o c x).chan o c = x := by
  rw [Rig.chan_setChan, if_pos ⟨rfl, rfl⟩]

/-- The PROGRAM of `p` on record (o, c) is appended, or held on a disabled output. -/
def programRig (now : StageTime) (r : Rig) (o : Output) (c : Chan) (p : Program) : Rig :=
  if (r.out o).enabled then appendedRig now r o (.program c p false) else r.setChan o c { r.chan o c with held := some p }

theorem programRig_chan (now : StageTime) (r : Rig) (o y : Output) (c d : Chan) (p : Program) :
    (programRig now r o c p).chan y d = if y = o ∧ d = c then
      { r.chan y d with held := if (r.out o).enabled then none else some p } else r.chan y d := by
  have hprogram : (Urgent.program c p false).isProgramOf d = true ↔ d = c := by simp [Urgent.isProgramOf, eq_comm]
  unfold programRig
  cases (r.out o).enabled
  · rw [if_neg Bool.false_ne_true, Rig.chan_setChan]
    split
    · rename_i h
      rw [h.1, h.2]
      rfl
    · rfl
  · rw [if_pos rfl, appendedRig_chan]
    simp only [hprogram, if_true]

/-- A record changed by `f` behind the offer of a PROGRAM. -/
theorem programRig_setChan (now : StageTime) (r : Rig) (o y : Output) (c d : Chan) (p : Program) (f : ChanRec → ChanRec) :
    ((programRig now r o c p).setChan o c (f ((programRig now r o c p).chan o c))).chan y d = if y = o ∧ d = c then
      f { r.chan o c with held := if (r.out o).enabled then none else some p } else r.chan y d := by
  have hself := (programRig_chan now r o o c c p).trans (if_pos ⟨rfl, rfl⟩)
  rw [Rig.chan_setChan, hself, programRig_chan]
  refine ite_congr rfl (fun _ => rfl) fun h => if_neg h

theorem releasedRig_chan (now : StageTime) (r : Rig) (o y : Output) (c d : Chan) (p : Program) :
    (releasedRig now r o c p).chan y d = if y = o ∧ d = c then
      { madeCurrent p (r.chan o c) with pending := none, held := if (r.out o).enabled then none else some p }
    else r.chan y d := programRig_setChan now r o y c d p fun x => { madeCurrent p x with pending := none }

section
variable {r : Rig} {m : Moment} {o : Output} {c : Chan} {p : Pending} {x : Generation × Leg}
  (hf : findLeg r.table x.2.id = some x) (hx : oldOn m.generation o c p.generation x = true)
  (hp : (r.chan o c).pending = some p)
  (hroom : (r.out o).enabled = false ∨ (r.out o).urgent.length + 1 < 48)
include hf hx hp hroom

/-- The end of an old leg, with room for its NOTE-OFF and the PROGRAM behind it. -/
theorem Rig.endOldLeg_room : r.endOldLeg m o c x.2.id =
    (let u := (offRig m r x.2).setChan o c
        { r.chan o c with sounding := (r.chan o c).sounding - 1, old := (r.chan o c).old - 1 }
      if (r.chan o c).old ≤ 1 then releasedRig m.now u o c p.program else u).setTable (removeLeg r.table x.2.id) := by
  obtain ⟨hs, hage⟩ := oldOn_iff.mp hx
  obtain ⟨hsent, rfl, rfl⟩ := soundsOn_iff.mp hs
  have hold : (r.chan x.2.output x.2.channel).isOld m.generation x.1 = true := ChanRec.isOld_iff.mpr ⟨p, hp, hage⟩
  have hspace : (r.out x.2.output).enabled = true → (r.out x.2.output).urgent.length < 48 ∧
      ((r.chan x.2.output x.2.channel).pending ≠ none → (r.out x.2.output).urgent.length + 1 < 48) := fun he => by
    have := hroom.resolve_left (by simp [he])
    exact ⟨by omega, fun _ => this⟩
  rw [Rig.endOldLeg_found hf, hs, hold, Bool.and_self, if_pos rfl, Rig.endLeg_room hf hspace, endedLeg_sent hsent, hp]
  exact congrArg (Rig.setTable · _) (if_pos hage)

/-- The end of an old leg that is not the last. -/
theorem Rig.endOldLeg_more (hmore : 1 < (r.chan o c).old) :
    (r.endOldLeg m o c x.2.id).table = dropLegs [x.2.id] r.table ∧
      (∀ y, (r.endOldLeg m o c x.2.id).out y = appendedOut m.now (r.out y)
        (if y = o ∧ (r.out o).enabled = true then [.noteOff c x.2.key] else [])) ∧
      ∀ y d, (r.endOldLeg m o c x.2.id).chan y d = if y = o ∧ d = c then
        { r.chan o c with sounding := (r.chan o c).sounding - 1, old := (r.chan o c).old - 1 } else r.chan y d := by
  have heq := Rig.endOldLeg_room hf hx hp hroom
  rw [if_neg (by omega)] at heq
  obtain ⟨hsent, rfl, rfl⟩ := soundsOn_iff.mp (oldOn_iff.mp hx).1
  rw [heq]
  refine ⟨removeLeg_eq _ _, fun y => ?_, fun y d => ?_⟩
  · rw [Rig.out_setTable, Rig.out_setChan, offRig_out m r hsent, offsOf_single r hsent]
  · rw [Rig.chan_setTable, Rig.chan_setChan, offRig_chan]

/-- The end of the last old leg releases the program. -/
theorem Rig.endOldLeg_last (hlast : (r.chan o c).old = 1) :
    Rig.Spent m.now o c p.program [x] r (r.endOldLeg m o c x.2.id) := by
  have heq := Rig.endOldLeg_room hf hx hp hroom
  rw [if_pos (by omega)] at heq
  obtain ⟨hsent, rfl, rfl⟩ := soundsOn_iff.mp (oldOn_iff.mp hx).1
  rw [heq]
  refine ⟨removeLeg_eq _ _, fun y => ?_, fun y d => ?_⟩
  · rw [Rig.out_setTable, releasedRig_out, Rig.out_setChan, Rig.out_setChan, offRig_out m r hsent,
      offRig_out m r hsent, appendedOut_enabled, appendedOut_append, offsOf_single r hsent]
    congr 1
    split <;> rfl
  · rw [Rig.chan_setTable, releasedRig_chan, Rig.chan_setChan_self, Rig.chan_setChan, Rig.out_setChan, offRig_chan,
      offRig_out m r hsent, appendedOut_enabled]
    split
    · rw [spentRec, madeCurrent, madeCurrent, hlast]
      rfl
    · rfl

end

/-! ### All the old legs with room -/

theorem Rig.endOldLeg_idle {r : Rig} {o : Output} {c : Chan} (hp : (r.chan o c).pending = none) (m : Moment) (id : Nat) :
    r.endOldLeg m o c id = r := by
  obtain h | ⟨x, -, -, hold, -⟩ := r.endOldLeg_cases m o c id
  · exact h
  · obtain ⟨p, hq, -⟩ := ChanRec.isOld_iff.mp hold
    exact nomatch hp.symm.trans hq

theorem Rig.endOldLegs_idle {r : Rig} {o : Output} {c : Chan} (hp : (r.chan o c).pending = none) (m : Moment)
    (ids : List Nat) : ids.foldl (fun r id => r.endOldLeg m o c id) r = r :=
  List.foldl_fixed' (fun id => Rig.endOldLeg_idle hp m id) ids

/-- The end of an old leg before those of the others. -/
theorem Rig.Spent.cons {now : StageTime} {o : Output} {c : Chan} {p : Program} {x : Generation × Leg}
    {ended : List (Generation × Leg)} {r t u : Rig} (h : Rig.Spent now o c p ended t u)
    (ht : t.table = dropLegs [x.2.id] r.table)
    (ho : ∀ y, t.out y = appendedOut now (r.out y)
      (if y = o ∧ (r.out o).enabled = true then [.noteOff c x.2.key] else []))
    (hc : ∀ y d, t.chan y d = if y = o ∧ d = c then
      { r.chan o c with sounding := (r.chan o c).sounding - 1, old := (r.chan o c).old - 1 } else r.chan y d)
    (hen : (t.out o).enabled = (r.out o).enabled) : Rig.Spent now o c p (x :: ended) r u := by
  refine ⟨?_, fun y => ?_, fun y d => ?_⟩
  · rw [h.table, ht, dropLegs_dropLegs]
    rfl
  · rw [h.out, ho, hen, appendedOut_append]
    congr 1
    split <;> rfl
  · rw [h.chan, hen, hc y d, (hc o c).trans (if_pos ⟨rfl, rfl⟩)]
    split
    · rw [spentRec, spentRec, madeCurrent, madeCurrent, List.length_cons, Nat.sub_sub, Nat.add_comm 1]
    · rfl

/-- Old legs end one after another; the last releases the program. -/
theorem Rig.endOldLegs_spent {m : Moment} {o : Output} {c : Chan} {p : Pending} (ls : List (Generation × Leg)) {r : Rig}
    (hn : (ls.map fun x => x.2.id).Nodup) (hf : ∀ x ∈ ls, findLeg r.table x.2.id = some x)
    (hp : (r.chan o c).pending = some p) (hpos : 0 < (r.chan o c).old)
    (hold : (r.chan o c).old = (ls.filter (oldOn m.generation o c p.generation)).length)
    (hroom : (r.out o).enabled = false ∨ (r.out o).urgent.length + (r.chan o c).old + 1 ≤ 48) :
    Rig.Spent m.now o c p.program (ls.filter (oldOn m.generation o c p.generation)) r
      ((ls.map fun x => x.2.id).foldl (fun r id => r.endOldLeg m o c id) r) := by
  induction ls generalizing r with
  | nil => exact absurd hpos (by simp [hold])
  | cons x ls ih =>
    have hfx := hf x List.mem_cons_self
    have hfs := fun y hy => hf y (List.mem_cons_of_mem x hy)
    rw [List.map_cons, List.nodup_cons] at hn
    rw [List.map_cons, List.foldl_cons]
    by_cases hx : oldOn m.generation o c p.generation x = true
    · rw [List.filter_cons_of_pos hx] at hold ⊢
      rw [List.length_cons] at hold
      have hspace : (r.out o).enabled = false ∨ (r.out o).urgent.length + 1 < 48 := hroom.imp_right (by omega)
      by_cases hmore : 1 < (r.chan o c).old
      · obtain ⟨ht, ho, hc⟩ := Rig.endOldLeg_more hfx hx hp hspace hmore
        have hco := (hc o c).trans (if_pos ⟨rfl, rfl⟩)
        have hen : ((r.endOldLeg m o c x.2.id).out o).enabled = (r.out o).enabled := by rw [ho, appendedOut_enabled]
        have hlen : ((r.endOldLeg m o c x.2.id).out o).urgent.length ≤ (r.out o).urgent.length + 1 := by
          rw [ho, appendedOut_length]
          split <;> simp
        have hrest := ih hn.2 (fun y hy => by
            rw [ht, ← removeLeg_eq, findLeg_removeLeg_of_ne, hfs y hy]
            exact fun h => hn.1 (List.mem_map.mpr ⟨y, hy, h⟩))
          (by rw [hco]; exact hp) (by rw [hco]; dsimp only; omega) (by rw [hco]; dsimp only; omega)
          (by rw [hen, hco]; refine hroom.imp_right fun h => ?_; dsimp only; omega)
        exact hrest.cons ht ho hc hen
      · have hlast : (r.chan o c).old = 1 := by omega
        have hrest : ls.filter (oldOn m.generation o c p.generation) = [] := List.eq_nil_of_length_eq_zero (by omega)
        have h := Rig.endOldLeg_last hfx hx hp hspace hlast
        have hnone : ((r.endOldLeg m o c x.2.id).chan o c).pending = none := by
          rw [h.chan, if_pos ⟨rfl, rfl⟩]
          rfl
        rw [Rig.endOldLegs_idle hnone, hrest]
        exact h
    · rw [List.filter_cons_of_neg hx] at hold ⊢
      have hskip : r.endOldLeg m o c x.2.id = r := by
        rw [Rig.endOldLeg_found hfx, if_neg]
        intro h
        rw [Bool.and_eq_true] at h
        obtain ⟨hs, hisOld⟩ := h
        obtain ⟨q, hq, hage⟩ := ChanRec.isOld_iff.mp hisOld
        obtain rfl : q = p := Option.some.inj (hq.symm.trans hp)
        exact hx (oldOn_iff.mpr ⟨hs, hage⟩)
      rw [hskip]
      exact ih hn.2 hfs hp hpos hold hroom

/-! ### The mark of the queued PROGRAM (log entry 31) -/

theorem markExpiry_append (c : Chan) (p : Program) (l : List Urgent) :
    markExpiry c (l ++ [.program c p false]) = l ++ [.program c p true] := by
  induction l with
  | nil => simp [markExpiry, Urgent.isProgramOf, Urgent.byExpiry]
  | cons e l ih =>
    rw [List.cons_append, markExpiry, ih, if_pos (by simp [Urgent.isProgramOf])]
    rfl

/-! ### The expiry with room (R70) -/

section
variable {r : Rig} {m : Moment} {o : Output} {c : Chan} {p : Pending} (hn : (legIds r.table).Nodup)
  (hp : (r.chan o c).pending = some p) (hpos : 0 < (r.chan o c).old)
  (hold : (r.chan o c).old = (datedLegs r.table).countP (oldOn m.generation o c p.generation))
  (hroom : (r.out o).enabled = false ∨ (r.out o).urgent.length + (r.chan o c).old + 1 ≤ 48)
include hn hp hpos hold hroom

theorem Rig.endOldLegs_room : Rig.Spent m.now o c p.program
    ((datedLegs r.table).filter (oldOn m.generation o c p.generation)) r (r.endOldLegs m o c) := by
  have h := Rig.endOldLegs_spent (datedLegs r.table) (by rwa [datedLegs_ids]) (fun x hx => findLeg_of_dated hn hx) hp hpos
    (hold.trans List.countP_eq_length_filter) hroom
  rwa [datedLegs_ids] at h

theorem Rig.expireSpill_room {ended : List (Generation × Leg)}
    (hended : ended = (datedLegs r.table).filter (oldOn m.generation o c p.generation)) :
    (r.expireSpill m o c).table = dropLegs (ended.map fun x => x.2.id) r.table ∧
      ((r.expireSpill m o c).out o).urgent = (r.out o).urgent ++
        (if (r.out o).enabled = true then dateOffs c ended ++ [.program c p.program true] else []) ∧
      (∀ y, y ≠ o → (r.expireSpill m o c).out y = r.out y) ∧
      ∀ y d, (r.expireSpill m o c).chan y d =
        if y = o ∧ d = c then spentRec (r.out o).enabled p.program (r.chan o c).old (r.chan o c) else r.chan y d := by
  obtain ⟨ht, ho, hc⟩ := hended ▸ Rig.endOldLegs_room hn hp hpos hold hroom
  rw [hended, ← List.countP_eq_length_filter, ← hold] at hc
  have hco := (hc o c).trans (if_pos ⟨rfl, rfl⟩)
  have other : ∀ y, y ≠ o → (r.endOldLegs m o c).out y = r.out y := fun y hy => by
    rw [ho, if_neg fun h => hy h.1, appendedOut_nil]
  have hmark : r.expireSpill m o c =
      if (r.out o).enabled = true then (r.endOldLegs m o c).markExpired o c else r.endOldLegs m o c := by
    unfold Rig.expireSpill
    simp only [hp, hco, spentRec, Option.isSome_some, Option.isNone_none, Bool.true_and]
    cases (r.out o).enabled <;> rfl
  have hoo := ho o
  cases he : (r.out o).enabled <;> rw [he] at hmark hoo hc
  · rw [if_neg Bool.false_ne_true] at hmark
    rw [if_neg (by simp), appendedOut_nil] at hoo
    rw [hmark]
    exact ⟨ht, by simp [hoo], other, hc⟩
  · rw [if_pos rfl] at hmark
    rw [hmark]
    refine ⟨ht, ?_, fun y hy => ?_, hc⟩
    · rw [Rig.markExpired, Rig.out_setOut, if_pos rfl, if_pos rfl, ← List.append_assoc, ← markExpiry_append, hoo]
      simp [appendedOut]
    · rw [Rig.markExpired, Rig.out_setOut, if_neg hy, other y hy]

end

/-! ### The expiry of a spill (O46) -/

section
variable {s : State} {o : Output} {c : Chan} {p : Pending}

theorem spillEnds_eq (hp : (s.rig.chan o c).pending = some p) (e : Entry) (l : Leg) :
    spillEnds s o c e l = oldOn s.scene.generation o c p.generation (e.generation, l) := by
  rw [spillEnds, ChanRec.isOld, hp]
  rfl

/-- The legs that end, entry by entry. -/
theorem spillEnds_dated (hp : (s.rig.chan o c).pending = some p) :
    (datedLegs s.rig.table).filter (oldOn s.scene.generation o c p.generation) =
      s.rig.table.flatMap fun e => (e.legs.filter fun l => spillEnds s o c e l).map fun l => (e.generation, l) := by
  rw [datedLegs, List.filter_flatMap]
  refine List.flatMap_congr fun e _ => ?_
  simp only [List.filter_map, Function.comp_def, spillEnds_eq hp]

theorem dateOffs_spillEnds (hp : (s.rig.chan o c).pending = some p) :
    dateOffs c ((datedLegs s.rig.table).filter (oldOn s.scene.generation o c p.generation)) =
      s.rig.table.flatMap fun e => (e.legs.filter fun l => spillEnds s o c e l).map fun l => .noteOff c l.key := by
  rw [spillEnds_dated hp, dateOffs, List.map_flatMap]
  exact List.flatMap_congr fun e _ => List.map_map

/-- The table without the legs that end. -/
theorem dropLegs_spillEnds (hn : (legIds s.rig.table).Nodup) (hp : (s.rig.chan o c).pending = some p) :
    dropLegs (((datedLegs s.rig.table).filter (oldOn s.scene.generation o c p.generation)).map fun x => x.2.id)
        s.rig.table =
      (s.rig.table.map fun e => { e with legs := e.legs.filter fun l => !spillEnds s o c e l }).filter
        fun e => !e.legs.isEmpty := by
  rw [dropLegs]
  congr 1
  refine List.map_congr_left fun e he => ?_
  have hlegs : ∀ l ∈ e.legs, (((datedLegs s.rig.table).filter (oldOn s.scene.generation o c p.generation)).map
      fun x => x.2.id).contains l.id = spillEnds s o c e l := by
    intro l hl
    have hmem : (e.generation, l) ∈ datedLegs s.rig.table := mem_datedLegs.mpr ⟨e, he, hl, rfl⟩
    rw [spillEnds_eq hp, Bool.eq_iff_iff, List.contains_iff_mem, List.mem_map]
    constructor
    · rintro ⟨x, hx, hid⟩
      obtain ⟨hx, hxold⟩ := List.mem_filter.mp hx
      have hsame := (findLeg_of_dated hn hx).symm.trans (hid ▸ findLeg_of_dated hn hmem)
      rwa [← Option.some.inj hsame]
    · exact fun h => ⟨_, List.mem_filter.mpr ⟨hmem, h⟩, rfl⟩
  rw [List.filter_congr fun l hl => by rw [hlegs l hl]]

end

/-- Settles O46: the old legs end one after another, and the last of them releases the program. -/
theorem spillExpires : Obligations.SpillExpires := by
  refine fun s o c hl => ?_
  have hexec : exec (.spillExpiry o c) s = .next (s.spillDue o c) := whenLive_of_live (fun s => s.spillDue o c) hl
  refine ⟨fun hnone => ?_, fun p hp hdue hcounts hold => ?_⟩
  · have h : s.spillDue o c = s := by
      rcases hnone with hp | ⟨p, hp, hearly⟩
      · rw [State.spillDue, hp]
      · simp only [State.spillDue, hp, reached_of_le hearly, Bool.false_eq_true, if_false]
    rw [hexec, h]
  · have hdueRig : s.spillDue o c = s.setRig (s.rig.expireSpill s.moment o c) := by
      simp only [State.spillDue, hp, reached_of_lt hdue, if_true]
    have hn : (legIds s.rig.table).Nodup := ((countsInStep_iff s).mp hcounts).ids
    rw [sentOldLegs_eq hp] at hold
    have hspill : Spilling (0 < (s.rig.chan o c).old) s.moment.generation o c p (s.rig.chan o c)
        (datedLegs s.rig.table) := .inl ⟨hp, hold, id⟩
    obtain ⟨hgone, hreleased⟩ := Rig.expireSpill_spilled hn hspill
    refine ⟨s.spillDue o c, hexec, s.spillDue_sameBut o c, ?_⟩
    rw [hdueRig]
    refine ⟨fun e he l hle hsent ho hc => ?_, hreleased, fun e he l hle hstay => ?_, fun hpos hbounded hroom => ?_⟩
    · have hzero := List.countP_eq_zero.mp hgone (e.generation, l) (mem_datedLegs.mpr ⟨e, he, hle, rfl⟩)
      rw [← Bool.not_eq_true, ChanRec.isOld_iff]
      rintro ⟨q, hq, hage⟩
      obtain rfl : q = p := Option.some.inj (hq.symm.trans hp)
      exact hzero (oldOn_iff.mpr ⟨soundsOn_iff.mpr ⟨hsent, ho, hc⟩, hage⟩)
    · have h := Rig.endOldLegs_stands hn hspill he hle (spillEnds_eq hp e l ▸ hstay)
      show StandsIn (s.rig.expireSpill s.moment o c).table e l
      rwa [(s.rig.expireSpill_quiet s.moment o c).notes.1]
    · obtain ⟨ht, hurgent, hout, hchan⟩ := Rig.expireSpill_room (m := s.moment) hn hp hpos hold hroom rfl
      refine ⟨ht.trans (dropLegs_spillEnds hn hp), ?_, hout, hchan⟩
      rw [← dateOffs_spillEnds hp]
      exact hurgent

end Sys2Proof.Machine
end

section
/-! The four cases of a program setting (O26): what each leaves of outputs, records, table and desk (R80 to R84). -/
namespace Sys2Proof.Machine

/-! ### A PROGRAM sent with room (R82) -/

/-- The instrument side once the PROGRAM of `p` has been offered on record (o, c), with room or on a disabled output,
and made current. -/
def sentRig (now : StageTime) (r : Rig) (o : Output) (c : Chan) (p : Program) : Rig :=
  (programRig now r o c p).setChan o c (madeCurrent p ((programRig now r o c p).chan o c))

theorem Rig.sendProgram_room {r : Rig} {o : Output} (hroom : (r.out o).enabled = true → (r.out o).urgent.length < 48)
    (m : Moment) (c : Chan) (p : Program) : r.sendProgram m o c p = sentRig m.now r o c p := by
  have hoffer : r.offerProgram m o c p = offerEvent r m o (.program c p false) := rfl
  rw [Rig.sendProgram, hoffer, sentRig, programRig]
  cases he : (r.out o).enabled
  · rw [offerEvent_disabled he]
    exact Rig.settleDiscard_none _ _ _
  · have hfull : ¬fullFor (r.out o) (.program c p false) := by simp [fullFor, Urgent.isNoteOn, hroom he]
    rw [offerEvent_room he hfull (by simp)]
    exact Rig.settleDiscard_none _ _ _

theorem sentRig_chan (now : StageTime) (r : Rig) (o y : Output) (c d : Chan) (p : Program) :
    (sentRig now r o c p).chan y d = if y = o ∧ d = c then
      { madeCurrent p (r.chan o c) with held := if (r.out o).enabled then none else some p }
    else r.chan y d := programRig_setChan now r o y c d p (madeCurrent p)

section
variable {r : Rig} {o : Output}

theorem sentRig_enabled (he : (r.out o).enabled = true) (now : StageTime) (c : Chan) (p : Program) :
    (sentRig now r o c p).table = r.table ∧
      (∀ y, (sentRig now r o c p).out y =
        if y = o then appendedOut now (r.out y) [.program c p false] else r.out y) ∧
      (sentRig now r o c p).desk = appendedDesk r.desk o (r.out o) (.program c p false) := by
  rw [sentRig, programRig, he]
  refine ⟨rfl, fun y => (appendedRig_out now r o y _).trans ?_, rfl⟩
  split
  · rename_i hy
    rw [hy]
  · rfl

theorem sentRig_disabled (he : (r.out o).enabled = false) (now : StageTime) (c : Chan) (p : Program) :
    (sentRig now r o c p).table = r.table ∧ (∀ y, (sentRig now r o c p).out y = r.out y) ∧
      (sentRig now r o c p).desk = r.desk := by
  rw [sentRig, programRig, he]
  exact ⟨rfl, fun _ => rfl, rfl⟩

end

/-! ### Which case decides (R81) -/

/-- A setting leaves the current program of its record as it is: its program is the current one, so is its bank if it
names one, and nothing is pending (R80, R81). -/
def Setting.Unchanged (x : Setting) (here : ChanRec) : Prop :=
  here.program = some x.program.number ∧ (∀ b, x.program.bank = some b → here.bank = some b) ∧ here.pending = none

theorem Setting.unchanged_iff (x : Setting) (here : ChanRec) :
    x.Unchanged here ↔ (here.equals x.program && here.pending.isNone) = true := by
  rw [Setting.Unchanged, Bool.and_eq_true, ChanRec.equals, Bool.and_eq_true, Option.isNone_iff_eq_none, and_assoc]
  cases x.program.bank <;> simp

section
variable {r : Rig} {m : Moment} {limit : Nat} {x : Setting}

theorem Rig.applySetting_unchanged (h : x.Unchanged (r.chan x.output x.channel)) : r.applySetting m limit x = r :=
  if_pos ((x.unchanged_iff _).mp h)

variable (h : ¬x.Unchanged (r.chan x.output x.channel))
include h

theorem Rig.applySetting_immediate (hs : (r.chan x.output x.channel).sounding = 0) :
    r.applySetting m limit x = r.sendProgram m x.output x.channel x.program :=
  (if_neg fun k => h ((x.unchanged_iff _).mpr k)).trans (if_pos hs)

variable (hs : (r.chan x.output x.channel).sounding ≠ 0)
include hs

theorem Rig.applySetting_flip {a : Chan} (ha : x.alternate = some a) (hsilent : (r.chan x.output a).sounding = 0) :
    r.applySetting m limit x = r.flip m x.output x.channel a x.program := by
  refine (if_neg fun k => h ((x.unchanged_iff _).mpr k)).trans ((if_neg hs).trans ?_)
  rw [ha]
  exact if_pos hsilent

theorem Rig.applySetting_pending (hnone : ∀ a, ¬(x.alternate = some a ∧ (r.chan x.output a).sounding = 0)) :
    r.applySetting m limit x = r.leavePending m limit x.output x.channel x.program := by
  refine (if_neg fun k => h ((x.unchanged_iff _).mpr k)).trans ((if_neg hs).trans ?_)
  cases ha : x.alternate with
  | none => rfl
  | some a => exact if_neg fun hsilent => hnone a ⟨ha, hsilent⟩

end

/-! ### The flip (R83) -/

/-- What a flip to a silent alternate leaves of the records. -/
theorem Rig.flip_chan {r : Rig} {o : Output} {c a : Chan} (ha : a ≠ c)
    (hroom : (r.out o).enabled = true → (r.out o).urgent.length < 48) (m : Moment) (p : Program) (y : Output) (d : Chan) :
    (r.flip m o c a p).chan y d =
      if y = o ∧ d = a then { madeCurrent p (r.chan y a) with held := if (r.out o).enabled then none else some p }
      else if y = o ∧ d = c then { r.chan o c with
        redirect := some (a, m.generation), pending := none
        old := if (r.chan o c).pending.isSome then 0 else (r.chan o c).old }
      else r.chan y d := by
  have hsent : (sentRig m.now r o a p).chan o c = r.chan o c := by
    rw [sentRig_chan, if_neg fun h => ha h.2.symm]
  unfold Rig.flip
  dsimp only
  rw [Rig.sendProgram_room hroom, hsent, Rig.chan_setChan, sentRig_chan]
  by_cases hc : y = o ∧ d = c
  · have hna : ¬(y = o ∧ d = a) := fun h => ha (h.2.symm.trans hc.2)
    rw [if_pos hc, if_neg hna, if_pos hc]
  · rw [if_neg hc, if_neg hc]
    refine ite_congr rfl (fun h => ?_) fun _ => rfl
    rw [h.1]

/-! ### The pending case (R84, R85) -/

/-- With a spill limit of 0 every leg on the record is old, so all of them end and the program is released. -/
theorem Rig.leavePending_zero {r : Rig} {m : Moment} {o : Output} {c : Chan} (p : Program)
    (hs : (r.chan o c).sounding ≠ 0) (hsent : (r.chan o c).sounding = sentLegs r o c) (hn : (legIds r.table).Nodup)
    (hnew : ∀ e ∈ r.table, e.generation ≠ m.generation) :
    ((r.leavePending m 0 o c p).chan o c).pending = none ∧
      ((r.leavePending m 0 o c p).chan o c).program = some p.number ∧ sentLegs (r.leavePending m 0 o c p) o c = 0 := by
  have hdated : ∀ x ∈ datedLegs r.table, x.1 ≠ m.generation := fun x hx => by
    obtain ⟨e, he, -, hg⟩ := mem_datedLegs.mp hx
    exact hg ▸ hnew e he
  have hzero : r.leavePending m 0 o c p = (r.setChan o c { r.chan o c with
      pending := some ⟨p, m.generation, after m.now (0 * 1000)⟩, old := (r.chan o c).sounding }).expireSpill m o c := rfl
  generalize hu : r.setChan o c { r.chan o c with
      pending := some ⟨p, m.generation, after m.now (0 * 1000)⟩, old := (r.chan o c).sounding } = u at hzero
  have htable : u.table = r.table := hu ▸ rfl
  have hchan : u.chan o c = { r.chan o c with
      pending := some ⟨p, m.generation, after m.now (0 * 1000)⟩, old := (r.chan o c).sounding } := by
    rw [← hu, Rig.chan_setChan_self]
  have hspill : Spilling True m.generation o c ⟨p, m.generation, after m.now (0 * 1000)⟩ (u.chan o c)
      (datedLegs u.table) := by
    rw [hchan, htable]
    refine .inl ⟨rfl, ?_, fun _ => Nat.pos_of_ne_zero hs⟩
    exact hsent.trans ((sentLegs_eq r o c).trans (countP_oldOn_of_earlier hdated).symm)
  obtain ⟨hgone, hreleased⟩ := Rig.expireSpill_spilled (htable ▸ hn) hspill
  obtain ⟨hnone, hprog⟩ := hreleased trivial
  rw [hzero]
  refine ⟨hnone, hprog, ?_⟩
  rw [sentLegs_eq, ← countP_oldOn_of_earlier, hgone]
  intro x hx
  have hstamp := (u.expireSpill_sheds m o c).stamps.subset (List.mem_map.mpr ⟨x, hx, rfl⟩)
  rw [htable] at hstamp
  obtain ⟨y, hy, hyx⟩ := List.mem_map.mp hstamp
  rw [← (Prod.mk.inj hyx).1]
  exact hdated y hy

/-! ### The four cases -/

theorem settingCases : SettingCases := by
  intro r m limit x here unchanged sends holds silentAlternate flipped
  refine ⟨Rig.applySetting_unchanged, fun hne hs => ?_, fun a hne hs ⟨ha, hsilent⟩ => ?_, fun hne hs hnone => ?_⟩
  · rw [Rig.applySetting_immediate hne hs]
    refine ⟨fun he hu => ?_, fun he => ?_⟩
    · rw [Rig.sendProgram_room fun _ => hu]
      refine ⟨sentRig_enabled he _ _ _, fun o c => ?_⟩
      rw [sentRig_chan, he]
      rfl
    · rw [Rig.sendProgram_room (by simp [he])]
      refine ⟨sentRig_disabled he _ _ _, fun o c => ?_⟩
      rw [sentRig_chan, he]
      rfl
  · have hac : a ≠ x.channel := by
      rintro rfl
      exact hs hsilent
    rw [Rig.applySetting_flip hne hs ha hsilent]
    refine ⟨fun he hu => ⟨?_, fun o c => ?_⟩, fun he => ⟨?_, fun o c => ?_⟩⟩
    · show sends a (r.flip m x.output x.channel a x.program)
      have h := sentRig_enabled he m.now a x.program
      rw [← Rig.sendProgram_room fun _ => hu] at h
      exact h
    · rw [Rig.flip_chan hac fun _ => hu, he]
      rfl
    · have h := sentRig_disabled he m.now a x.program
      rw [← Rig.sendProgram_room (by simp [he])] at h
      exact h
    · rw [Rig.flip_chan hac (by simp [he]), he]
      rfl
  · rw [Rig.applySetting_pending hne hs hnone]
    refine ⟨fun hl => ?_, fun hl hsent hn hnew => ?_⟩
    · exact if_neg hl
    · rw [hl]
      exact Rig.leavePending_zero x.program hs hsent (allLegs_ids r ▸ hn) hnew

end Sys2Proof.Machine
end

section
/-! The take (O26): its redirects, its table, and what it leaves of every block (R45, R72, R81, R109 to R112). -/
namespace Sys2Proof.Machine

/-! ### Redirects (R81, R83) -/

/-- From `r` to `t` no redirect changes. -/
def Rig.SameRedirects (r t : Rig) : Prop := ∀ o c, (t.chan o c).redirect = (r.chan o c).redirect

theorem Rig.SameRedirects.refl (r : Rig) : r.SameRedirects r := fun _ _ => rfl

theorem Rig.SameRedirects.trans {r t u : Rig} (h : r.SameRedirects t) (k : t.SameRedirects u) : r.SameRedirects u :=
  fun o c => (k o c).trans (h o c)

theorem Rig.SameRedirects.foldl {α : Type} {f : Rig → α → Rig} (hf : ∀ (r : Rig) (a : α), r.SameRedirects (f r a))
    (l : List α) (r : Rig) : r.SameRedirects (l.foldl f r) := by
  induction l generalizing r with
  | nil => exact .refl r
  | cons a l ih => exact (hf r a).trans (ih _)

theorem ChanRec.Alike.redirect {x y : ChanRec} (h : x.Alike y) : y.redirect = x.redirect := by
  obtain ⟨held, owed, rfl⟩ := h
  rfl

theorem ChanRec.lose_redirect (x : ChanRec) (current g : Generation) : (x.lose current g).redirect = x.redirect := by
  cases hold : x.isOld current g
  · rw [ChanRec.lose_fresh hold]
  · obtain ⟨p, hp, hage⟩ := ChanRec.isOld_iff.mp hold
    rw [ChanRec.lose_old hp hage]
    split <;> rfl

theorem Rig.Quiet.sameRedirects {r t : Rig} (h : r.Quiet t) : r.SameRedirects t := fun o c => (h.chan o c).redirect

theorem Rig.Loses.sameRedirects {current g : Generation} {l : Leg} {r t : Rig} (h : Rig.Loses current g l r t) :
    r.SameRedirects t := fun o c => by
  have hc := (h.chan o c).redirect
  split at hc
  · exact hc.trans (ChanRec.lose_redirect _ _ _)
  · exact hc

theorem Rig.Discards.sameRedirects {m : Moment} {r t : Rig} (h : Rig.Discards m r t) : r.SameRedirects t := by
  induction h with
  | refl => exact .refl r
  | tail _ step ih =>
    cases step with
    | quiet h => exact ih.trans h.sameRedirects
    | unsent _ _ h => exact ih.trans h.sameRedirects

theorem Rig.endLeg_sameRedirects (r : Rig) (m : Moment) (id : Nat) : r.SameRedirects (r.endLeg m id) := by
  obtain ⟨-, h⟩ | ⟨g, l, hf, ⟨-, h⟩ | ⟨hs, -⟩⟩ := r.endLeg_cases m id
  · rw [h]
    exact .refl r
  · rw [h]
    exact .refl r
  · obtain ⟨a, ha, h⟩ := Rig.endLeg_loseLeg hf hs m
    have hoff : Rig.Discards m (r.setTable (removeLeg r.table id)) a :=
      ha ▸ Offer.settled_discards m (Rig.offerNoteOff_quiet _ m _ _ _)
    rw [h]
    exact (hoff.sameRedirects.trans (a.loseLeg_loses m g l).sameRedirects).trans
      (Rig.settleDiscard_discards discardFuel m _ _).sameRedirects

theorem Rig.expireSpill_sameRedirects (r : Rig) (m : Moment) (o : Output) (c : Chan) :
    r.SameRedirects (r.expireSpill m o c) := by
  refine Rig.SameRedirects.trans (t := r.endOldLegs m o c) (.foldl (fun r id => ?_) _ r)
    (r.expireSpill_quiet m o c).sameRedirects
  obtain h | ⟨-, -, -, -, h⟩ := r.endOldLeg_cases m o c id <;> rw [h]
  · exact .refl r
  · exact r.endLeg_sameRedirects m id

theorem Rig.setChan_sameRedirects (r : Rig) (o : Output) (c : Chan) {x : ChanRec}
    (h : x.redirect = (r.chan o c).redirect) : r.SameRedirects (r.setChan o c x) := fun y d => by
  rw [Rig.chan_setChan]
  split
  · rename_i hy
    rw [h, hy.1, hy.2]
  · rfl

theorem Rig.sendProgram_sameRedirects (r : Rig) (m : Moment) (o : Output) (c : Chan) (p : Program) :
    r.SameRedirects (r.sendProgram m o c p) :=
  (((r.offerProgram_quiet m o c p).sameRedirects).trans (Rig.setChan_sameRedirects _ o c (by rfl))).trans
    (Rig.settleDiscard_discards discardFuel m _ _).sameRedirects

/-- Every redirect is of generation `g`. -/
def Rig.RedirectsOf (g : Generation) (r : Rig) : Prop :=
  ∀ o c a h, (r.chan o c).redirect = some (a, h) → h = g

theorem Rig.SameRedirects.of {r t : Rig} (h : r.SameRedirects t) {g : Generation} (k : r.RedirectsOf g) :
    t.RedirectsOf g := fun o c a x hx => k o c a x ((h o c).symm.trans hx)

theorem ChanRec.dropRedirect_of {x : ChanRec} {g h : Generation} {a : Chan} (hx : (x.dropRedirect g).redirect = some (a, h)) :
    h = g := by
  unfold ChanRec.dropRedirect at hx
  split at hx
  · rename_i b i hb
    split at hx
    · rename_i hi
      exact (Prod.mk.inj (Option.some.inj (hx.symm.trans hb))).2.trans hi
    · contradiction
  · rename_i hnone
    exact nomatch hnone.symm.trans hx

theorem Rig.applySetting_redirects {r : Rig} {m : Moment} (k : r.RedirectsOf m.generation) (limit : Nat) (x : Setting) :
    (r.applySetting m limit x).RedirectsOf m.generation := by
  obtain ⟨-, -, h⟩ | ⟨-, h⟩ | ⟨a, -, -, -, h⟩ | ⟨-, -, h⟩ := r.applySetting_cases m limit x <;> rw [h]
  · exact k
  · exact (r.sendProgram_sameRedirects m _ _ _).of k
  · have hsend := (r.sendProgram_sameRedirects m x.output a x.program).of k
    intro y d b g hg
    unfold Rig.flip at hg
    dsimp only at hg
    rw [Rig.chan_setChan] at hg
    split at hg
    · exact (Prod.mk.inj (Option.some.inj hg)).2.symm
    · exact hsend y d b g hg
  · have hset : ∀ z : ChanRec, z.redirect = (r.chan x.output x.channel).redirect →
        (r.setChan x.output x.channel z).RedirectsOf m.generation := fun z hz =>
      (r.setChan_sameRedirects x.output x.channel hz).of k
    unfold Rig.leavePending
    dsimp only
    split
    · exact (Rig.expireSpill_sameRedirects _ m _ _).of (hset _ rfl)
    · exact hset _ rfl

theorem Rig.applySettings_redirects (r : Rig) (m : Moment) (limit : Nat) (xs : List Setting) :
    (r.applySettings m limit xs).RedirectsOf m.generation := by
  have hstart : (r.mapRecords fun x => x.dropRedirect m.generation).RedirectsOf m.generation := fun o c a g hg => by
    rw [Rig.chan_mapRecords] at hg
    exact ChanRec.dropRedirect_of hg
  exact List.foldlRecOn xs _ hstart fun r k x _ => Rig.applySetting_redirects k limit x

/-! ### The table (R72) -/

theorem Rig.applySettings_stamps (r : Rig) (m : Moment) (limit : Nat) (xs : List Setting) :
    (stamps (r.applySettings m limit xs).table).Sublist (stamps r.table) :=
  List.foldlRecOn (motive := fun t : Rig => (stamps t.table).Sublist (stamps r.table)) xs _ (.refl _)
    fun t k x _ => (t.applySetting_stamps m limit x).trans k

theorem takenRig_stamps (s : State) (c : Change) : ∀ x ∈ stamps (takenRig s c).table, x.1 ≠ s.scene.generation + 1 :=
  fun x hx => horizonRig_stamps s x ((Rig.applySettings_stamps _ _ _ _).subset hx)

/-- No entry of the new generation stays. -/
theorem State.take_generations {s : State} (h : tableBounded s) (c : Change) :
    ∀ e ∈ (s.take c).rig.table, e.generation ≠ s.scene.generation + 1 := by
  intro e he
  have hfull := ((State.take_keeps s c).table ((tableBounded_iff s).mp h)).full e he
  obtain ⟨l, hl⟩ := List.exists_mem_of_ne_nil _ hfull
  rw [State.take_rig] at he
  exact takenRig_stamps s c (e.generation, l.id)
    (List.mem_map.mpr ⟨(e.generation, l), mem_datedLegs.mpr ⟨e, he, hl, rfl⟩, rfl⟩)

/-! ### The tempo (R110, R124) -/

/-- The Tempo Engine of a take: computed again with the ratio and tempo of the scene, then at the new division. -/
theorem State.take_tempo (s : State) (c : Change) : (s.take c).tempo =
    (Tempo.recompute { s.tempo with
      ratio := c.copy.ratio
      base := if s.tempo.state = .free then c.copy.tempo.getD s.tempo.base else s.tempo.base }).newDivision
      s.click.pattern.division (takenPattern s c).division := by
  unfold State.take
  dsimp only
  rw [State.takeReport_sameBut _ c _ .tempo (by decide)]
  rfl

theorem Tempo.newDivision_eq (t : Tempo) (before now : Nat) : t.newDivision before now =
    { t with clickIndex := if now = before then t.clickIndex else t.phase.toNat * now / 2 ^ 32 } := by
  unfold Tempo.newDivision
  by_cases h : before = now
  · rw [if_pos h, if_pos h.symm]
  · rw [if_neg h, if_neg (Ne.symm h)]
    rfl

theorem State.take_takenTempo (s : State) (c : Change) : (s.take c).tempo = takenTempo s c (s.take c).tempo := by
  rw [State.take_tempo, Tempo.newDivision_eq]
  rfl

theorem State.take_tempoInStep (s : State) (c : Change) : tempoInStep (s.take c) := by
  rw [tempoInStep, State.take_tempo, Tempo.newDivision_eq]
  obtain ⟨heff, hclamp, hinc, hun⟩ := Tempo.recompute_spec { s.tempo with
    ratio := c.copy.ratio
    base := if s.tempo.state = .free then c.copy.tempo.getD s.tempo.base else s.tempo.base }
  exact ⟨heff, hclamp, hinc⟩

theorem State.take_click (s : State) (c : Change) :
    (s.take c).click = { s.click with pattern := takenPattern s c } := by
  unfold State.take
  dsimp only
  rw [State.takeReport_sameBut _ c _ .click (by decide)]
  rfl

/-! ### The position and the report (R111, R112) -/

theorem SetMemory.takePosition_eq (m : SetMemory) (p : Position) (hadScene : Bool) (x : Target) :
    m.takePosition p hadScene x = if p.song = some x.song ∧ hadScene = true then p
      else ⟨some x.song, -((m.song x.song).countInBars : Int), 0, false⟩ := by
  unfold SetMemory.takePosition
  by_cases hs : p.song = some x.song <;> cases hadScene <;> simp [hs]

/-- A song change or first scene sets the bar to 0 where the song has no count-in (R111). -/
theorem takenPosition_started (s : State) (c : Change) :
    ((s.scene.position.song ≠ some c.target.song || !s.scene.current.isSome) && (takenPosition s c).bar = 0) = true ↔
      (s.scene.position.song ≠ some c.target.song ∨ s.scene.current = none) ∧
        (s.mem.song c.target.song).countInBars = 0 := by
  rw [takenPosition]
  by_cases hs : s.scene.position.song = some c.target.song <;> cases hc : s.scene.current <;> simp [hs]

theorem takenPosition_song (s : State) (c : Change) : (takenPosition s c).song = some c.target.song := by
  unfold takenPosition
  split
  · rename_i h
    exact h.1
  · rfl

/-- The five stages of a take before its report. -/
def State.handedOver (s : State) (c : Change) : State :=
  ((((s.takeBanks c).takePrograms c).takeTempo c).handover c.copy.pattern.val).takePosition s.scene.current.isSome c

theorem State.handedOver_scene (s : State) (c : Change) : (s.handedOver c).scene = { s.scene with
    generation := s.scene.generation + 1
    current := some c.target
    meter := c.copy.meter
    position := takenPosition s c } := by
  rw [takenPosition, ← SetMemory.takePosition_eq]
  rfl

theorem State.take_eq (s : State) (c : Change) : s.take c = (s.handedOver c).takeReport c
    ((s.scene.position.song ≠ some c.target.song || !s.scene.current.isSome) && (takenPosition s c).bar = 0) := by
  have hbar : (takenPosition s c).bar = (s.handedOver c).scene.position.bar := by rw [State.handedOver_scene]
  rw [hbar]
  rfl

theorem State.take_scene (s : State) (c : Change) : (s.take c).scene = { s.scene with
    generation := s.scene.generation + 1
    current := some c.target
    staged := none
    meter := c.copy.meter
    position := takenPosition s c } := by
  rw [State.take_eq, State.takeReport_scene, State.handedOver_scene]

/-- SONG START is raised in SHOW (R111). -/
theorem State.songStart_show {s : State} {song : Nat} (h : s.scene.position.song = some song)
    (hm : s.scene.mode = .showMode) : s.songStart = s.raise (.songStart song (s.mem.song song).tag s.scene.generation) := by
  rw [State.songStart, hm, h]

theorem State.songStart_setup {s : State} (hm : s.scene.mode ≠ .showMode) : s.songStart = s := by
  unfold State.songStart
  split
  · contradiction
  · rfl

/-- The desk `d` once a take to `c` has been reported, with the tag of its song, the generation and the position that it
leaves; where `starts` holds, SONG START follows SCENE TAKEN (R111, R112). -/
def takenDesk (d : Desk) (now : StageTime) (c : Change) (tag : BitVec 16) (g : Generation) (p : Position) (starts : Prop)
    [Decidable starts] : Desk :=
  (((if starts then
    (d.raise (.sceneTaken c.target.song c.target.scene tag g c.origin)).raise (.songStart c.target.song tag g)
  else d.raise (.sceneTaken c.target.song c.target.scene tag g c.origin)).record
    { time := now, kind := .sceneTaken, origin := some c.origin, output := none,
      song := some c.target.song, scene := some c.target.scene,
      generation := some g, channel := none, detail := none,
      cueTag := c.copy.cueTag, songTag := some tag }).report .sceneTakes 0).raise (.position p.song p.bar p.beat g)

theorem takenDesk_congr {d : Desk} {now : StageTime} {c : Change} {tag : BitVec 16} {g : Generation} {p : Position}
    {a b : Prop} [Decidable a] [Decidable b] (h : a ↔ b) :
    takenDesk d now c tag g p a = takenDesk d now c tag g p b := by
  simp only [takenDesk, h]

theorem State.startedSong_eq {s : State} {song : Nat} (h : s.scene.position.song = some song) (started : Bool) :
    (if started = true then s.songStart else s) = if started = true ∧ s.scene.mode = .showMode then
      s.raise (.songStart song (s.mem.song song).tag s.scene.generation) else s := by
  by_cases hs : started = true
  · rw [if_pos hs]
    by_cases hm : s.scene.mode = .showMode
    · rw [if_pos ⟨hs, hm⟩, State.songStart_show h hm]
    · rw [if_neg fun k => hm k.2, State.songStart_setup hm]
  · rw [if_neg hs, if_neg fun k => hs k.1]

/-- The reports of a take (R112). -/
theorem State.takeReport_takenDesk {s : State} {c : Change} (h : s.scene.position.song = some c.target.song)
    (started : Bool) : (s.takeReport c started).desk =
      takenDesk s.desk s.time c (s.mem.song c.target.song).tag s.scene.generation s.scene.position
        (started = true ∧ s.scene.mode = .showMode) := by
  unfold State.takeReport takenDesk
  dsimp only
  rw [State.startedSong_eq (song := c.target.song) (by exact h)]
  by_cases hs : started = true ∧ s.scene.mode = .showMode <;>
    simp [hs, State.raisePosition, State.report, State.record, State.raise, emptyRecord]

theorem State.take_takenDesk (s : State) (c : Change) : (s.take c).desk =
    takenDesk (takenRig s c).desk s.time c (s.mem.song c.target.song).tag (s.scene.generation + 1) (takenPosition s c)
      ((s.scene.position.song ≠ some c.target.song ∨ s.scene.current = none) ∧
        (s.mem.song c.target.song).countInBars = 0 ∧ s.scene.mode = .showMode) := by
  have hscene := s.handedOver_scene c
  have hsong : (s.handedOver c).scene.position.song = some c.target.song := by
    rw [hscene]
    exact takenPosition_song s c
  have hdesk : (s.handedOver c).desk = (takenRig s c).desk := rfl
  have hmem : (s.handedOver c).mem = s.mem := rfl
  have htime : (s.handedOver c).time = s.time := rfl
  rw [State.take_eq, State.takeReport_takenDesk hsong, hscene, hdesk, hmem, htime]
  exact takenDesk_congr ((and_congr_left' (takenPosition_started s c)).trans and_assoc)

/-- Settles O26: the five stages of a take, one by one, and its report. -/
theorem takeEffects : Obligations.TakeEffects := by
  refine ⟨settingCases, fun s c hbounded => ⟨s.take_sameBut c, s.take_scene c, (s.take_slot c).2,
    State.take_generations hbounded c, ?_, s.take_takenTempo c, s.take_tempoInStep c, s.take_click c, ?_, ?_, ?_, ?_⟩⟩
  · intro o d a g hg
    rw [State.take_rig] at hg
    exact Rig.applySettings_redirects (horizonRig s) s.takeMoment s.mem.header.spillLimit c.copy.settings o d a g hg
  · rw [State.take_rig]
    rfl
  · rw [State.take_rig]
    rfl
  · rw [State.take_rig]
    rfl
  · rw [State.take_scene]
    exact State.take_takenDesk s c

end Sys2Proof.Machine
end

section
/-! The scene requests of the control ports that are refused (O22), and CANCEL, FREEZE, THAW and STEP (O23, O24, O25). -/
namespace Sys2Proof.Machine

/-! ### Refused requests (R97) -/

section
variable {s : State} {g : Origin} {ask : SceneAsk}

/-- Outside SHOW every scene request is refused MODE. -/
theorem State.judge_setup (hm : s.scene.mode = .setupMode) : s.judge g ask = .error ⟨.mode, none⟩ :=
  if_pos (by simp [hm])

theorem State.judge_unresolved (hm : s.scene.mode = .showMode) {st : Status} (h : Unresolved s (s.rank g) ask st) :
    s.judge g ask = .error ⟨st, none⟩ := by
  rw [State.judge_show hm, h.resolve]

/-- A request that resolves is judged by its target. -/
theorem State.judge_resolves (hm : s.scene.mode = .showMode) {song scene : Nat}
    (h : Resolves s (s.rank g) ask song scene) : s.judge g ask = s.checkTarget (s.rank g) (song, scene) := by
  rw [State.judge_show hm, h.resolve]

end

theorem State.checkTarget_outranked {s : State} {rank song scene : Nat} (hsong : song < s.mem.header.setlistLength)
    (hscene : scene < (s.mem.song song).sceneCount)
    (hnew : ∀ c, s.scene.current = some c → ¬(c.song = song ∧ c.scene = scene)) {c : Change}
    (hc : s.scene.staged = some c) (hlow : rank < c.rank) :
    s.checkTarget rank (song, scene) = .error ⟨.outranked, some (song, scene)⟩ := by
  rw [State.checkTarget_slot hsong hscene hnew, hc]
  exact if_pos hlow

/-- A scene request that its checks refuse is answered with their status (R97). -/
theorem State.portRequest_refuses {s : State} {p : Port} {ask : SceneAsk} {octet : Nat} {e : Refused}
    (hq : (decodeQuantize octet).isSome = true) (h : s.judge (portOrigin p) ask = .error e) :
    s.portRequest p ask octet = s.answer p e.status [] := by
  obtain ⟨q, hq⟩ := Option.isSome_iff_exists.mp hq
  simp only [State.portRequest, hq, h]

/-- Settles O22: each clause is one refusal of `State.judge`, and a refusal is only an answer. -/
theorem goRefused : Obligations.GoRefused := by
  intro s p r rest i row ask octet form hheads
  rw [form.exec hheads]
  refine ⟨fun hq => ?_, fun hq => ?_⟩
  · rw [State.portRequest, hq]
    exact onlyAnswers_answer hheads _ _
  have refuse : ∀ {e : Refused}, s.judge (portOrigin p) ask = .error e →
      OnlyAnswers s (.next (s.portRequest p ask octet)) p r rest e.status [] := fun h => by
    rw [State.portRequest_refuses hq h]
    exact onlyAnswers_answer hheads _ _
  refine ⟨fun hm => refuse (State.judge_setup hm),
    fun hm => ⟨fun st h => refuse (State.judge_unresolved hm h), fun song scene h => ?_⟩⟩
  have hjudge := State.judge_resolves hm h
  exact ⟨fun hrange => refuse (hjudge.trans (State.checkTarget_range hrange)), fun hsong hscene =>
    ⟨fun c hc h1 h2 => refuse (hjudge.trans (State.checkTarget_already hsong hscene hc h1 h2)),
      fun hnew c hc hlow => refuse (hjudge.trans (State.checkTarget_outranked hsong hscene hnew hc hlow))⟩⟩

/-! ### The commands that act on the slot, in SHOW only -/

section
variable {s : State} {p : Port} {r : Request} {rest : List Request}

theorem exec_cancel (h : Heads s p .cancel r rest) : exec (.cancel p) s = .next (s.cancelRequest p r) :=
  whenLive_serve_of_heads h _

theorem exec_freeze (h : Heads s p .freeze r rest) : exec (.freeze p) s = .next (s.freezeRequest p r) :=
  whenLive_serve_of_heads h _

theorem exec_thaw (h : Heads s p .thaw r rest) : exec (.thaw p) s = .next (s.thawRequest p r) :=
  whenLive_serve_of_heads h _

theorem exec_step (h : Heads s p .step r rest) : exec (.step p) s = .next (s.stepRequest p r) :=
  whenLive_serve_of_heads h _

end

/-- In SHOW the mode check of a request lets it pass. -/
theorem ite_notShow {α : Type} {s : State} (hm : s.scene.mode = .showMode) (a b : α) :
    (if s.scene.mode ≠ .showMode then a else b) = b := if_neg (by simp [hm])

/-- In SETUP the mode check of a request refuses it. -/
theorem ite_notShow_setup {α : Type} {s : State} (hm : s.scene.mode = .setupMode) (a b : α) :
    (if s.scene.mode ≠ .showMode then a else b) = a := if_pos (by simp [hm])

/-! ### CANCEL (R102) -/

/-- Settles O23: the branches of CANCEL; the last is its answer, the emptied slot and its report. -/
theorem cancelRule : Obligations.CancelRule := by
  intro s p r rest h
  rw [exec_cancel h, State.cancelRequest]
  refine ⟨fun hm => ?_, fun hm => ⟨fun hnone => ?_, fun c hc => ⟨fun hlow => ?_, fun hhigh => ?_⟩⟩⟩
  · rw [ite_notShow_setup hm]
    exact onlyAnswers_answer h _ _
  all_goals rw [ite_notShow hm]
  · rw [hnone]
    exact onlyAnswers_answer h _ _
  · simp only [hc, if_pos hlow]
    exact onlyAnswers_answer h _ _
  · simp only [hc, if_neg (Nat.not_lt.mpr hhigh)]
    obtain ⟨-, hr, -⟩ := h
    have hdesk := s.answer_desk p r rest .done [] hr
    have hframe : SameBut [.mem, .desk, .router, .scene] s
        ((s.answer p .done []).dropStaged.reportSuperseded c .cancelled) :=
      (((s.answer_sameBut p .done []).mono (by simp)).trans ((State.dropStaged_sameBut _).mono (by simp))).trans
        ((State.reportSuperseded_sameBut _ c .cancelled).mono (by simp))
    refine ⟨_, rfl, hframe, rfl, rfl, rfl, rfl, rfl, rfl, ?_⟩
    rw [← hdesk]
    rfl

/-! ### FREEZE and THAW (R103, R108) -/

/-- What an answer and then a new frozen mark leave. -/
theorem State.answer_setFrozen {s : State} {p : Port} {r : Request} {rest : List Request}
    (hr : (s.port p).requests = r :: rest) (b : Bool) :
    SameBut [.desk, .scene] s ((s.answer p .done []).setFrozen b) ∧
      ((s.answer p .done []).setFrozen b).desk = answeredDesk s p r rest .done [] ∧
      ((s.answer p .done []).setFrozen b).scene = { s.scene with frozen := b } :=
  ⟨((s.answer_sameBut p .done []).mono (by simp)).trans ((State.setScene_sameBut _ _).mono (by simp)),
    s.answer_desk p r rest .done [] hr, rfl⟩

/-- A thaw takes a READY change of quantize IMMEDIATE. -/
theorem State.thaw_takes {s : State} {c : Change} (hc : s.scene.staged = some c) (hr : c.preparation = .ready)
    (hq : c.quantize = .immediate) : s.thaw = (s.setFrozen false).take c := by
  have h : (s.setFrozen false).scene.takeable (fun q => q = .immediate) = some c :=
    (SceneEngine.takeable_spec _ _ c).mpr ⟨hc, hr, rfl, by simp [hq]⟩
  simp only [State.thaw, h]

/-- A thaw with no such change only clears the frozen mark. -/
theorem State.thaw_holds {s : State}
    (h : ∀ c, s.scene.staged = some c → c.preparation = .preparing ∨ c.quantize ≠ .immediate) :
    s.thaw = s.setFrozen false := by
  have hnone : (s.setFrozen false).scene.takeable (fun q => q = .immediate) = none := by
    refine Option.eq_none_iff_forall_ne_some.mpr fun c hc => ?_
    obtain ⟨hs, hr, -, hq⟩ := (SceneEngine.takeable_spec _ _ c).mp hc
    rcases h c hs with hp | hq'
    · exact nomatch hr.symm.trans hp
    · exact hq' (of_decide_eq_true hq)
  simp only [State.thaw, hnone]

/-- Settles O24: FREEZE and THAW by the mode, the frozen mark and the change that a thaw takes. -/
theorem freezeAndThaw : Obligations.FreezeAndThaw := by
  intro s p r rest
  refine ⟨fun h => ?_, fun h => ?_⟩
  · rw [exec_freeze h, State.freezeRequest]
    refine ⟨fun hm => ?_, fun hm => ?_⟩
    · rw [ite_notShow_setup hm]
      exact onlyAnswers_answer h _ _
    · rw [ite_notShow hm]
      obtain ⟨-, hr, -⟩ := h
      exact ⟨_, rfl, State.answer_setFrozen hr true⟩
  · rw [exec_thaw h, State.thawRequest]
    refine ⟨fun hm => ?_, fun hm hf => ?_, fun hm hf hheld => ?_, fun c hm hf hc hready hq => ?_⟩
    · rw [ite_notShow_setup hm]
      exact onlyAnswers_answer h _ _
    all_goals rw [ite_notShow hm, hf]
    · exact onlyAnswers_answer h _ _
    · obtain ⟨-, hr, -⟩ := h
      refine ⟨_, rfl, ?_⟩
      rw [if_pos rfl, State.thaw_holds (s := s.answer p .done []) hheld]
      exact State.answer_setFrozen hr false
    · obtain ⟨-, hr, -⟩ := h
      obtain ⟨hframe, hdesk, hscene⟩ := State.answer_setFrozen hr false
      exact ⟨_, _, hframe, hdesk, hscene, rfl, State.thaw_takes (s := s.answer p .done []) hc hready hq⟩

/-! ### STEP (R104) -/

/-- A take leaves the requests of every port waiting. -/
theorem State.take_requests (s : State) (c : Change) (p : Port) : ((s.take c).port p).requests = (s.port p).requests := by
  obtain ⟨hrequests, -⟩ := (s.take_desk c).sameQueue p
  exact hrequests

/-- Settles O25: STEP by the mode and the slot; the answer follows the take. -/
theorem stepRule : Obligations.StepRule := by
  intro s p r rest h
  rw [exec_step h, State.stepRequest]
  refine ⟨fun hm => ?_, fun hm hnone => ?_, fun c hm hc hready => ?_⟩
  · rw [ite_notShow_setup hm]
    exact onlyAnswers_answer h _ _
  all_goals rw [ite_notShow hm]
  · cases hc : s.scene.staged with
    | none => exact onlyAnswers_answer h _ _
    | some c =>
      have hp : c.preparation ≠ .ready := by simp [hnone c hc]
      simp only [if_neg hp]
      exact onlyAnswers_answer h _ _
  · simp only [hc, if_pos hready]
    obtain ⟨-, hr, -⟩ := h
    refine ⟨_, rfl, State.answer_sameBut _ _ _ _,
      State.answer_desk _ p r rest _ _ ((s.take_requests c p).trans hr), ?_⟩
    have hscene : ((s.take c).answer p .done []).scene = (s.take c).scene :=
      State.answer_sameBut _ p .done [] .scene (by decide)
    rw [hscene, State.take_scene]

end Sys2Proof.Machine
end

section
/-! ENTER SHOW (O29): its refusals, the change of mode, and the request that it makes for the first scene (R117, R182). -/
namespace Sys2Proof.Machine

theorem exec_enterShow {s : State} {p : Port} {r : Request} {rest : List Request} (h : Heads s p .enterShow r rest) :
    exec (.enterShow p) s = .next (s.enterShowRequest p r) := whenLive_serve_of_heads h _

/-- The part once a change to SHOW has been answered and reported, before its request for the first scene. -/
def State.shown (s : State) (p : Port) : State := ((s.setMode .showMode).answer p .done []).reportMode

theorem State.shown_desk {s : State} {p : Port} {r : Request} {rest : List Request}
    (h : (s.port p).requests = r :: rest) : (s.shown p).desk = modeDesk s p r rest .showMode := by
  rw [modeDesk, ← s.answer_desk p r rest .done [] h]
  rfl

theorem State.shown_sameBut (s : State) (p : Port) : SameBut [.desk, .scene] s (s.shown p) :=
  (((s.setScene_sameBut _).mono (by simp)).trans ((State.answer_sameBut _ p .done []).mono (by simp))).trans
    ((State.reportMode_sameBut _).mono (by simp))

/-- The request for the first scene is accepted where it exists, no scene is current and no change staged. -/
theorem State.modeRequest_accepts {s : State} (hm : s.scene.mode = .showMode) (hset : 0 < s.mem.header.setlistLength)
    (hscenes : 0 < (s.mem.song 0).sceneCount) (hcurrent : s.scene.current = none) (hstaged : s.scene.staged = none) :
    s.modeRequest = s.accept .modeChange (0, 0) (some .immediate) 0 := by
  have h : s.judge .modeChange (.song 0 0) = .ok (0, 0) :=
    State.judge_accepts hm (.song 0 0) hset hscenes (by simp [hcurrent]) (by simp [hstaged])
  rw [State.modeRequest, h]

/-- The request for the first scene is refused RANGE where song 0 has no scene, to both ports and with a record. -/
theorem State.modeRequest_refused {s : State} (hm : s.scene.mode = .showMode) (hscenes : (s.mem.song 0).sceneCount = 0) :
    s.modeRequest = (s.raise (.changeRefused (some 0) (some 0) .modeChange (.refusal .range) none)).recordRefused
      .modeChange (some (0, 0)) (.refusal .range) 0 := by
  have h : s.judge .modeChange (.song 0 0) = .error ⟨.range, some (0, 0)⟩ :=
    (State.judge_show hm).trans (State.checkTarget_range (.inr (Nat.le_of_eq hscenes)))
  rw [State.modeRequest, h]
  rfl

/-- Settles O29: its two refusals, and the request for the first scene on the part in SHOW. -/
theorem enterShowRule : Obligations.EnterShowRule := by
  intro s p r rest h
  rw [exec_enterShow h, State.enterShowRequest]
  refine ⟨fun hm => ?_, fun hm hempty => ?_, fun hm hset hidle => ⟨fun hscenes => ?_, fun hscenes => ?_⟩⟩
  · rw [if_pos hm]
    exact onlyAnswers_answer h _ _
  all_goals rw [if_neg (by simp [hm])]
  · rw [if_pos hempty]
    exact onlyAnswers_answer h _ _
  all_goals
    rw [if_neg (Nat.ne_of_gt hset)]
    obtain ⟨-, hr, -⟩ := h
  · obtain ⟨hcurrent, hstaged, -, -, -, -, hactive, -⟩ := hidle hm
    have hrun : (s.shown p).modeRequest = (s.shown p).accept .modeChange (0, 0) (some .immediate) 0 :=
      State.modeRequest_accepts rfl hset hscenes hcurrent hstaged
    obtain ⟨hframe, hscene, hmem, hrouter, hdesk, -⟩ := (s.shown p).accept_spec .modeChange 0 0 (some .immediate) 0
    refine ⟨_, congrArg _ hrun, ((s.shown_sameBut p).mono (by simp)).trans hframe,
      (hdesk hstaged).trans (State.shown_desk hr), hscene, rfl, hmem, ?_⟩
    rw [hrouter]
    exact ⟨hactive, rfl, rfl, rfl⟩
  · have hrun := State.modeRequest_refused (s := s.shown p) rfl hscenes
    refine ⟨_, congrArg _ hrun, (s.shown_sameBut p).trans (((State.raise_sameBut _ _).trans
      (State.recordRefused_sameBut _ _ _ _ _)).mono (by simp)), rfl, ?_⟩
    rw [← State.shown_desk hr]
    rfl

end Sys2Proof.Machine
end

section
/-! The end of a preparation (O27, O28): what it leaves when its run passes, and the first check that fails (R106 to
R108). -/
namespace Sys2Proof.Machine

/-! ### The two commands -/

section
variable {s : State} {c : Change} (hl : s.live = true) (hc : s.scene.staged = some c) (hp : c.preparation = .preparing)
include hl hc hp

theorem exec_preparationComplete (h : s.mem.checkRun c.copy = none) :
    exec .preparationComplete s = .next (s.completePreparation c) := by
  refine (whenLive_of_live (fun s => s.preparationEnds true) hl).trans (congrArg _ ?_)
  simp [State.preparationEnds, State.endPreparation, hc, hp, h]

theorem exec_preparationCheckFail {reason : Reason} {offset : Nat} (h : s.mem.checkRun c.copy = some (reason, offset)) :
    exec .preparationCheckFail s = .next (s.failPreparation c reason offset) := by
  refine (whenLive_of_live (fun s => s.preparationEnds false) hl).trans (congrArg _ ?_)
  simp [State.preparationEnds, State.endPreparation, hc, hp, h]

end

/-! ### A preparation that passes (R107, R108) -/

/-- The part once the preparation of `c` has passed and been reported, before a take at once. -/
def State.prepared (s : State) (c : Change) : State :=
  (((s.setRouter { s.router with standby := s.mem.run c.copy.layerFirst c.copy.layerCount, fill := .filled }).setMem
    { s.mem with underCopy := none }).setScene
    { s.scene with staged := some { c with preparation := .ready } }).raiseFor c.origin
    (.changeReady c.target.song c.target.scene c.origin c.quantize)

theorem State.prepared_sameBut (s : State) (c : Change) : SameBut [.mem, .desk, .router, .scene] s (s.prepared c) :=
  ((((s.setRouter_sameBut _).mono (by simp)).trans ((State.setMem_sameBut _ _).mono (by simp))).trans
    ((State.setScene_sameBut _ _).mono (by simp))).trans ((State.raiseFor_sameBut _ _ _).mono (by simp))

/-- A preparation that passes is followed by the take of a change of quantize IMMEDIATE, unless the frozen mark is
set. -/
theorem State.completePreparation_eq (s : State) (c : Change) : s.completePreparation c =
    if c.quantize = .immediate ∧ s.scene.frozen = false then (s.prepared c).take { c with preparation := .ready }
    else s.prepared c := by
  unfold State.completePreparation
  dsimp only
  split
  · next d hd =>
    obtain ⟨hstaged, -, hfrozen, hq⟩ := (SceneEngine.takeable_spec _ _ d).mp hd
    obtain rfl := Option.some.inj hstaged
    exact (if_pos ⟨of_decide_eq_true hq, hfrozen⟩).symm
  · next hnone =>
    refine (if_neg fun ⟨hq, hfrozen⟩ => ?_).symm
    have htake := (SceneEngine.takeable_spec (s.prepared c).scene (fun q => q = .immediate)
      { c with preparation := .ready }).mpr ⟨rfl, rfl, hfrozen, decide_eq_true hq⟩
    exact nomatch hnone.symm.trans htake

/-- Settles O27: the preparation as `State.prepared` leaves it, and the take at once. -/
theorem preparationCompletes : Obligations.PreparationCompletes := fun s c hl hc hp h =>
  ⟨s.prepared c, _, exec_preparationComplete hl hc hp h, s.prepared_sameBut c, rfl, rfl, rfl, rfl,
    s.completePreparation_eq c⟩

/-! ### The checks of one entry (R106) -/

section
variable {m : SetMemory} {first k : Nat}

/-- An entry that is not disordered stands in the order of R43, and no other does. -/
theorem not_entryDisordered_iff : ¬entryDisordered m first k ↔
    (k ≠ 0 → (m.layer (first + k - 1)).sourceChannel < (m.layer (first + k)).sourceChannel ∨
      (m.layer (first + k - 1)).sourceChannel = (m.layer (first + k)).sourceChannel ∧
        (m.layer (first + k - 1)).keyLow ≤ (m.layer (first + k)).keyLow) := by
  unfold entryDisordered
  omega

/-- An entry passes the checks, or fails one of them first. -/
theorem entryPasses_or_failsFor (m : SetMemory) (first k : Nat) :
    entryPasses m first k ∨ ∃ reason, FailsFor m first k reason := by
  by_cases hd : entryDisordered m first k
  · exact .inr ⟨_, .order hd⟩
  by_cases hi : (m.layer (first + k)).inputs = 0
  · exact .inr ⟨_, .noInputs hd hi⟩
  by_cases ho : (m.layer (first + k)).action = .route ∧ (m.layer (first + k)).outputs = 0
  · obtain ⟨hroute, hempty⟩ := ho
    exact .inr ⟨_, .noOutputs hd hi hroute hempty⟩
  · exact .inl ⟨not_entryDisordered_iff.mp hd, hi, fun hroute hempty => ho ⟨hroute, hempty⟩⟩

theorem not_entryPasses_of_failsFor {reason : Reason} (h : FailsFor m first k reason) : ¬entryPasses m first k := by
  rintro ⟨horder, hinputs, houtputs⟩
  cases h with
  | order hd => exact not_entryDisordered_iff.mpr horder hd
  | noInputs _ hi => exact hinputs hi
  | noOutputs _ _ hroute hempty => exact houtputs hroute hempty

/-- Whether an entry lies below the one before it, as `checkEntries` decides it (R43). -/
def disordered (before : Option Layer) (e : Layer) : Bool :=
  match before with
  | none => false
  | some b => e.sourceChannel < b.sourceChannel || (e.sourceChannel = b.sourceChannel && e.keyLow < b.keyLow)

theorem checkEntries_cons (before : Option Layer) (offset : Nat) (e : Layer) (rest : List Layer) :
    checkEntries before offset (e :: rest) =
      if disordered before e then some (.order, offset)
      else if e.inputs = 0 then some (.noInputs, offset)
      else if e.action = .route && e.outputs = 0 then some (.noOutputs, offset)
      else checkEntries (some e) (offset + 1) rest := rfl

/-- The entry before entry `k` of a run. -/
def entryBefore (m : SetMemory) (first k : Nat) : Option Layer := if k = 0 then none else some (m.layer (first + k - 1))

theorem disordered_entryBefore :
    disordered (entryBefore m first k) (m.layer (first + k)) = true ↔ entryDisordered m first k := by
  unfold entryBefore entryDisordered
  by_cases hk : k = 0 <;> simp [hk, disordered]

variable (rest : List Layer)

/-- The check of a run ends at an entry that fails. -/
theorem checkEntries_of_failsFor {reason : Reason} (h : FailsFor m first k reason) :
    checkEntries (entryBefore m first k) k (m.layer (first + k) :: rest) = some (reason, k) := by
  rw [checkEntries_cons]
  cases h with
  | order hd => exact if_pos (disordered_entryBefore.mpr hd)
  | noInputs hd hi => rw [if_neg (disordered_entryBefore.not.mpr hd), if_pos hi]
  | noOutputs hd hi hroute hempty =>
    rw [if_neg (disordered_entryBefore.not.mpr hd), if_neg hi, if_pos (by simp [hroute, hempty])]

/-- The check of a run goes on behind an entry that passes. -/
theorem checkEntries_of_entryPasses (h : entryPasses m first k) :
    checkEntries (entryBefore m first k) k (m.layer (first + k) :: rest) =
      checkEntries (entryBefore m first (k + 1)) (k + 1) rest := by
  obtain ⟨horder, hinputs, houtputs⟩ := h
  have hd := disordered_entryBefore.not.mpr (not_entryDisordered_iff.mpr horder)
  rw [checkEntries_cons, if_neg hd, if_neg hinputs, if_neg (by simpa using houtputs)]
  rfl

end

/-! ### The first check of a run that fails (R106) -/

/-- The check from entry `k` on, of `n` entries: all pass, or it names the first that does not, with its reason. -/
theorem checkEntries_run (m : SetMemory) (first n k : Nat) :
    (checkEntries (entryBefore m first k) k ((List.range' k n).map fun j => m.layer (first + j)) = none ∧
      ∀ j, k ≤ j → j < k + n → entryPasses m first j) ∨
    ∃ reason i, checkEntries (entryBefore m first k) k ((List.range' k n).map fun j => m.layer (first + j)) =
        some (reason, i) ∧ i < k + n ∧ (∀ j, k ≤ j → j < i → entryPasses m first j) ∧ FailsFor m first i reason := by
  induction n generalizing k with
  | zero => exact .inl ⟨rfl, fun j hk hj => absurd hj (Nat.not_lt.mpr hk)⟩
  | succ n ih =>
    rw [List.range'_succ, List.map_cons]
    rcases entryPasses_or_failsFor m first k with hpass | ⟨reason, hfail⟩
    · have first_passes : ∀ {j}, k ≤ j → (k + 1 ≤ j → entryPasses m first j) → entryPasses m first j := fun hk hj =>
        (Nat.eq_or_lt_of_le hk).elim (fun he => he ▸ hpass) hj
      rw [checkEntries_of_entryPasses _ hpass]
      rcases ih (k + 1) with ⟨hnone, hall⟩ | ⟨reason, i, hsome, hi, hbefore, hfail⟩
      · exact .inl ⟨hnone, fun j hk hj => first_passes hk fun h => hall j h (by omega)⟩
      · exact .inr ⟨reason, i, hsome, by omega, fun j hk hj => first_passes hk fun h => hbefore j h hj, hfail⟩
    · exact .inr ⟨reason, k, checkEntries_of_failsFor _ hfail, by omega, fun j hk hj => absurd hj (Nat.not_lt.mpr hk), hfail⟩

theorem SetMemory.checkRun_bounds (m : SetMemory) {c : Scene} (h : 1024 < c.layerFirst + c.layerCount) :
    m.checkRun c = some (.bounds, 1024 - c.layerFirst) := if_pos h

section
variable {m : SetMemory} {c : Scene} (h : c.layerFirst + c.layerCount ≤ 1024)
include h

/-- The check of a run within the layer table: all entries pass, or it names the first that does not. -/
theorem SetMemory.checkRun_cases :
    (m.checkRun c = none ∧ ∀ k, k < c.layerCount → entryPasses m c.layerFirst k) ∨
    ∃ reason k, m.checkRun c = some (reason, k) ∧ k < c.layerCount ∧ (∀ j, j < k → entryPasses m c.layerFirst j) ∧
      FailsFor m c.layerFirst k reason := by
  have hrun : m.checkRun c = checkEntries (entryBefore m c.layerFirst 0) 0
      ((List.range' 0 c.layerCount).map fun j => m.layer (c.layerFirst + j)) := by
    rw [SetMemory.checkRun, if_neg (Nat.not_lt.mpr h), SetMemory.run, List.range_eq_range']
    rfl
  rw [hrun]
  simpa using checkEntries_run m c.layerFirst c.layerCount 0

theorem SetMemory.checkRun_none_iff :
    m.checkRun c = none ↔ ∀ k, k < c.layerCount → entryPasses m c.layerFirst k := by
  rcases SetMemory.checkRun_cases (m := m) h with ⟨hnone, hall⟩ | ⟨reason, k, hsome, hk, -, hfail⟩
  · exact iff_of_true hnone hall
  · exact iff_of_false (by simp [hsome]) fun hall => not_entryPasses_of_failsFor hfail (hall k hk)

/-- The check names entry `k` with a reason exactly when it is the first that does not pass, and fails for it. -/
theorem SetMemory.checkRun_some_iff {reason : Reason} {k : Nat} : m.checkRun c = some (reason, k) ↔
    k < c.layerCount ∧ (∀ j, j < k → entryPasses m c.layerFirst j) ∧ FailsFor m c.layerFirst k reason := by
  rcases SetMemory.checkRun_cases (m := m) h with ⟨hnone, hall⟩ | ⟨reason', i, hsome, hi, hbefore, hfail⟩
  · exact iff_of_false (by simp [hnone]) fun ⟨hk, _, hfail⟩ => not_entryPasses_of_failsFor hfail (hall k hk)
  · rw [hsome, Option.some.injEq, Prod.mk.injEq]
    constructor
    · rintro ⟨rfl, rfl⟩
      exact ⟨hi, hbefore, hfail⟩
    · rintro ⟨-, hpasses, hfails⟩
      obtain rfl : i = k := Nat.le_antisymm (Nat.not_lt.mp fun hlt => not_entryPasses_of_failsFor hfails (hbefore k hlt))
        (Nat.not_lt.mp fun hlt => not_entryPasses_of_failsFor hfail (hpasses i hlt))
      have hone := (checkEntries_of_failsFor [] hfail).symm.trans (checkEntries_of_failsFor [] hfails)
      exact Prod.mk.inj (Option.some.inj hone)

end

/-- Settles O28: the checks of a run entry by entry, and the failure of a preparation. -/
theorem preparationFails : Obligations.PreparationFails := by
  refine ⟨fun m c => ⟨m.checkRun_bounds, fun h => ⟨SetMemory.checkRun_none_iff h, fun reason k hsome => ?_⟩⟩,
    fun m c reason k h hk hbefore hfail => (SetMemory.checkRun_some_iff h).mpr ⟨hk, hbefore, hfail⟩,
    fun s c reason offset hl hc hp h => ?_⟩
  · obtain ⟨hk, hbefore, hfail⟩ := (SetMemory.checkRun_some_iff h).mp hsome
    exact ⟨hk, not_entryPasses_of_failsFor hfail, hbefore, hfail⟩
  · exact ⟨_, exec_preparationCheckFail hl hc hp h, (s.failPreparation_sameBut c reason offset).mono (by simp),
      rfl, rfl, rfl, rfl, rfl, rfl⟩

end Sys2Proof.Machine
end

section
/-! Beat boundaries (O32): the counting, the take and the hand-off of one beat (R113, R123 to R125, R138, R139). -/
namespace Sys2Proof.Machine

/-! ### The Tempo Engine's part (R123, R138, R140) -/

section
variable {s : State}

/-- A beat that does not end the holdover only counts. -/
theorem State.tempoBeat_counts (h : ¬lastHoldoverBeat s) : s.tempoBeat = s.setTempo { s.tempo with
    clickIndex := 0
    ownBeats := if s.tempo.state = .locked then s.tempo.ownBeats + 1 else s.tempo.ownBeats
    reference := if s.tempo.state = .holdover
      then { s.tempo.reference with holdoverBeats := s.tempo.reference.holdoverBeats + 1 }
      else s.tempo.reference } := by
  unfold State.tempoBeat
  cases hs : s.tempo.state with
  | holdover =>
    have hlt : s.tempo.reference.holdoverBeats + 1 < 16 := Nat.lt_of_not_le fun hle => h ⟨hs, hle⟩
    simp [hs, hlt, Tempo.setReference]
  | _ => simp [hs]

/-- The sixteenth beat of a holdover returns the state to ACQUIRING, and reports it. -/
theorem State.tempoBeat_last (h : lastHoldoverBeat s) : s.tempoBeat = (s.setTempo { s.tempo with
    clickIndex := 0, state := .acquiring, reference := s.tempo.reference.relisten }).reportLock := by
  obtain ⟨hs, hle⟩ := h
  simp [State.tempoBeat, hs, Nat.not_lt.mpr hle]

end

/-! ### The counting (R113) -/

theorem SceneEngine.countBeat_eq (e : SceneEngine) : e.countBeat = { e with position := countedPosition e } := by
  have hbar : nextBar e.position.bar = if e.position.bar = 32767 then 32767 else e.position.bar + 1 := by
    unfold nextBar
    split
    · assumption
    · rfl
  unfold SceneEngine.countBeat countedPosition SceneEngine.barBoundaryNext
  rw [hbar]
  by_cases h : e.position.newBarOwed = true ∨ e.meter ≤ e.position.beat + 1
  · rw [if_pos (by simpa using h), if_pos h]
  · rw [if_neg (by simpa using h), if_neg h]

/-- The song of a position stays where its beat is counted. -/
theorem countedPosition_song (e : SceneEngine) : (countedPosition e).song = e.position.song := by
  unfold countedPosition
  split <;> rfl

/-- The part with its beat counted by both engines. -/
def State.positioned (s : State) : State :=
  s.tempoBeat.setScene { s.scene with position := countedPosition s.scene }

/-- A beat raises the bar from -1 to 0 (R113). -/
abbrev reachesBarZero (e : SceneEngine) : Prop := e.position.bar = -1 ∧ (countedPosition e).bar = 0

/-- The part once its beat has been counted, with SONG START where the count reaches bar 0. -/
def State.counted (s : State) : State :=
  if reachesBarZero s.scene then s.positioned.songStart else s.positioned

section
variable {s : State}

theorem State.counted_started (h : reachesBarZero s.scene) : s.counted = s.positioned.songStart := if_pos h

theorem State.counted_unstarted (h : ¬reachesBarZero s.scene) : s.counted = s.positioned := if_neg h

end

theorem State.positioned_sameBut (s : State) : SameBut [.desk, .scene, .tempo] s s.positioned :=
  (s.tempoBeat_sameBut.mono (by simp)).trans ((State.setScene_sameBut _ _).mono (by simp))

/-- What the count leaves, whether SONG START follows it or not. -/
theorem State.counted_positioned (s : State) : SameBut [.desk] s.positioned s.counted := by
  by_cases h : reachesBarZero s.scene
  · rw [State.counted_started h]
    exact State.songStart_sameBut _
  · rw [State.counted_unstarted h]
    exact SameBut.rfl' _ _

theorem State.counted_scene (s : State) : s.counted.scene = { s.scene with position := countedPosition s.scene } :=
  s.counted_positioned .scene (by decide)

/-- SONG START is raised only in SHOW with a song (R114). -/
theorem State.songStart_none {s : State} (h : s.scene.mode = .setupMode ∨ s.scene.position.song = none) :
    s.songStart = s := by
  unfold State.songStart
  rcases h with h | h
  · rw [h]
  · cases hm : s.scene.mode <;> rw [h]

/-- SONG START follows the Tempo Engine's part where the count raises the bar from -1 to 0. -/
theorem State.counted_songStarts (s : State) : SongStarts s s.counted s.tempoBeat.desk s.counted.desk := by
  have hmem : s.tempoBeat.mem = s.mem := s.tempoBeat_sameBut .mem (by decide)
  have hsong := countedPosition_song s.scene
  rw [SongStarts, s.counted_scene]
  refine ⟨fun song hm hs hfrom hto => ?_, fun h => ?_⟩
  · rw [State.counted_started ⟨hfrom, hto⟩, State.songStart_show (s := s.positioned) (hsong.trans hs) hm, ← hmem]
    rfl
  · suffices s.counted = s.positioned by rw [this]; rfl
    by_cases hstart : reachesBarZero s.scene
    · rw [State.counted_started hstart]
      obtain ⟨hfrom, hto⟩ := hstart
      rcases h with hm | hs | hbar | hbar
      · exact State.songStart_none (.inl hm)
      · exact State.songStart_none (.inr (hsong.trans hs))
      · exact absurd hfrom hbar
      · exact absurd hto hbar
    · exact State.counted_unstarted hstart

theorem State.tempoBeat_scene (s : State) : s.tempoBeat.scene = s.scene := s.tempoBeat_sameBut .scene (by decide)

theorem State.counted_countsBeat (s : State) : CountsBeat s s.counted := by
  refine ⟨s.positioned_sameBut.trans (s.counted_positioned.mono (by simp)), s.counted_scene, ?_⟩
  have htempo : s.counted.tempo = s.tempoBeat.tempo := s.counted_positioned .tempo (by decide)
  rw [htempo]
  by_cases hlast : lastHoldoverBeat s
  · obtain ⟨hs, -⟩ := id hlast
    have htempo : s.tempoBeat.tempo = { s.tempo with
        clickIndex := 0, state := .acquiring, reference := s.tempo.reference.relisten } := by
      rw [State.tempoBeat_last hlast]
      rfl
    have hdesk : s.tempoBeat.desk = lockDesk s.desk s.time .acquiring s.tempo.source s.tempo.base := by
      rw [State.tempoBeat_last hlast]
      rfl
    rw [htempo]
    refine ⟨by simp [hs], fun h => absurd hlast h, fun h => absurd hs h, fun _ h => absurd hlast h,
      fun _ => ⟨rfl, rfl⟩, _, fun _ => hdesk, fun h => absurd hlast h, s.counted_songStarts⟩
  · rw [State.tempoBeat_counts hlast]
    refine ⟨rfl, fun _ => rfl, fun h => if_neg h, fun h _ => if_pos h, fun h => absurd h hlast, _,
      fun h => absurd h hlast, fun _ => ?_, s.counted_songStarts⟩
    rw [State.tempoBeat_counts hlast]
    rfl

/-! ### The hand-off (R113, R125, R146 to R149) -/

theorem ClickGen.ask_eq (g : ClickGen) (x : Option Click) :
    g.ask x = { g with waiting := g.waiting ++ if g.audio = .present then x.toList else [] } := by
  cases g with
  | mk pattern voices master mute audio => cases audio <;> cases x <;> simp [ClickGen.ask]

theorem Pattern.beatClick_toList (p : Pattern) (bar : Int) (beat : Nat) :
    (p.beatClick bar beat).toList = beatClicks p bar beat := by
  unfold Pattern.beatClick beatClicks
  split
  · rfl
  · cases p.levels[beat % p.levels.length]? with
    | none => rfl
    | some l => cases l <;> rfl

theorem State.handOff_handsOff (u : State) : HandsOff u u.handOff := by
  refine ⟨u.handOff_sameBut.mono (by simp), ?_, ?_, rfl⟩
  · rw [← Pattern.beatClick_toList]
    exact ClickGen.ask_eq _ _
  · show u.tempo.pulseLine u.time _ = _
    by_cases hbeat : u.scene.position.beat = 0 <;> simp [Tempo.pulseLine, after, hbeat]

/-! ### A whole beat (R113) -/

theorem SceneEngine.barBoundaryNext_iff (e : SceneEngine) :
    e.barBoundaryNext = true ↔ e.position.newBarOwed = true ∨ e.meter ≤ e.position.beat + 1 := by
  simp [SceneEngine.barBoundaryNext]

/-- The quantize settings whose take point is the next beat boundary (R108). -/
def SceneEngine.takePoint (e : SceneEngine) (q : Quantize) : Bool := q = .beat || (q = .bar && e.barBoundaryNext)

/-- The change that a beat takes is the one whose take point it is. -/
theorem State.counted_takeable (s : State) (c : Change) :
    s.counted.scene.takeable s.scene.takePoint = some c ↔ TakesAt s c := by
  rw [SceneEngine.takeable_spec, s.counted_scene]
  simp only [TakesAt, SceneEngine.takePoint, Bool.or_eq_true, Bool.and_eq_true, decide_eq_true_eq,
    SceneEngine.barBoundaryNext_iff]

/-- Stages 1 and 2 of a beat boundary leave the part counted. -/
theorem State.sceneBeat_counted (s : State) :
    (if s.tempoBeat.scene.position.bar = -1 && (s.tempoBeat.setScene s.tempoBeat.scene.countBeat).scene.position.bar = 0
      then (s.tempoBeat.setScene s.tempoBeat.scene.countBeat).songStart
      else s.tempoBeat.setScene s.tempoBeat.scene.countBeat) = s.counted := by
  rw [SceneEngine.countBeat_eq, s.tempoBeat_scene]
  by_cases h : reachesBarZero s.scene
  · rw [State.counted_started h]
    obtain ⟨hfrom, hto⟩ := h
    exact if_pos (Bool.and_eq_true_iff.mpr ⟨decide_eq_true hfrom, decide_eq_true hto⟩)
  · rw [State.counted_unstarted h]
    refine if_neg fun k => h ?_
    obtain ⟨hfrom, hto⟩ := Bool.and_eq_true_iff.mp k
    exact ⟨of_decide_eq_true hfrom, of_decide_eq_true hto⟩

/-- A beat hands off the part counted, or the take of the change whose take point it is. -/
theorem State.beat_cases (s : State) : ((∀ c, ¬TakesAt s c) ∧ s.beat = s.counted.handOff) ∨
    ∃ c, TakesAt s c ∧ s.beat = (s.counted.take c).handOff := by
  have hpoint : (fun q : Quantize => decide (q = .beat) || (decide (q = .bar) && s.tempoBeat.scene.barBoundaryNext)) =
      s.scene.takePoint := by
    rw [s.tempoBeat_scene]
    rfl
  unfold State.beat State.sceneBeat
  dsimp only
  rw [s.sceneBeat_counted, hpoint]
  split
  · next c hc => exact .inr ⟨c, (s.counted_takeable c).mp hc, rfl⟩
  · next hnone => exact .inl ⟨fun c hc => Option.eq_none_iff_forall_ne_some.mp hnone c ((s.counted_takeable c).mpr hc), rfl⟩

/-- No slot holds two changes with their take point at one beat. -/
theorem takesAt_unique {s : State} {c d : Change} (hc : TakesAt s c) (hd : TakesAt s d) : c = d := by
  obtain ⟨hc, -⟩ := hc
  obtain ⟨hd, -⟩ := hd
  exact Option.some.inj (hc.symm.trans hd)

theorem State.beat_beatMade (s : State) : BeatMade s s.beat := by
  refine ⟨s.counted, s.counted_countsBeat, ?_⟩
  rcases s.beat_cases with ⟨hnone, hbeat⟩ | ⟨c, hc, hbeat⟩ <;> rw [hbeat]
  · exact ⟨fun _ => s.counted.handOff_handsOff, fun c hc => absurd hc (hnone c)⟩
  · refine ⟨fun hnone => absurd hc (hnone c), fun d hd => ?_⟩
    rw [takesAt_unique hd hc]
    exact State.handOff_handsOff _

/-! ### What a beat leaves -/

section
variable {s u t : State} (hu : CountsBeat s u)
include hu

theorem countsBeat_clickIndex : u.tempo.clickIndex = 0 := by
  obtain ⟨-, -, htempo, -⟩ := hu
  rw [htempo]

/-- The scene after a beat without a take: its position is counted. -/
theorem handsOff_scene (ht : HandsOff u t) : t.scene = { s.scene with position := countedPosition s.scene } := by
  obtain ⟨-, hscene, -⟩ := hu
  obtain ⟨hframe, -⟩ := ht
  exact (hframe .scene (by decide)).trans hscene

theorem handsOff_sameBut (ht : HandsOff u t) : SameBut [.desk, .scene, .tempo, .click] s t := by
  obtain ⟨hcount, -⟩ := hu
  obtain ⟨hframe, -⟩ := ht
  exact (hcount.mono (by simp)).trans (hframe.mono (by simp))

variable {c : Change} (ht : HandsOff (u.take c) t)
include ht

theorem handsOff_take_sameBut : SameBut takeBlocks s t := by
  obtain ⟨hcount, -⟩ := hu
  obtain ⟨hframe, -⟩ := ht
  exact ((hcount.mono (by simp)).trans (u.take_sameBut c)).trans (hframe.mono (by simp))

/-- The scene after a beat with a take: that of the take, from the position counted. -/
theorem handsOff_take_scene : t.scene = { s.scene with
    generation := s.scene.generation + 1
    current := some c.target
    staged := none
    meter := c.copy.meter
    position := takenPosition (s.setScene { s.scene with position := countedPosition s.scene }) c } := by
  obtain ⟨hcount, hscene, -⟩ := hu
  obtain ⟨hframe, -⟩ := ht
  have hkept : t.scene = (u.take c).scene := hframe .scene (by decide)
  have hmem : u.mem = s.mem := hcount .mem (by decide)
  have hposition : takenPosition u c =
      takenPosition (s.setScene { s.scene with position := countedPosition s.scene }) c := by
    rw [takenPosition, hscene, hmem]
    rfl
  rw [hkept, State.take_scene, hposition, hscene]

theorem handsOff_take_router : t.router = ⟨s.router.standby, [], .empty, 0, s.router.standbyEcho⟩ := by
  obtain ⟨hcount, -⟩ := hu
  obtain ⟨hframe, -⟩ := ht
  have hkept : t.router = (u.take c).router := hframe .router (by decide)
  have hrouter : u.router = s.router := hcount .router (by decide)
  obtain ⟨-, htaken⟩ := u.take_slot c
  rw [hkept, htaken, hrouter]

/-- The click after a beat with a take: that of the new pattern, at the position that the take left. -/
theorem handsOff_take_click : t.click = { s.click with
    pattern := takenPattern s c
    waiting := s.click.waiting ++ if s.click.audio = .present
      then beatClicks (takenPattern s c) t.scene.position.bar t.scene.position.beat else [] } := by
  obtain ⟨hcount, -⟩ := hu
  obtain ⟨hframe, hclick, -⟩ := ht
  have hscene : t.scene = (u.take c).scene := hframe .scene (by decide)
  have hkept : u.click = s.click := hcount .click (by decide)
  have hmem : u.mem = s.mem := hcount .mem (by decide)
  rw [hclick, u.take_click, hkept, hscene, takenPattern, takenPattern, hmem]

end

section
variable {u t : State} {c : Change} (ht : HandsOff (u.take c) t)
include ht

/-- The Tempo Engine after the take of a beat: that of the take, with the beat line high. -/
theorem handsOff_take_tempo : t.tempo = { takenTempo u c t.tempo with
    lineHighUntil := some (u.time + BitVec.ofNat 32 (if t.scene.position.beat = 0 then 48000 else 16000)) } := by
  obtain ⟨hframe, -, htempo, -⟩ := ht
  have hscene : t.scene = (u.take c).scene := hframe .scene (by decide)
  have htime : (u.take c).time = u.time := u.take_sameBut c .time (by decide)
  rw [htempo, hscene, ← htime]
  conv_lhs => rw [State.take_takenTempo]
  rfl

theorem handsOff_take_tempoInStep : tempoInStep t := by
  obtain ⟨-, -, htempo, -⟩ := ht
  rw [tempoInStep, htempo]
  exact u.take_tempoInStep c

end

/-! ### The command -/

/-- The part with the advance that its boundary owes made (R123). -/
def State.phaseMoved (s : State) (inc : Nat) : State :=
  s.setTempo { s.tempo with phaseOwed := none, phase := s.tempo.phase + BitVec.ofNat 32 inc }

/-- An owed advance that carries is made by BEAT_BOUNDARY, with its beat. -/
theorem exec_beatBoundary {s : State} {inc : Nat} (hl : s.live = true) (ho : s.tempo.phaseOwed = some inc)
    (hc : 2 ^ 32 ≤ s.tempo.phase.toNat + inc) : exec .beatBoundary s = .next (s.phaseMoved inc).beat := by
  have hcarry : s.tempo.carries inc = true := decide_eq_true hc
  refine (whenLive_of_live (fun s => s.boundary true) hl).trans (congrArg _ ?_)
  simp only [State.boundary, State.phaseDue, ho, hcarry, if_true]
  exact if_pos hcarry

/-- A phase that is advanced across its end wraps. -/
theorem phaseMoved_wraps {s : State} {inc : Nat} (hi : inc < 2 ^ 32) (hc : 2 ^ 32 ≤ s.tempo.phase.toNat + inc) :
    (s.phaseMoved inc).tempo.phase.toNat = s.tempo.phase.toNat + inc - 2 ^ 32 := by
  have hlt := s.tempo.phase.isLt
  rw [State.phaseMoved, State.setTempo_tempo, BitVec.toNat_add, BitVec.toNat_ofNat]
  omega

/-- Settles O32: the beat of the moved phase, and what its counting, its take and its hand-off leave. -/
theorem beatBoundaryRule : Obligations.BeatBoundaryRule := by
  intro s v inc hl ho hi hc hv
  obtain rfl : v = s.phaseMoved inc := hv
  have hmade := (s.phaseMoved inc).beat_beatMade
  refine ⟨phaseMoved_wraps hi hc, _, exec_beatBoundary hl ho hc, hmade, ?_⟩
  have hmoved : SameBut [.tempo] s (s.phaseMoved inc) := s.setTempo_sameBut _
  obtain ⟨u, hu, hpasses, htakes⟩ := hmade
  refine ⟨fun hnone => ?_, fun c hc => ?_⟩
  · have ht := hpasses hnone
    have hscene := handsOff_scene hu ht
    obtain ⟨-, -, htempo, -⟩ := id ht
    refine ⟨(hmoved.mono (by simp)).trans (handsOff_sameBut hu ht), hscene, ?_⟩
    rw [htempo]
    exact countsBeat_clickIndex hu
  · have ht := htakes c hc
    have hscene := handsOff_take_scene hu ht
    have hrouter := handsOff_take_router hu ht
    have hclick := handsOff_take_click hu ht
    have htempo := handsOff_take_tempo ht
    obtain ⟨hcount, -⟩ := id hu
    have htime : u.time = s.time := hcount .time (by decide)
    rw [htime] at htempo
    exact ⟨(hmoved.mono (by simp)).trans (handsOff_take_sameBut hu ht), hscene, hrouter, hclick,
      handsOff_take_tempoInStep ht, u, hu, htempo⟩

end Sys2Proof.Machine
end

section
/-! Taps (O37): the three cases of a tap in FREE, and the snap of a joining one (R133, R141). -/
namespace Sys2Proof.Machine

/-! ### The tempo through a beat -/

/-- What a tap sets of the Tempo Engine beside the tempo: the series, its last tap and the phase; with the source
state. -/
def Tempo.tapPart (x : Tempo) : List Nat × Option StageTime × BitVec 32 × SourceState :=
  (x.taps, x.lastTap, x.phase, x.state)

section
variable {s u t : State} (hother : s.tempo.state ≠ .holdover)
include hother

/-- Counting a beat outside HOLDOVER keeps the tap series, the phase, the source state, and the tempo in step. -/
theorem countsBeat_tempo (h : CountsBeat s u) :
    u.tempo.tapPart = s.tempo.tapPart ∧ (tempoInStep s → tempoInStep u) := by
  have hmore : ¬lastHoldoverBeat s := fun ⟨hheld, _⟩ => hother hheld
  obtain ⟨-, -, htempo, hstate, -⟩ := h
  rw [hstate hmore] at htempo
  rw [tempoInStep, tempoInStep, htempo]
  exact ⟨rfl, id⟩

/-- So does a whole beat, with a take or without one. -/
theorem beatMade_tempo (h : BeatMade s t) (hstep : tempoInStep s) :
    t.tempo.tapPart = s.tempo.tapPart ∧ tempoInStep t := by
  obtain ⟨u, hu, hpasses, htakes⟩ := h
  obtain ⟨hpart, hcounted⟩ := countsBeat_tempo hother hu
  rw [← hpart]
  by_cases htake : ∃ c, TakesAt s c
  · obtain ⟨c, hc⟩ := htake
    refine ⟨?_, handsOff_take_tempoInStep (htakes c hc)⟩
    rw [handsOff_take_tempo (htakes c hc)]
    rfl
  · obtain ⟨-, -, ht, -⟩ := hpasses (not_exists.mp htake)
    rw [tempoInStep, ht]
    exact ⟨rfl, hcounted hstep⟩

end

/-! ### The cases of a tap (R141) -/

/-- An interval joins the series; of five the oldest leaves. -/
theorem joinTaps_eq (taps : List Nat) (i : Nat) :
    joinTaps taps i = (if taps.length = 4 then taps.drop 1 else taps) ++ [i] := by
  have hlength : (taps ++ [i]).length = 5 ↔ taps.length = 4 := by simp
  unfold joinTaps
  dsimp only
  by_cases hfour : taps.length = 4
  · rw [if_pos (hlength.mpr hfour), if_pos hfour, List.drop_append_of_le_length (by omega)]
  · rw [if_neg (hlength.not.mpr hfour), if_neg hfour]

/-- The part once a tap has joined the series and left it as `taps`, before the snap. -/
def State.tapped (s : State) (taps : List Nat) : State :=
  s.setTempo (Tempo.recompute { s.tempo with taps := taps, lastTap := some s.time, base := tappedTempo taps })

theorem State.tapped_tempoInStep (s : State) (taps : List Nat) : tempoInStep (s.tapped taps) := by
  obtain ⟨heffective, hclamped, hincrement, -⟩ := Tempo.recompute_spec { s.tempo with
    taps := taps, lastTap := some s.time, base := tappedTempo taps }
  exact ⟨heffective, hclamped, hincrement⟩

section
variable {s : State} (hfree : s.tempo.state = .free)
include hfree

theorem State.tap_begins
    (h : s.tempo.lastTap = none ∨ ∃ l, s.tempo.lastTap = some l ∧ 3000000 < interval l s.time) :
    s.tap = s.setTempo { s.tempo with taps := [], lastTap := some s.time } := by
  rw [State.tap, if_pos hfree, State.tapNow]
  rcases h with h | ⟨l, h, hlong⟩
  · simp only [h]
  · simp only [h, if_pos hlong]

variable {l : StageTime} (hl : s.tempo.lastTap = some l)
include hl

theorem State.tap_ignored (h : interval l s.time < 200000) : s.tap = s := by
  have hshort : ¬3000000 < interval l s.time := by omega
  rw [State.tap, if_pos hfree, State.tapNow]
  simp only [hl, if_neg hshort, if_pos h]

/-- A tap that joins the series sets the base tempo to the average, and snaps the phase. -/
theorem State.tap_joins (hlow : 200000 ≤ interval l s.time) (hhigh : interval l s.time ≤ 3000000) :
    s.tap = (s.tapped (joinTaps s.tempo.taps (interval l s.time))).snap := by
  rw [State.tap, if_pos hfree, State.tapNow]
  simp only [hl, if_neg (Nat.not_lt.mpr hhigh), if_neg (Nat.not_lt.mpr hlow), State.tapped]

end

/-! ### The snap (R133) -/

/-- The part with its phase snapped to 0. -/
def State.snapped (s : State) : State := s.setTempo { s.tempo with phase := 0 }

section
variable {s : State}

theorem State.snap_keeps (h : s.tempo.phase.toNat < 2 ^ 31) : s.snap = s.snapped := if_neg (Nat.not_le.mpr h)

theorem State.snap_beats (h : 2 ^ 31 ≤ s.tempo.phase.toNat) : s.snap = s.snapped.beat := if_pos h

/-- A snap keeps the tap series, the source state, and the tempo in step. -/
theorem State.snap_tempo (hother : s.tempo.state ≠ .holdover) (hstep : tempoInStep s) :
    s.snap.tempo.tapPart = s.snapped.tempo.tapPart ∧ tempoInStep s.snap := by
  rcases Nat.lt_or_ge s.tempo.phase.toNat (2 ^ 31) with h | h
  · rw [State.snap_keeps h]
    exact ⟨rfl, hstep⟩
  · rw [State.snap_beats h]
    exact beatMade_tempo (s := s.snapped) hother (State.beat_beatMade _) hstep

end

/-- Settles O37: the three cases of a tap in FREE; one that joins the series sets the tempo and snaps. -/
theorem tapCases : Obligations.TapCases := by
  refine fun s => ⟨fun hother => if_neg hother, fun hfree => ⟨State.tap_begins hfree,
    fun l hl => State.tap_ignored hfree hl, fun l taps hl hlow hhigh htaps _ => ?_⟩⟩
  have htap := State.tap_joins hfree hl hlow hhigh
  rw [joinTaps_eq, ← htaps] at htap
  obtain ⟨hpart, hstep⟩ := State.snap_tempo (s := s.tapped taps) (by simp [State.tapped, Tempo.recompute, hfree])
    (s.tapped_tempoInStep taps)
  rw [← htap] at hpart hstep
  simp only [Tempo.tapPart, Prod.mk.injEq] at hpart
  obtain ⟨hseries, hlast, hphase, hstate⟩ := hpart
  have hframe : SameBut [.tempo] s (s.tapped taps).snapped := (s.setTempo_sameBut _).trans (State.setTempo_sameBut _ _)
  refine ⟨hseries, hlast, hphase, hstate.trans hfree, hstep, _, hframe, s.tapped_tempoInStep taps, rfl,
    fun h => ?_, fun h => ?_⟩
  · rw [htap]
    exact State.snap_keeps h
  · rw [htap, State.snap_beats (s := s.tapped taps) h]
    exact State.beat_beatMade _

end Sys2Proof.Machine
end

section
/-! What every operation between two ticks keeps: the waiting commands, stage time, and a tempo in step with its formulas
(R121 to R123). -/
namespace Sys2Proof.Machine

/-! ### Steady operations -/

/-- An operation leaves the waiting commands and stage time, and keeps a tempo in step (R121, R122). -/
structure Steady (s t : State) : Prop where
  pending : t.pending = s.pending
  time : t.time = s.time
  tempo : tempoInStep s → tempoInStep t

theorem Steady.refl (s : State) : Steady s s := ⟨rfl, rfl, id⟩

theorem Steady.trans {s t u : State} (h : Steady s t) (k : Steady t u) : Steady s u :=
  ⟨k.pending.trans h.pending, k.time.trans h.time, k.tempo ∘ h.tempo⟩

/-- The blocks beside the Tempo Engine, stage time and the queue of commands. -/
abbrev untimedBlocks : List Block :=
  [.mem, .desk, .outputs, .records, .table, .pedals, .legs, .inputs, .router, .scene, .click, .pins]

/-- The tempo is in step by the Tempo Engine alone. -/
theorem tempoInStep_congr {s t : State} (h : t.tempo = s.tempo) (k : tempoInStep s) : tempoInStep t := by
  unfold tempoInStep at k ⊢
  rw [h]
  exact k

/-- A change beside the Tempo Engine, stage time and the queue. -/
theorem SameBut.steady {l : List Block} {s t : State} (h : SameBut l s t) (hl : l ⊆ untimedBlocks) : Steady s t := by
  have h := h.mono hl
  exact ⟨h .pending (by decide), h .time (by decide), tempoInStep_congr (h .tempo (by decide))⟩

/-- A steady operation followed by a change beside. -/
theorem Steady.and {s t u : State} {l : List Block} (h : Steady s t) (k : SameBut l t u)
    (hl : l ⊆ untimedBlocks) : Steady s u := h.trans (k.steady hl)

theorem Steady.foldl {α : Type} (f : State → α → State) (hf : ∀ (s : State) (a : α), Steady s (f s a))
    (l : List α) (s : State) : Steady s (l.foldl f s) := by
  induction l generalizing s with
  | nil => exact .refl s
  | cons a l ih => exact (hf s a).trans (ih (f s a))

/-! ### Changes of the Tempo Engine (R121, R122) -/

theorem State.setTempo_steady (s : State) (x : Tempo) (h : tempoInStep s → tempoInStep (s.setTempo x)) :
    Steady s (s.setTempo x) := ⟨rfl, rfl, h⟩

/-- A tempo that is computed again is in step. -/
theorem State.setTempo_recompute_tempoInStep (s : State) (x : Tempo) : tempoInStep (s.setTempo x.recompute) := by
  obtain ⟨heffective, hclamped, hincrement, -⟩ := x.recompute_spec
  exact ⟨heffective, hclamped, hincrement⟩

theorem State.recompute_steady (s : State) (x : Tempo) : Steady s (s.setTempo x.recompute) :=
  s.setTempo_steady _ fun _ => s.setTempo_recompute_tempoInStep x

theorem State.setReference_steady (s : State) (x : Reference) : Steady s (s.setReference x) :=
  s.setTempo_steady _ id

/-- Outside FREE the ratio in force is unity, so a change of source state there leaves the tempo in step (R121). -/
theorem State.setState_steady {s : State} {q : SourceState} (hs : s.tempo.state ≠ .free) (hq : q ≠ .free) (i : Nat)
    (x : Reference) :
    Steady s (s.setTempo { s.tempo with clickIndex := i, state := q, reference := x }) := by
  refine s.setTempo_steady _ fun h => ?_
  have hratio : Tempo.ratioInForce { s.tempo with clickIndex := i, state := q, reference := x } =
      s.tempo.ratioInForce := (if_neg hq).trans (if_neg hs).symm
  unfold tempoInStep Tempo.unclamped at h ⊢
  rw [State.setTempo_tempo, hratio]
  exact h

/-! ### Takes and preparation (R105 to R112) -/

theorem State.take_steady (s : State) (c : Change) : Steady s (s.take c) :=
  ⟨s.take_sameBut c .pending (by decide), s.take_sameBut c .time (by decide), fun _ => s.take_tempoInStep c⟩

theorem State.takeable_steady (s : State) (f : Quantize → Bool) :
    Steady s (match s.scene.takeable f with
      | some c => s.take c
      | none => s) := by
  split
  · exact s.take_steady _
  · exact .refl s

theorem State.completePreparation_steady (s : State) (c : Change) : Steady s (s.completePreparation c) := by
  have hready : Steady s (s.readied c) := ⟨rfl, rfl, id⟩
  exact (hready.and (State.raiseFor_sameBut _ _ _) (by simp)).trans (State.takeable_steady _ _)

theorem State.endPreparation_steady (s : State) : Steady s s.endPreparation := by
  unfold State.endPreparation
  split
  · exact .refl s
  · split
    · split
      · exact s.completePreparation_steady _
      · exact (s.failPreparation_sameBut _ _ _).steady (by simp)
    · exact .refl s

theorem State.preparationDue_steady (s : State) : Steady s s.preparationDue := by
  unfold State.preparationDue
  split
  · exact s.endPreparation_steady
  · exact .refl s

theorem State.preparationEnds_steady (s : State) (passes : Bool) : Steady s (s.preparationEnds passes) := by
  unfold State.preparationEnds
  split
  · exact .refl s
  · split
    · exact s.endPreparation_steady
    · exact .refl s

/-! ### Beat and click boundaries (R113, R123, R124) -/

theorem State.tempoBeat_steady (s : State) : Steady s s.tempoBeat := by
  by_cases h : lastHoldoverBeat s
  · obtain ⟨hs, -⟩ := id h
    rw [State.tempoBeat_last h]
    exact (State.setState_steady (by simp [hs]) (by decide) 0 _).and (State.reportLock_sameBut _) (by simp)
  · rw [State.tempoBeat_counts h]
    exact s.setTempo_steady _ id

theorem State.handOff_steady (s : State) : Steady s s.handOff := ⟨rfl, rfl, id⟩

theorem State.counted_steady (s : State) : Steady s s.counted :=
  (s.tempoBeat_steady.and (State.setScene_sameBut _ _) (by simp)).and s.counted_positioned (by simp)

theorem State.beat_steady (s : State) : Steady s s.beat := by
  rcases s.beat_cases with ⟨-, hbeat⟩ | ⟨c, -, hbeat⟩ <;> rw [hbeat]
  · exact s.counted_steady.trans (State.handOff_steady _)
  · exact (s.counted_steady.trans (State.take_steady _ c)).trans (State.handOff_steady _)

theorem State.clickIfRisen_steady (s : State) : Steady s s.clickIfRisen := by
  unfold State.clickIfRisen
  dsimp only
  split <;> exact ⟨rfl, rfl, id⟩

theorem State.advancePhase_steady (s : State) (inc : Nat) : Steady s (s.advancePhase inc) := by
  have h : Steady s (s.setTempo (s.tempo.advanced inc)) := s.setTempo_steady _ id
  unfold State.advancePhase
  split
  · exact h.trans (State.beat_steady _)
  · exact h.trans (State.clickIfRisen_steady _)

theorem State.phaseDue_steady (s : State) : Steady s s.phaseDue := by
  unfold State.phaseDue
  split
  · refine Steady.trans ?_ (State.advancePhase_steady _ _)
    exact s.setTempo_steady _ id
  · exact .refl s

theorem State.boundary_steady (s : State) (beat : Bool) : Steady s (s.boundary beat) := by
  unfold State.boundary
  split
  · exact .refl s
  · split
    · exact s.phaseDue_steady
    · exact .refl s

/-! ### References, taps and marks (R130 to R142) -/

theorem State.setHoldover_steady (s : State) : Steady s s.setHoldover := s.setReference_steady _

theorem State.snap_steady (s : State) : Steady s s.snap := by
  have h : Steady s (s.setTempo { s.tempo with phase := 0 }) := s.setTempo_steady _ id
  unfold State.snap
  split
  · exact h.trans (State.beat_steady _)
  · exact h

theorem State.lock_steady (s : State) (m : Nat) : Steady s (s.lock m) := by
  unfold State.lock
  dsimp only
  refine Steady.and ?_ (State.reportLock_sameBut _) (by simp)
  refine Steady.trans ?_ (State.setHoldover_steady _)
  refine Steady.trans ?_ (State.setTempo_steady _ _ id)
  exact (s.recompute_steady _).trans (State.snap_steady _)

theorem State.acquire_steady (s : State) (m : Nat) : Steady s (s.acquire m) := by
  unfold State.acquire
  dsimp only
  split
  · exact s.setReference_steady _
  · split
    · split
      · exact s.setReference_steady _
      · exact s.lock_steady m
    · exact s.setReference_steady _

theorem State.follow_steady (s : State) (m : Nat) : Steady s (s.follow m) := by
  unfold State.follow State.correctPhase
  dsimp only
  refine Steady.trans ?_ (State.setReference_steady _ _)
  refine Steady.trans ?_ (State.clickIfRisen_steady _)
  exact (s.recompute_steady _).trans (State.setTempo_steady _ _ id)

/-- An outlier outside FREE, where alone there is one. -/
theorem State.outlier_steady {s : State} (hs : s.tempo.state ≠ .free) : Steady s s.outlier := by
  have h := (s.report_sameBut .referenceOutliers 0).steady (by simp)
  unfold State.outlier
  dsimp only
  split
  · exact h.trans (State.setReference_steady _ _)
  · refine Steady.and ?_ (State.reportLock_sameBut _) (by simp)
    refine h.trans ?_
    exact State.setState_steady (s := s.report .referenceOutliers 0) hs (by decide) _ _

theorem State.countRef_steady (s : State) : Steady s s.countRef := s.setTempo_steady _ id

theorem State.referenceBeat_steady (s : State) (i : Option Nat) : Steady s (s.referenceBeat i) := by
  have hc := s.countRef_steady
  unfold State.referenceBeat
  split
  · exact .refl s
  · exact .refl s
  · split
    · exact s.acquire_steady _
    · exact (s.setReference_steady _).and (State.report_sameBut _ _ _) (by simp)
  · exact hc.trans (State.setHoldover_steady _)
  · next hs =>
    split
    · exact (hc.trans (State.follow_steady _ _)).trans (State.setHoldover_steady _)
    · have h := hc.trans (State.outlier_steady (s := s.countRef) (by simp [State.countRef, hs]))
      dsimp only
      split
      · exact h.trans (State.setHoldover_steady _)
      · exact h
  · exact .refl s
  · next hs =>
    have hs : s.tempo.state ≠ .free := by simp [hs]
    split
    · dsimp only
      refine Steady.and ?_ (State.reportLock_sameBut _) (by simp)
      refine Steady.trans ?_ (State.setHoldover_steady _)
      refine Steady.trans ?_ (State.setReference_steady _ _)
      refine Steady.trans ?_ (State.follow_steady _ _)
      exact (State.setState_steady hs (by decide) _ _).trans (State.countRef_steady _)
    · exact State.outlier_steady hs

theorem State.pulse_steady (s : State) : Steady s s.pulse := by
  unfold State.pulse
  dsimp only
  split
  · exact (s.setReference_steady _).trans (State.referenceBeat_steady _ _)
  · split
    · exact s.setReference_steady _
    · exact (s.setReference_steady _).trans (State.referenceBeat_steady _ _)

theorem State.tap_steady (s : State) : Steady s s.tap := by
  unfold State.tap State.tapNow
  dsimp only
  split
  · split
    · exact s.setTempo_steady _ id
    · split
      · exact s.setTempo_steady _ id
      · split
        · exact .refl s
        · exact (s.recompute_steady _).trans (State.snap_steady _)
  · exact .refl s

theorem State.beatMark_steady (s : State) (downbeat : Bool) : Steady s (s.beatMark downbeat) := by
  unfold State.beatMark
  dsimp only
  split
  · split
    · exact s.pulse_steady.and (State.realign_sameBut _ _) (by simp)
    · exact s.pulse_steady
  · exact .refl s

/-- A holdover expires in LOCKED only. -/
theorem State.holdoverDue_locked {s : State} (h : s.holdoverDue = true) : s.tempo.state = .locked := by
  unfold State.holdoverDue at h
  split at h
  · assumption
  · exact nomatch h

theorem State.holdoverStep_steady (s : State) : Steady s s.holdoverStep := by
  unfold State.holdoverStep
  split
  · next h =>
    refine Steady.and ?_ (State.reportLock_sameBut _) (by simp)
    exact State.setState_steady (by simp [State.holdoverDue_locked h]) (by decide) _ _
  · exact .refl s

theorem State.beatLineDue_steady (s : State) : Steady s s.beatLineDue := by
  unfold State.beatLineDue
  split
  · split
    · exact s.setTempo_steady _ id
    · exact .refl s
  · exact .refl s

end Sys2Proof.Machine
end

section
/-! Steady commands: the instrument lines, the requests, the transfers and the pins, and the two commands that move
stage time (O9, O13). -/
namespace Sys2Proof.Machine

/-! ### The instrument lines (R20 to R28, R47 to R58) -/

theorem State.setRig_steady (s : State) (r : Rig) : Steady s (s.setRig r) := ⟨rfl, rfl, id⟩

theorem State.setDeframer_steady (s : State) (n : Input) (d : Deframer) : Steady s (s.setDeframer n d) :=
  ⟨rfl, rfl, id⟩

theorem State.routeNoteOn_steady (s : State) (n : Input) (c : Chan) (k v : Seven) :
    Steady s (s.routeNoteOn n c k v) := by
  unfold State.routeNoteOn
  dsimp only
  generalize hx : s.setRig _ = t
  have h : Steady s t := hx ▸ s.setRig_steady _
  have hcue : Steady s (match sceneCue (s.router.active.filter fun e => e.isMatch n c k v) with
      | some e => t.cueRequest e.cueAsk e.cueTag
      | none => t) := by
    split
    · exact h.and (t.cueRequest_sameBut _ _) (by simp)
    · exact h
  split
  · exact hcue.trans (State.tap_steady _)
  · exact hcue

theorem State.songSelect_steady (s : State) (program : Seven) : Steady s (s.songSelect program) := by
  unfold State.songSelect
  split
  · exact (s.record_sameBut _).steady (by simp)
  · exact (s.cueRequest_sameBut _ _).steady (by simp)

theorem State.deliver_steady (s : State) (n : Input) (c : Chan) (e : LineEvent) : Steady s (s.deliver n c e) := by
  unfold State.deliver
  split
  case h_2 => exact .refl s
  cases e with
  | noteOn k v => exact s.routeNoteOn_steady n c k v
  | noteOff k => exact s.setRig_steady _
  | continuous e =>
    unfold State.deliverShow
    dsimp only
    split <;> exact s.setRig_steady _
  | program p =>
    unfold State.deliverShow
    dsimp only
    split
    · exact s.songSelect_steady p
    · exact .refl s
  | unused => exact .refl s

theorem State.timing_steady (s : State) (n : Input) (t : TimingOctet) : Steady s (s.timing n t) := by
  unfold State.timing
  split
  · cases t with
    | clock => exact s.pulse_steady
    | align => exact s.setReference_steady _
    | stop => exact .refl s
  · exact .refl s

theorem State.framingErrorIf_steady (s : State) (b : Bool) (n : Input) : Steady s (s.framingErrorIf b n) := by
  unfold State.framingErrorIf
  split
  · exact (s.report_sameBut _ _).steady (by simp)
  · exact .refl s

theorem State.dataOctet_steady (s : State) (n : Input) (v : Seven) : Steady s (s.dataOctet n v) := by
  unfold State.dataOctet
  dsimp only
  split
  · exact (s.report_sameBut _ _).steady (by simp)
  · exact .refl s
  · split
    · exact s.deliver_steady _ _ _
    · split
      · exact s.setDeframer_steady _ _
      · exact (s.setDeframer_steady _ _).trans (State.deliver_steady _ _ _ _)

theorem State.octetArrives_steady (s : State) (n : Input) (b : Byte) : Steady s (s.octetArrives n b) := by
  unfold State.octetArrives
  dsimp only
  split
  · exact s.dataOctet_steady n _
  · exact (s.setDeframer_steady _ _).trans (State.framingErrorIf_steady _ _ _)
  · exact (s.setDeframer_steady _ _).trans (State.framingErrorIf_steady _ _ _)
  · exact s.timing_steady n _

theorem State.eventArrives_steady (s : State) (n : Input) (kind : ChannelKind) (c : Chan) (x y : Seven) :
    Steady s (s.eventArrives n kind c x y) :=
  ((s.setDeframer_steady _ _).trans (State.framingErrorIf_steady _ _ _)).trans (State.deliver_steady _ _ _ _)

theorem State.continuousArrives_steady (s : State) (n : Input) (c : Chan) (e : ContinuousEvent) :
    Steady s (s.continuousArrives n c e) := by
  cases e <;> exact s.eventArrives_steady _ _ _ _ _

/-! ### Requests -/

section
variable (p : Port) (r : Request) (s : State)

theorem State.answer_steady (st : Status) (payload : List Byte) : Steady s (s.answer p st payload) := ⟨rfl, rfl, id⟩

theorem State.setWriteRequest_steady : Steady s (s.setWriteRequest p r) := by
  unfold State.setWriteRequest
  split <;> exact ⟨rfl, rfl, id⟩

theorem State.soundLengthRequest_steady : Steady s (s.soundLengthRequest p r) := by
  unfold State.soundLengthRequest
  split <;> exact ⟨rfl, rfl, id⟩

theorem State.soundSamplesRequest_steady : Steady s (s.soundSamplesRequest p r) := by
  unfold State.soundSamplesRequest
  split
  · exact s.answer_steady p _ _
  · split <;> exact ⟨rfl, rfl, id⟩

theorem State.setReadRequest_steady : Steady s (s.setReadRequest p r) := by
  unfold State.setReadRequest
  split <;> exact s.answer_steady p _ _

theorem State.setDigestRequest_steady : Steady s (s.setDigestRequest p r) := by
  unfold State.setDigestRequest
  split <;> exact ⟨rfl, rfl, id⟩

theorem State.enterShowRequest_steady : Steady s (s.enterShowRequest p r) := by
  unfold State.enterShowRequest
  split
  · exact s.answer_steady p _ _
  · split
    · exact s.answer_steady p _ _
    · refine Steady.and ?_ (State.modeRequest_sameBut _) (by simp)
      exact ⟨rfl, rfl, id⟩

theorem State.enterSetupRequest_steady : Steady s (s.enterSetupRequest p r) := by
  unfold State.enterSetupRequest
  split <;> exact ⟨rfl, rfl, id⟩

/-- RESTART computes the tempo again (R143). -/
theorem State.restartRequest_steady : Steady s (s.restartRequest p r) :=
  ⟨rfl, rfl, fun _ => s.setTempo_recompute_tempoInStep _⟩

theorem State.portRequest_steady (ask : SceneAsk) (quantize : Nat) : Steady s (s.portRequest p ask quantize) := by
  unfold State.portRequest
  split
  · exact s.answer_steady p _ _
  · split
    · exact s.answer_steady p _ _
    · exact (s.answer_steady p _ _).and (State.accept_sameBut _ _ _ _ _) (by simp)

theorem State.cancelRequest_steady : Steady s (s.cancelRequest p r) := by
  unfold State.cancelRequest
  split
  · exact s.answer_steady p _ _
  · split
    · exact s.answer_steady p _ _
    · split <;> exact ⟨rfl, rfl, id⟩

theorem State.freezeRequest_steady : Steady s (s.freezeRequest p r) := by
  unfold State.freezeRequest
  split <;> exact ⟨rfl, rfl, id⟩

theorem State.thaw_steady : Steady s s.thaw :=
  Steady.trans (t := s.setFrozen false) ⟨rfl, rfl, id⟩ (State.takeable_steady _ _)

theorem State.thawRequest_steady : Steady s (s.thawRequest p r) := by
  unfold State.thawRequest
  split
  · exact s.answer_steady p _ _
  · split
    · exact (s.answer_steady p _ _).trans (State.thaw_steady _)
    · exact s.answer_steady p _ _

theorem State.stepRequest_steady : Steady s (s.stepRequest p r) := by
  unfold State.stepRequest
  split
  · exact s.answer_steady p _ _
  · split
    · exact s.answer_steady p _ _
    · split
      · exact (s.take_steady _).trans (State.answer_steady p _ _ _)
      · exact s.answer_steady p _ _

theorem State.selectSource_steady (src : Source) (shift : Option Nat) : Steady s (s.selectSource src shift) := by
  have h : Steady s (s.setTempo (s.tempo.select src shift)) := s.recompute_steady _
  unfold State.selectSource
  dsimp only
  split
  · exact h.and (State.raise_sameBut _ _) (by simp)
  · exact h.and (State.reportLock_sameBut _) (by simp)

theorem State.tempoSourceRequest_steady : Steady s (s.tempoSourceRequest p r) := by
  unfold State.tempoSourceRequest
  split
  · exact (s.answer_steady p _ _).trans (State.selectSource_steady _ _ _)
  · exact s.answer_steady p _ _

theorem State.tempoSetRequest_steady : Steady s (s.tempoSetRequest p r) := by
  unfold State.tempoSetRequest
  dsimp only
  split
  · exact s.answer_steady p _ _
  · split
    · exact s.answer_steady p _ _
    · exact (s.answer_steady p _ _).trans (State.recompute_steady _ _)

theorem State.trimRequest_steady : Steady s (s.trimRequest p r) := by
  unfold State.trimRequest
  dsimp only
  split
  · exact s.answer_steady p _ _
  · exact (s.answer_steady p _ _).trans (State.recompute_steady _ _)

theorem State.outputEnableRequest_steady : Steady s (s.outputEnableRequest p r) :=
  (s.answer_steady p _ _).trans (State.setRig_steady _ _)

theorem State.criticalLevelRequest_steady : Steady s (s.criticalLevelRequest p r) := by
  unfold State.criticalLevelRequest
  split
  · exact s.answer_steady p _ _
  · split <;> exact ⟨rfl, rfl, id⟩

theorem State.panicRequest_steady : Steady s (s.panicRequest p r) :=
  (s.answer_steady p _ _).trans (State.setRig_steady _ _)

theorem State.clickLevelRequest_steady : Steady s (s.clickLevelRequest p r) := by
  unfold State.clickLevelRequest
  dsimp only
  split <;> exact ⟨rfl, rfl, id⟩

theorem State.clickMuteRequest_steady : Steady s (s.clickMuteRequest p r) := ⟨rfl, rfl, id⟩

theorem State.counterSetRequest_steady : Steady s (s.counterSetRequest p r) := by
  unfold State.counterSetRequest
  split <;> exact ⟨rfl, rfl, id⟩

theorem State.counterReadRequest_steady : Steady s (s.counterReadRequest p r) := by
  unfold State.counterReadRequest
  split <;> exact s.answer_steady p _ _

theorem State.captureArmRequest_steady : Steady s (s.captureArmRequest p r) := by
  unfold State.captureArmRequest
  dsimp only
  split <;> exact ⟨rfl, rfl, id⟩

theorem State.captureReadRequest_steady : Steady s (s.captureReadRequest p r) := by
  unfold State.captureReadRequest
  split <;> exact s.answer_steady p _ _

theorem State.statusRequest_steady : Steady s (s.statusRequest p r) := ⟨rfl, rfl, id⟩

theorem State.subscribeRequest_steady : Steady s (s.subscribeRequest p r) := ⟨rfl, rfl, id⟩

theorem handle_steady : Steady s (handle p r s) := by
  unfold handle
  split
  · exact s.setWriteRequest_steady p r
  · exact s.soundLengthRequest_steady p r
  · exact s.soundSamplesRequest_steady p r
  · exact s.setReadRequest_steady p r
  · exact s.setDigestRequest_steady p r
  · exact s.enterShowRequest_steady p r
  · exact s.enterSetupRequest_steady p r
  · exact s.restartRequest_steady p r
  · exact s.portRequest_steady p _ _
  · exact s.portRequest_steady p _ _
  · exact s.portRequest_steady p _ _
  · exact s.portRequest_steady p _ _
  · exact s.cancelRequest_steady p r
  · exact s.freezeRequest_steady p r
  · exact s.thawRequest_steady p r
  · exact s.stepRequest_steady p r
  · exact s.tempoSourceRequest_steady p r
  · exact s.tempoSetRequest_steady p r
  · exact s.trimRequest_steady p r
  · exact s.answer_steady p _ _
  · exact s.answer_steady p _ _
  · exact s.outputEnableRequest_steady p r
  · exact s.criticalLevelRequest_steady p r
  · exact s.panicRequest_steady p r
  · exact s.clickLevelRequest_steady p r
  · exact s.clickMuteRequest_steady p r
  · exact s.counterSetRequest_steady p r
  · exact s.counterReadRequest_steady p r
  · exact s.captureArmRequest_steady p r
  · exact s.captureReadRequest_steady p r
  · exact s.statusRequest_steady p r
  · exact s.subscribeRequest_steady p r
  · exact s.answer_steady p _ _

end

theorem State.turnAway_steady (s : State) (p : Port) : Steady s (s.turnAway p) := by
  unfold State.turnAway
  split
  · exact .refl s
  · split
    · exact s.answer_steady p _ _
    · exact .refl s

/-! ### Transfers (R159 to R163) -/

theorem State.setPort_steady (s : State) (p : Port) (x : PortState) : Steady s (s.setPort p x) := ⟨rfl, rfl, id⟩

theorem State.placeRequest_steady (s : State) (p : Port) (r : Request) : Steady s (s.placeRequest p r) := by
  unfold State.placeRequest
  dsimp only
  split
  · split
    · exact (s.setPort_steady p _).trans (State.tap_steady _)
    · exact (s.setPort_steady p _).trans (State.beatMark_steady _ _)
    · exact s.setPort_steady p _
  · exact s.setPort_steady p _

theorem State.endTransfer_steady (s : State) (p : Port) (side : OutboundSide) (all : List Byte) :
    Steady s (s.endTransfer p side all) := by
  unfold State.endTransfer
  dsimp only
  split
  · split
    · split
      · exact (s.setPort_steady p _).trans (State.placeRequest_steady _ p _)
      · exact s.setPort_steady p _
    · exact s.setPort_steady p _
  · exact s.setPort_steady p _

/-! ### Stage time and the pins (R123, R130, R185) -/

theorem State.lineDue_steady (s : State) (o : Output) : Steady s (s.lineDue o) :=
  (s.lineDue_sameBut o).steady (by simp)

theorem State.spillDue_steady (s : State) (o : Output) (c : Chan) : Steady s (s.spillDue o c) :=
  (s.spillDue_sameBut o c).steady (by simp)

theorem State.audioReturn_steady (s : State) : Steady s s.audioReturn := s.audioReturn_sameBut.steady (by simp)

theorem State.digestDue_steady (s : State) : Steady s s.digestDue := s.digestDue_sameBut.steady (by simp)

theorem State.settleTimed_steady (s : State) : Steady s s.settleTimed := by
  unfold State.settleTimed
  refine Steady.trans ?_ (State.digestDue_steady _)
  refine Steady.trans ?_ (State.audioReturn_steady _)
  refine Steady.trans ?_ (State.holdoverStep_steady _)
  refine Steady.trans ?_ (Steady.foldl _ (fun s o => Steady.foldl _ (fun s c => s.spillDue_steady o c) _ s) _ _)
  exact (Steady.foldl _ (fun s o => s.lineDue_steady o) _ s).trans (State.beatLineDue_steady _)

theorem State.requestDue_steady (s : State) (p : Port) : Steady s (s.requestDue p) := by
  unfold State.requestDue
  split
  · exact .refl s
  · split
    · exact handle_steady p _ s
    · exact .refl s

theorem State.settleDue_steady (s : State) : Steady s s.settleDue := by
  rw [State.settleDue_eq]
  refine Steady.trans ?_ (State.phaseDue_steady _)
  refine Steady.trans ?_ (State.requestDue_steady _ _)
  refine Steady.trans ?_ (State.requestDue_steady _ _)
  exact s.settleTimed_steady.trans (State.preparationDue_steady _)

/-- A microsecond keeps the queue, and the tempo in step: the phase alone advances, or is owed (R123). -/
theorem State.microsecond_keeps (s : State) :
    s.microsecond.pending = s.pending ∧ (tempoInStep s → tempoInStep s.microsecond) := by
  unfold State.microsecond State.tickPhase
  dsimp only
  split <;> exact ⟨rfl, id⟩

theorem State.tick_keeps (s : State) : s.tick.pending = s.pending ∧ (tempoInStep s → tempoInStep s.tick) := by
  obtain ⟨hpending, htempo⟩ := s.settleDue.microsecond_keeps
  exact ⟨hpending.trans s.settleDue_steady.pending, htempo ∘ s.settleDue_steady.tempo⟩

theorem State.setPins_steady (s : State) (x : Pins) : Steady s (s.setPins x) := ⟨rfl, rfl, id⟩

theorem State.syncRise_steady (s : State) : Steady s s.syncRise := by
  unfold State.syncRise
  split
  · exact .refl s
  · refine (s.setPins_steady { s.pins with syncHigh := true }).trans ?_
    dsimp only
    split
    · exact State.pulse_steady _
    · exact .refl _
    · exact .refl _
    · exact .refl _

theorem State.panicFall_steady (s : State) : Steady s s.panicFall := by
  unfold State.panicFall
  split
  · exact .refl s
  · exact (s.setPins_steady _).trans (State.setRig_steady _ _)

theorem State.audioLoss_steady (s : State) : Steady s s.audioLoss := by
  unfold State.audioLoss
  split <;> exact ⟨rfl, rfl, id⟩

theorem State.openRun_steady (s : State) : Steady s s.openRun := by
  unfold State.openRun
  split <;> exact ⟨rfl, rfl, id⟩

theorem State.endRun_steady (s : State) : Steady s s.endRun := by
  unfold State.endRun
  split <;> exact ⟨rfl, rfl, id⟩

/-! ### Commands -/

/-- A command that answers a next state, steadily reached. -/
def RunsSteady (o : Host.Outcome State Fault Refusal) (s : State) : Prop := ∃ t, o = .next t ∧ Steady s t

/-- A command of a live part. -/
theorem whenLive_steady {f : State → State} (hf : ∀ s, Steady s (f s)) (s : State) :
    RunsSteady (whenLive f s) s := by
  obtain ⟨-, hw⟩ | ⟨-, hw⟩ := whenLive_eq f s
  · exact ⟨_, hw, hf s⟩
  · exact ⟨_, hw, .refl s⟩

/-- A command that answers a request. -/
theorem serve_steady {p : Port} {row : RequestRow} {f : Request → State → State} (hf : ∀ r s, Steady s (f r s))
    (s : State) : RunsSteady (whenLive (fun s => s.serve p row f) s) s := by
  refine whenLive_steady (fun s => ?_) s
  obtain ⟨r, -, -, -, hr⟩ | ⟨-, hr⟩ := s.serve_cases p row f <;> rw [hr]
  · exact hf r s
  · exact .refl s

theorem execTransferEnd_steady (p : Port) (octets : List Byte) (s : State) :
    RunsSteady (execTransferEnd p octets s) s := by
  refine whenLive_steady (fun s => ?_) s
  split
  · exact .refl s
  · exact s.endTransfer_steady p _ _

/-- The two commands that may move stage time (R123, R185). -/
def movesTime : Instr → Bool
  | .stageTick => true
  | .resetPinRelease _ _ => true
  | _ => false

/-- Every other command is steady. -/
theorem exec_steady {i : Instr} (h : movesTime i = false) (s : State) : RunsSteady (exec i s) s := by
  cases i with
  | setWrite p => exact serve_steady (State.setWriteRequest_steady p) s
  | setWriteSoundLength p => exact serve_steady (State.soundLengthRequest_steady p) s
  | setWriteSoundSamples p => exact serve_steady (State.soundSamplesRequest_steady p) s
  | setRead p => exact serve_steady (State.setReadRequest_steady p) s
  | setDigest p => exact serve_steady (State.setDigestRequest_steady p) s
  | enterShow p => exact serve_steady (State.enterShowRequest_steady p) s
  | enterSetup p => exact serve_steady (State.enterSetupRequest_steady p) s
  | restart p => exact serve_steady (State.restartRequest_steady p) s
  | goSong p => exact serve_steady (fun _ s => State.portRequest_steady p s _ _) s
  | goScene p => exact serve_steady (fun _ s => State.portRequest_steady p s _ _) s
  | goNext p => exact serve_steady (fun _ s => State.portRequest_steady p s _ _) s
  | goPrev p => exact serve_steady (fun _ s => State.portRequest_steady p s _ _) s
  | cancel p => exact serve_steady (State.cancelRequest_steady p) s
  | freeze p => exact serve_steady (State.freezeRequest_steady p) s
  | thaw p => exact serve_steady (State.thawRequest_steady p) s
  | step p => exact serve_steady (State.stepRequest_steady p) s
  | tempoSource p => exact serve_steady (State.tempoSourceRequest_steady p) s
  | tempoSet p => exact serve_steady (State.tempoSetRequest_steady p) s
  | trim p => exact serve_steady (State.trimRequest_steady p) s
  | tap p => exact serve_steady (fun _ s => s.answer_steady p _ _) s
  | beatMark => exact serve_steady (fun _ s => s.answer_steady .showPort _ _) s
  | outputEnable p => exact serve_steady (State.outputEnableRequest_steady p) s
  | criticalLevel p => exact serve_steady (State.criticalLevelRequest_steady p) s
  | panic p => exact serve_steady (State.panicRequest_steady p) s
  | clickLevel p => exact serve_steady (State.clickLevelRequest_steady p) s
  | clickMute p => exact serve_steady (State.clickMuteRequest_steady p) s
  | counterSet p => exact serve_steady (State.counterSetRequest_steady p) s
  | counterRead p => exact serve_steady (State.counterReadRequest_steady p) s
  | captureArm p => exact serve_steady (State.captureArmRequest_steady p) s
  | captureRead p => exact serve_steady (State.captureReadRequest_steady p) s
  | status p => exact serve_steady (State.statusRequest_steady p) s
  | subscribe p => exact serve_steady (State.subscribeRequest_steady p) s
  | unknownRequest p => exact whenLive_steady (fun s => s.turnAway_steady p) s
  | transferBegin p => exact whenLive_steady (fun s => s.setPort_steady p _) s
  | transferEnd p octets => exact execTransferEnd_steady p octets s
  | noteOn n c k v => exact whenLive_steady (fun s => s.eventArrives_steady _ _ _ _ _) s
  | noteOff n c k asNoteOn => exact whenLive_steady (fun s => s.eventArrives_steady _ _ _ _ _) s
  | sustainPedal n c v => exact whenLive_steady (fun s => s.eventArrives_steady _ _ _ _ _) s
  | continuousEvent n c e => exact whenLive_steady (fun s => s.continuousArrives_steady n c e) s
  | songSelect n c program => exact whenLive_steady (fun s => s.eventArrives_steady _ _ _ _ _) s
  | clock n => exact whenLive_steady (fun s => s.timing_steady n .clock) s
  | alignmentPoint n kind => cases kind <;> exact whenLive_steady (fun s => s.timing_steady n .align) s
  | stop n => exact whenLive_steady (fun s => s.timing_steady n .stop) s
  | inputOctet n b => exact whenLive_steady (fun s => s.octetArrives_steady n b) s
  | syncEdge => exact whenLive_steady State.syncRise_steady s
  | panicLineEdge => exact whenLive_steady State.panicFall_steady s
  | resetPinLow => exact ⟨_, rfl, rfl, rfl, id⟩
  | resetPinRelease a b => exact nomatch h
  | crystalStop => exact ⟨_, rfl, s.setPins_steady _⟩
  | crystalReturn => exact ⟨_, rfl, s.setPins_steady _⟩
  | stageTick => exact nomatch h
  | beatBoundary => exact whenLive_steady (fun s => s.boundary_steady true) s
  | clickBoundary => exact whenLive_steady (fun s => s.boundary_steady false) s
  | beatLineEnd => exact whenLive_steady State.beatLineDue_steady s
  | samplePeriod => exact whenLive_steady (fun s => s.samplePeriod_sameBut.steady (by simp)) s
  | audioClockLoss => exact whenLive_steady State.audioLoss_steady s
  | audioClockReturn => exact whenLive_steady State.audioReturn_steady s
  | spillExpiry o c => exact whenLive_steady (fun s => s.spillDue_steady o c) s
  | holdoverExpiry => exact whenLive_steady State.holdoverStep_steady s
  | digestComplete => exact whenLive_steady State.digestDue_steady s
  | preparationComplete => exact whenLive_steady (fun s => s.preparationEnds_steady true) s
  | preparationCheckFail => exact whenLive_steady (fun s => s.preparationEnds_steady false) s
  | transmissionComplete o => exact whenLive_steady (fun s => s.lineDue_steady o) s
  | panicLineRise => exact whenLive_steady (fun s => s.setPins_steady _) s
  | syncLineFall => exact whenLive_steady (fun s => s.setPins_steady _) s
  | presenceRunOpen => exact whenLive_steady State.openRun_steady s
  | presenceRunGap => exact whenLive_steady State.endRun_steady s

/-- Every command answers a next state, with the queue kept and the tempo still in step. -/
theorem exec_keeps (i : Instr) (s : State) :
    ∃ t, exec i s = .next t ∧ t.pending = s.pending ∧ (tempoInStep s → tempoInStep t) ∧
      (movesTime i = false → t.time = s.time) := by
  cases hm : movesTime i with
  | false =>
    obtain ⟨t, he, hpending, htime, htempo⟩ := exec_steady hm s
    exact ⟨t, he, hpending, htempo, fun _ => htime⟩
  | true =>
    cases i with
    | stageTick =>
      obtain ⟨-, hw⟩ | ⟨-, hw⟩ := whenLive_eq State.tick s
      · obtain ⟨hpending, htempo⟩ := s.tick_keeps
        exact ⟨_, hw, hpending, htempo, nofun⟩
      · exact ⟨_, hw, rfl, id, nofun⟩
    | resetPinRelease a b =>
      refine ⟨_, rfl, ?_⟩
      split
      · exact ⟨rfl, fun _ => State.reset_tempoInStep, nofun⟩
      · exact ⟨rfl, id, nofun⟩
    | _ => exact nomatch hm

/-! ### The obligations -/

/-- A tempo in step lies from 2000 to 30000 (R121). -/
theorem tempoInStep.bounds {s : State} (h : tempoInStep s) :
    2000 ≤ s.tempo.effective ∧ s.tempo.effective ≤ 30000 := by
  obtain ⟨heffective, -⟩ := h
  obtain ⟨hlow, hhigh⟩ := clampInt_bounds 2000 30000 s.tempo.unclamped (by decide)
  omega

/-- Settles O9: every command keeps the tempo in step, and a tempo in step is a clamped one. -/
theorem tempoStaysInStep : Obligations.TempoStaysInStep := by
  intro s t h hstep
  suffices hstill : tempoInStep t from ⟨hstill, hstill.bounds⟩
  unfold step at hstep
  split at hstep
  · cases hstep
    exact h
  · next i rest _ =>
    obtain ⟨u, he, -, htempo, -⟩ := exec_keeps i (s.setPending rest)
    cases he.symm.trans hstep
    exact htempo h

/-- Settles O13: every command but the tick and the release of the reset pin is steady. -/
theorem everyCommandKeepsTheQueue : Obligations.EveryCommandKeepsTheQueue := by
  intro i s
  obtain ⟨t, he, hpending, -, htime⟩ := exec_keeps i s
  refine ⟨t, he, hpending, fun htick hrelease => htime ?_⟩
  cases i with
  | stageTick => exact absurd rfl htick
  | resetPinRelease a b => exact absurd rfl (hrelease a b)
  | _ => rfl

end Sys2Proof.Machine
end

section
/-! The requests of the Tempo Engine (O34, O35): TEMPO SOURCE, TEMPO SET and TRIM (R126, R127, R129, R139). -/
namespace Sys2Proof.Machine

/-! ### The octets of TEMPO SOURCE (R188) -/

theorem decodeSource_unassigned {kind parameter : Nat}
    (h : 3 < kind ∨ (kind = 1 ∧ 3 < parameter) ∨
      (kind = 2 ∧ parameter ≠ 1 ∧ parameter ≠ 2 ∧ parameter ≠ 4 ∧ parameter ≠ 24)) :
    decodeSource kind parameter = none := by
  rcases h with h | ⟨rfl, h⟩ | ⟨rfl, h⟩
  · obtain ⟨k, rfl⟩ : ∃ k, kind = k + 4 := ⟨kind - 4, by omega⟩
    rfl
  · exact dif_neg (Nat.not_lt.mpr h)
  · have hrate : decodeRate parameter = none := by
      unfold decodeRate
      split <;> simp_all
    simp [decodeSource, hrate]

theorem decodeSource_internal : decodeSource 0 0 = some .internal := by simp [decodeSource]

theorem decodeSource_clock (n : Input) : decodeSource 1 n.val = some (.clock n) := dif_pos n.isLt

theorem decodeSource_sync (rate : PulseRate) : decodeSource 2 rate.perBeat = some (.sync rate) := by
  cases rate <;> rfl

theorem decodeSource_mark : decodeSource 3 0 = some .mark := by simp [decodeSource]

theorem decodeShift_unassigned {v : Nat} (hlow : 4 < v) (hhigh : v < 255) : decodeShift v = none := by
  rw [decodeShift, if_neg (by omega), if_neg (by omega)]

theorem decodeShift_absent : decodeShift 255 = some none := rfl

theorem decodeShift_carried {v : Nat} (h : v ≤ 4) : decodeShift v = some (some v) := by
  rw [decodeShift, if_neg (by omega), if_pos h]

/-! ### A selection (R129, R139) -/

theorem Source.entered_eq (src : Source) : src.entered = if src = .internal then .free else .acquiring := by
  cases src <;> rfl

theorem State.reportLock_desk (s : State) :
    s.reportLock.desk = lockDesk s.desk s.time s.tempo.state s.tempo.source s.tempo.base := rfl

section
variable (s : State) (src : Source) (shift : Option Nat)

theorem State.selectSource_sameBut : SameBut [.desk, .tempo] s (s.selectSource src shift) := by
  have h := (s.setTempo_sameBut (s.tempo.select src shift)).mono (l' := [.desk, .tempo]) (by simp)
  unfold State.selectSource
  dsimp only
  split
  · exact h.trans ((State.raise_sameBut _ _).mono (by simp))
  · exact h.trans ((State.reportLock_sameBut _).mono (by simp))

theorem State.selectSource_tempo : (s.selectSource src shift).tempo = s.tempo.select src shift := by
  unfold State.selectSource
  dsimp only
  split
  · rfl
  · exact State.reportLock_sameBut _ .tempo (by decide)

/-- A selection is reported by a LOCK notice, and by a record where it changes the source state. -/
theorem State.selectSource_desk : (s.selectSource src shift).desk =
    if src.entered = s.tempo.state then s.desk.raise (.lock src.entered src s.tempo.base)
    else lockDesk s.desk s.time src.entered src s.tempo.base := by
  unfold State.selectSource
  dsimp only
  by_cases h : s.tempo.state = src.entered
  · rw [if_pos h.symm]
    exact congrArg State.desk (if_pos h)
  · rw [if_neg (Ne.symm h)]
    exact congrArg State.desk (if_neg h)

end

/-- The Tempo Engine after a selection: only what a selection sets, and the tempo computed again. -/
theorem Tempo.select_eq (t : Tempo) (src : Source) (shift : Option Nat) : t.select src shift = { t with
    source := src
    state := if src = .internal then .free else .acquiring
    followShift := shift.getD t.followShift
    taps := []
    lastTap := none
    reference := ⟨none, none, none, 0, 0, none, 0⟩
    effective := (t.select src shift).effective
    increment := (t.select src shift).increment
    clamped := (t.select src shift).clamped } := by
  rw [← src.entered_eq]
  rfl

/-! ### The commands -/

section
variable {s : State} {p : Port} {r : Request} {rest : List Request}

theorem exec_tempoSource (h : Heads s p .tempoSource r rest) :
    exec (.tempoSource p) s = .next (s.tempoSourceRequest p r) := whenLive_serve_of_heads h _

theorem exec_tempoSet (h : Heads s p .tempoSet r rest) :
    exec (.tempoSet p) s = .next (s.tempoSetRequest p r) := whenLive_serve_of_heads h _

theorem exec_trim (h : Heads s p .trim r rest) :
    exec (.trim p) s = .next (s.trimRequest p r) := whenLive_serve_of_heads h _

theorem State.tempoSourceRequest_refused
    (h : decodeSource (r.octetAt 0) (r.octetAt 1) = none ∨ decodeShift (r.octetAt 2) = none) :
    s.tempoSourceRequest p r = s.answer p .range [] := by
  unfold State.tempoSourceRequest
  split
  · next hsrc hshift =>
    rcases h with h | h
    · exact nomatch hsrc.symm.trans h
    · exact nomatch hshift.symm.trans h
  · rfl

theorem State.tempoSourceRequest_selects {src : Source} {shift : Option Nat}
    (hsrc : decodeSource (r.octetAt 0) (r.octetAt 1) = some src) (hshift : decodeShift (r.octetAt 2) = some shift) :
    s.tempoSourceRequest p r = (s.answer p .done []).selectSource src shift := by
  simp only [State.tempoSourceRequest, hsrc, hshift]

/-- What an accepted selection leaves. -/
theorem State.answer_selectSource (hr : (s.port p).requests = r :: rest) (src : Source) (shift : Option Nat) {t : State}
    (ht : t = (s.answer p .done []).selectSource src shift) :
    SameBut [.desk, .tempo] s t ∧ tempoInStep t ∧ t.tempo = s.tempo.select src shift ∧
      t.desk = if t.tempo.state = s.tempo.state
        then (answeredDesk s p r rest .done []).raise (.lock t.tempo.state src s.tempo.base)
        else lockDesk (answeredDesk s p r rest .done []) s.time t.tempo.state src s.tempo.base := by
  subst ht
  have htempo := (s.answer p .done []).selectSource_tempo src shift
  refine ⟨((s.answer_sameBut p .done []).mono (by simp)).trans (State.selectSource_sameBut _ _ _), ?_, htempo, ?_⟩
  · exact tempoInStep_congr (s := s.setTempo (s.tempo.select src shift)) htempo (s.setTempo_recompute_tempoInStep _)
  · rw [htempo, State.selectSource_desk, s.answer_desk p r rest .done [] hr]
    rfl

/-- Settles O34: the octets outside their values are refused; the others name the source that is selected. -/
theorem tempoSourceRule : Obligations.TempoSourceRule := by
  intro s p r rest h
  rw [exec_tempoSource h]
  refine ⟨fun hbad => ?_, fun src shift hsrc hshift => ?_⟩
  · rw [State.tempoSourceRequest_refused]
    · exact onlyAnswers_answer h _ _
    · rcases hbad with hbad | hbad | hbad | ⟨hlow, hhigh⟩
      · exact .inl (decodeSource_unassigned (.inl hbad))
      · exact .inl (decodeSource_unassigned (.inr (.inl hbad)))
      · exact .inl (decodeSource_unassigned (.inr (.inr hbad)))
      · exact .inr (decodeShift_unassigned hlow hhigh)
  · have hdecoded : decodeSource (r.octetAt 0) (r.octetAt 1) = some src := by
      rcases hsrc with ⟨hk, hx, rfl⟩ | ⟨hk, n, hx, rfl⟩ | ⟨hk, rate, hx, rfl⟩ | ⟨hk, hx, rfl⟩ <;> rw [hk, hx]
      · exact decodeSource_internal
      · exact decodeSource_clock n
      · exact decodeSource_sync rate
      · exact decodeSource_mark
    have hcarried : decodeShift (r.octetAt 2) = some shift := by
      rcases hshift with ⟨hv, rfl⟩ | ⟨hv, rfl⟩
      · rw [hv]
        exact decodeShift_absent
      · exact decodeShift_carried hv
    obtain ⟨-, hr, -⟩ := h
    obtain ⟨hframe, hstep, htempo, hdesk⟩ := State.answer_selectSource hr src shift rfl
    rw [State.tempoSourceRequest_selects hdecoded hcarried]
    refine ⟨_, rfl, hframe, hstep, ?_, hdesk⟩
    rw [htempo]
    exact s.tempo.select_eq src shift

/-- What an answer and a tempo computed again leave. -/
theorem State.answer_recompute (hr : (s.port p).requests = r :: rest) (x : Tempo) :
    SameBut [.desk, .tempo] s ((s.answer p .done []).setTempo x.recompute) ∧
      tempoInStep ((s.answer p .done []).setTempo x.recompute) ∧
      ((s.answer p .done []).setTempo x.recompute).desk = answeredDesk s p r rest .done [] :=
  ⟨((s.answer_sameBut p .done []).mono (by simp)).trans ((State.setTempo_sameBut _ _).mono (by simp)),
    State.setTempo_recompute_tempoInStep _ _, s.answer_desk p r rest .done [] hr⟩

/-- Settles O35: TEMPO SET by the range and then the source state, TRIM by the range alone. -/
theorem tempoSetAndTrim : Obligations.TempoSetAndTrim := by
  refine fun s p r rest => ⟨fun h => ?_, fun h => ?_⟩
  · rw [exec_tempoSet h]
    unfold State.tempoSetRequest
    dsimp only
    refine ⟨fun hbad => ?_, fun hlow hhigh => ?_⟩
    · rw [if_pos (by simpa using hbad)]
      exact onlyAnswers_answer h _ _
    · rw [if_neg (by simp; omega)]
      refine ⟨fun hother => ?_, fun hfree => ?_⟩
      · rw [if_pos hother]
        exact onlyAnswers_answer h _ _
      · rw [if_neg (not_not.mpr hfree)]
        obtain ⟨-, hr, -⟩ := h
        obtain ⟨hframe, hstep, hdesk⟩ := State.answer_recompute hr { s.tempo with base := fieldLE r.payload 0 2 }
        exact ⟨_, rfl, hframe, hstep, hdesk, rfl⟩
  · rw [exec_trim h]
    unfold State.trimRequest
    dsimp only
    refine ⟨fun hbad => ?_, fun hlow hhigh => ?_⟩
    · rw [if_pos (by simpa using hbad)]
      exact onlyAnswers_answer h _ _
    · rw [if_neg (by simp; omega)]
      obtain ⟨-, hr, -⟩ := h
      obtain ⟨hframe, hstep, hdesk⟩ :=
        State.answer_recompute hr { s.tempo with trim := signedField (fieldLE r.payload 0 2) 16 }
      exact ⟨_, rfl, hframe, hstep, hdesk, rfl⟩

end

end Sys2Proof.Machine
end

section
/-! The click boundary (O33) and the holdover expiry (O40): what the Tempo Engine makes of a microsecond that reaches a
subdivision, and of its deadline in LOCKED (R124, R137, R139, R147, R149). -/
namespace Sys2Proof.Machine

/-! ### A subdivision reached (R124, R147) -/

theorem Pattern.subdivisionClick_toList (p : Pattern) (bar : Int) :
    (p.subdivisionClick bar).toList = if 0 ≤ bar then [p.subdivision] else [] := by
  unfold Pattern.subdivisionClick
  by_cases h : bar < 0
  · rw [if_pos h, if_neg (by omega)]
    rfl
  · rw [if_neg h, if_pos (by omega)]
    rfl

/-- The subdivision click that waits from bar 0 on, while the audio clock is PRESENT. -/
theorem ClickGen.ask_subdivision (g : ClickGen) (bar : Int) :
    g.ask (g.pattern.subdivisionClick bar) = { g with
      waiting := g.waiting ++ if g.audio = .present ∧ 0 ≤ bar then [g.pattern.subdivision] else [] } := by
  rw [ClickGen.ask_eq, Pattern.subdivisionClick_toList, ite_and]

section
variable {s : State} {k : Nat} (hk : s.tempo.phase.toNat * s.click.pattern.division / 2 ^ 32 = k)
include hk

/-- A subdivision above the click index is taken, and its click waits. -/
theorem State.clickIfRisen_risen (h : s.tempo.clickIndex < k) :
    s.clickIfRisen = (s.setTempo { s.tempo with clickIndex := k }).setClick { s.click with
      waiting := s.click.waiting ++
        if s.click.audio = .present ∧ 0 ≤ s.scene.position.bar then [s.click.pattern.subdivision] else [] } := by
  subst hk
  rw [← ClickGen.ask_subdivision]
  exact if_pos h

theorem State.clickIfRisen_kept (h : k ≤ s.tempo.clickIndex) : s.clickIfRisen = s := by
  subst hk
  exact if_neg (Nat.not_lt.mpr h)

end

/-- An owed advance that does not carry is made by CLICK_BOUNDARY, with the subdivision it reaches. -/
theorem exec_clickBoundary {s : State} {inc : Nat} (hl : s.live = true) (ho : s.tempo.phaseOwed = some inc)
    (hc : s.tempo.phase.toNat + inc < 2 ^ 32) :
    exec .clickBoundary s = .next (s.phaseMoved inc).clickIfRisen := by
  have hcarry : s.tempo.carries inc = false := decide_eq_false (Nat.not_le.mpr hc)
  refine (whenLive_of_live (fun s => s.boundary false) hl).trans (congrArg _ ?_)
  simp only [State.boundary, State.phaseDue, ho, hcarry, if_true]
  exact if_neg (Bool.eq_false_iff.mp hcarry)

/-- A phase that is advanced short of its end is the sum. -/
theorem phaseMoved_sums {s : State} {inc : Nat} (hc : s.tempo.phase.toNat + inc < 2 ^ 32) :
    (s.phaseMoved inc).tempo.phase.toNat = s.tempo.phase.toNat + inc := by
  rw [State.phaseMoved, State.setTempo_tempo, BitVec.toNat_add, BitVec.toNat_ofNat]
  omega

/-- Settles O33: the phase is advanced, and the subdivision it reaches is above the click index. -/
theorem clickBoundaryRule : Obligations.ClickBoundaryRule := by
  intro s inc hl ho hc hrise
  have hk := congrArg (fun n => n * s.click.pattern.division / 2 ^ 32) (phaseMoved_sums hc)
  rw [exec_clickBoundary hl ho hc, State.clickIfRisen_risen (s := s.phaseMoved inc) hk hrise]
  refine ⟨_, rfl, ?_, rfl, rfl⟩
  exact (((s.setTempo_sameBut _).mono (by simp)).trans ((State.setTempo_sameBut _ _).mono (by simp))).trans
    ((State.setClick_sameBut _ _).mono (by simp))

/-! ### The holdover deadline (R137, R139) -/

theorem exec_holdoverExpiry {s : State} (hl : s.live = true) : exec .holdoverExpiry s = .next s.holdoverStep :=
  whenLive_of_live _ hl

/-- The holdover is due in LOCKED alone, from its deadline on. -/
theorem State.holdoverDue_iff (s : State) : s.holdoverDue = true ↔
    s.tempo.state = .locked ∧
      ∃ d, s.tempo.reference.holdoverDeadline = some d ∧ (s.time - d).toNat < 2 ^ 31 := by
  unfold State.holdoverDue
  split
  · next d hs hd =>
    refine ⟨fun hdue => ⟨hs, d, hd, of_decide_eq_true hdue⟩, ?_⟩
    rintro ⟨-, e, he, hdue⟩
    cases hd.symm.trans he
    exact reached_of_lt hdue
  · next hnot =>
    refine iff_of_false nofun ?_
    rintro ⟨hs, d, hd, -⟩
    exact hnot d hs hd

/-- Settles O40: the expiry where it is due, and nothing anywhere else. -/
theorem holdoverExpires : Obligations.HoldoverExpires := by
  intro s hl
  rw [exec_holdoverExpiry hl, State.holdoverStep]
  refine ⟨fun d hs hd hdue => ?_, fun hnot => ?_⟩
  · rw [if_pos (s.holdoverDue_iff.mpr ⟨hs, d, hd, hdue⟩)]
    exact ⟨_, rfl, s.expireHoldover_sameBut.mono (by simp), rfl, rfl⟩
  · rw [if_neg]
    rw [s.holdoverDue_iff]
    rintro ⟨hs, d, hd, hdue⟩
    rcases hnot with h | h | ⟨e, he, hlate⟩
    · exact h hs
    · exact nomatch h.symm.trans hd
    · cases hd.symm.trans he
      omega

end Sys2Proof.Machine
end

section
/-! Timed requests (O36): a TAP or a BEAT MARK is taken at the end of its transfer and answered in its turn, and a
downbeat realigns (R115, R141, R142, R160 to R163). -/
namespace Sys2Proof.Machine

/-! ### Beat marks (R142) -/

section
variable {s : State}

theorem State.beatMark_other (h : s.tempo.source ≠ .mark) (downbeat : Bool) : s.beatMark downbeat = s := if_neg h

theorem State.beatMark_pulse (h : s.tempo.source = .mark) : s.beatMark false = s.pulse := if_pos h

theorem State.beatMark_downbeat (h : s.tempo.source = .mark) :
    s.beatMark true = s.pulse.realign (s.pulse.tempo.phase.toInt < 0) := if_pos h

end

/-! ### Realignment (R115) -/

theorem nextBar_eq (bar : Int) : nextBar bar = if bar = 32767 then 32767 else bar + 1 := by
  unfold nextBar
  split
  · assumption
  · rfl

/-- The beat just emitted has become beat 0 of the next bar, as a BAR SLIP. -/
def State.slipped (u : State) : State :=
  (u.setScene { u.scene with position := { u.scene.position with
    beat := 0, bar := nextBar u.scene.position.bar, newBarOwed := false } }).report .barSlips 0

section
variable (u : State)

/-- To the next beat: it owes a bar, and slips unless it would be a bar boundary anyway. -/
theorem State.realign_next :
    (u.realign true).scene = { u.scene with position := { u.scene.position with newBarOwed := true } } ∧
      (u.realign true).desk =
        (if u.scene.position.beat + 1 < u.scene.meter then u.desk.report .barSlips 0 else u.desk).raise
          (.position u.scene.position.song u.scene.position.bar u.scene.position.beat u.scene.generation) := by
  rw [State.realign, if_pos rfl]
  dsimp only
  by_cases h : u.scene.position.beat + 1 < u.scene.meter
  · rw [if_pos h, if_pos h]
    exact ⟨rfl, rfl⟩
  · rw [if_neg h, if_neg h]
    exact ⟨rfl, rfl⟩

variable {u}

/-- To a beat that is beat 0 already: only POSITION. -/
theorem State.realign_zero (h : u.scene.position.beat = 0) : u.realign false = u.raisePosition := by
  rw [State.realign, if_neg nofun]
  exact if_pos h

/-- To another beat: it slips, with SONG START where the bar rises from -1. -/
theorem State.realign_slips (h : u.scene.position.beat ≠ 0) : u.realign false =
    (if u.scene.position.bar = -1 then u.slipped.songStart else u.slipped).raisePosition := by
  rw [State.realign, if_neg nofun]
  exact if_neg h

theorem State.realign_slips_scene (h : u.scene.position.beat ≠ 0) : (u.realign false).scene = u.slipped.scene := by
  rw [State.realign_slips h]
  split
  · exact u.slipped.songStart_sameBut .scene (by decide)
  · rfl

/-- The desk of a slip: the report, SONG START in SHOW where the bar rises from -1, and POSITION. -/
theorem State.realign_slips_desk (h : u.scene.position.beat ≠ 0) {d : Desk}
    (hsong : ∀ song, u.scene.mode = .showMode → u.scene.position.song = some song → u.scene.position.bar = -1 →
      d = (u.desk.report .barSlips 0).raise (.songStart song (u.mem.song song).tag u.scene.generation))
    (hnone : u.scene.mode = .setupMode ∨ u.scene.position.song = none ∨ u.scene.position.bar ≠ -1 →
      d = u.desk.report .barSlips 0) :
    (u.realign false).desk = d.raise (.position u.scene.position.song (nextBar u.scene.position.bar) 0
      u.scene.generation) := by
  have hraise : ∀ t : State, t.scene = u.slipped.scene → t.desk = d → t.raisePosition.desk =
      d.raise (.position u.scene.position.song (nextBar u.scene.position.bar) 0 u.scene.generation) := by
    rintro t hs rfl
    rw [State.raisePosition, hs]
    rfl
  rw [State.realign_slips h]
  by_cases hbar : u.scene.position.bar = -1
  · rw [if_pos hbar]
    refine hraise _ (u.slipped.songStart_sameBut .scene (by decide)) ?_
    cases hm : u.scene.mode with
    | setupMode => rw [State.songStart_none (s := u.slipped) (.inl hm), hnone (.inl hm)]; rfl
    | showMode =>
      cases hs : u.scene.position.song with
      | none => rw [State.songStart_none (s := u.slipped) (.inr hs), hnone (.inr (.inl hs))]; rfl
      | some song => rw [State.songStart_show (s := u.slipped) hs hm, hsong song hm hs hbar]; rfl
  · rw [if_neg hbar]
    exact hraise _ rfl (hnone (.inr (.inr hbar))).symm

end

/-- A downbeat is a pulse and the realignment that the phase chooses. -/
theorem downbeatRealigns : DownbeatRealigns := by
  refine fun s => ⟨State.beatMark_other, fun hmark => ⟨State.beatMark_pulse hmark, fun u hu => ?_⟩⟩
  have hbeat := State.beatMark_downbeat hmark
  rw [← hu] at hbeat
  rw [hbeat]
  refine ⟨(u.realign_sameBut _).mono (by simp), fun hlate => ?_, fun hearly hzero => ?_, fun hearly hother => ?_⟩
  · rw [decide_eq_true hlate]
    exact u.realign_next
  all_goals rw [decide_eq_false (Int.not_lt.mpr hearly)]
  · rw [State.realign_zero hzero]
    refine ⟨rfl, ?_⟩
    rw [← hzero]
    rfl
  · rw [State.realign_slips_scene hother]
    refine ⟨?_, State.realign_slips_desk hother (fun song hm hs hbar => ?_) fun hnone => ?_⟩
    · rw [← nextBar_eq]
      rfl
    · rw [hm, hs]
      exact if_pos hbar
    · split
      · next hm hs =>
        refine if_neg ?_
        rcases hnone with h | h | h
        · exact nomatch hm.symm.trans h
        · exact nomatch hs.symm.trans h
        · exact h
      · rfl

/-! ### Whole transfers (R159 to R162) -/

/-- A whole transfer leaves the frames behind the one that it read. -/
theorem PortState.endWhole_leaves {x : PortState} {side : OutboundSide} {left : List Frame} {n : Nat}
    (h : (side = .idleFill ∧ left = x.outbound) ∨
      (side = .queuedFrame ∧ ∃ f, x.outbound = f :: left ∧ f.octets.length ≤ n)) :
    x.outboundWhole side n = true ∧ x.endWhole side = { x with transfer := .idle, outbound := left } := by
  rcases h with ⟨rfl, rfl⟩ | ⟨rfl, f, hf, hn⟩
  · exact ⟨rfl, rfl⟩
  · simp [PortState.outboundWhole, PortState.endWhole, hf, hn]

theorem PortState.appendRequest_eq (x : PortState) (now : StageTime) (r : Request) :
    x.appendRequest now r = { x with
      requests := x.requests ++ [r]
      handledSince := if x.requests = [] then now else x.handledSince } := by
  simp [PortState.appendRequest]

/-- The part once a whole transfer at port `p` has ended, with `left` in the outbound queue. -/
def State.wholeEnded (s : State) (p : Port) (left : List Frame) : State :=
  s.setPort p { s.port p with transfer := .idle, outbound := left }

/-- The request `r` waits at port `p` behind the others. -/
def State.appended (s : State) (p : Port) (r : Request) : State := s.setPort p ((s.port p).appendRequest s.time r)

theorem State.port_setPort (s : State) (p : Port) (x : PortState) : (s.setPort p x).port p = x := by
  rw [State.port, State.setPort_desk, Desk.port_setPort, if_pos rfl]

section
variable {s : State} {p : Port} {r : Request}

/-- What the end of a whole transfer leaves with the request it carried waiting. -/
theorem State.wholeEnded_appended (s : State) (p : Port) (left : List Frame) (r : Request) :
    SameBut [.desk] s ((s.wholeEnded p left).appended p r) ∧
      ((s.wholeEnded p left).appended p r).desk = s.desk.setPort p { s.port p with
        transfer := .idle
        outbound := left
        requests := (s.port p).requests ++ [r]
        handledSince := if (s.port p).requests = [] then s.time else (s.port p).handledSince } := by
  refine ⟨(s.setPort_sameBut p _).trans (State.setPort_sameBut _ p _), ?_⟩
  rw [State.appended, State.wholeEnded, State.port_setPort, PortState.appendRequest_eq, State.setPort_desk,
    State.setPort_desk, Desk.setPort_setPort]
  rfl

section
variable (hroom : (s.port p).requests.length < 4)
include hroom

theorem State.placeRequest_tap (hc : classify p r = .tap) :
    s.placeRequest p r = (s.appended p { r with decided := some s.tapStatus }).tap := by
  simp only [State.placeRequest, Config.requestSize, if_pos hroom, hc, State.appended]

theorem State.placeRequest_beatMark (hc : classify p r = .beatMark) :
    s.placeRequest p r = (s.appended p { r with decided := some s.markStatus }).beatMark (r.octetAt 0 % 2 = 1) := by
  simp only [State.placeRequest, Config.requestSize, if_pos hroom, hc, State.appended]

end

/-- TRANSFER_END of a whole transfer that carries a request. -/
theorem exec_transferEnd_whole {octets received : List Byte} {side : OutboundSide} {left : List Frame}
    (hl : s.live = true) (ht : (s.port p).transfer = .inTransfer received side)
    (hside : (side = .idleFill ∧ left = (s.port p).outbound) ∨
      (side = .queuedFrame ∧ ∃ f, (s.port p).outbound = f :: left ∧ f.octets.length ≤ (received ++ octets).length))
    (hc : carriesFrame (received ++ octets) = true) (hr : inboundRequest (received ++ octets) = some r) :
    exec (.transferEnd p octets) s = .next ((s.wholeEnded p left).placeRequest p r) := by
  obtain ⟨hwhole, hleft⟩ := PortState.endWhole_leaves hside
  show execTransferEnd p octets s = _
  rw [execTransferEnd, whenLive_of_live _ hl]
  simp only [ht, State.endTransfer, hwhole, hc, hr, hleft, if_true, State.wholeEnded]

end

/-! ### The frames of TAP and BEAT MARK (R188) -/

theorem inboundRequest_tap (tag : Byte) (more : List Byte) :
    inboundRequest (3 :: 0x12 :: tag :: more) = some ⟨3, 0x12, tag, [], none⟩ := by
  simp [inboundRequest, fieldLE, numberLE]

theorem inboundRequest_beatMark (tag flag : Byte) (more : List Byte) :
    inboundRequest (4 :: 0x13 :: tag :: flag :: more) = some ⟨4, 0x13, tag, [flag], none⟩ := by
  simp [inboundRequest, fieldLE, numberLE]

theorem classify_tapFrame (p : Port) (tag : Byte) (d : Option Status) : classify p ⟨3, 0x12, tag, [], d⟩ = .tap := rfl

theorem classify_beatMarkFrame (tag flag : Byte) (d : Option Status) :
    classify .showPort ⟨4, 0x13, tag, [flag], d⟩ = .beatMark := rfl

/-- Bit 0 of the one octet of a BEAT MARK is its downbeat flag. -/
theorem octetAt_downbeat (tag flag : Byte) (d : Option Status) :
    decide (Request.octetAt ⟨4, 0x13, tag, [flag], d⟩ 0 % 2 = 1) = flag.getLsbD 0 := by
  simp [Request.octetAt, fieldLE, numberLE, BitVec.getLsbD]

/-! ### The commands -/

section
variable {s : State} {p : Port} {r : Request} {rest : List Request}

theorem exec_tap (h : Heads s p .tap r rest) : exec (.tap p) s = .next (s.tapRequest p r) :=
  whenLive_serve_of_heads h _

theorem exec_beatMark (h : Heads s .showPort .beatMark r rest) :
    exec .beatMark s = .next (s.beatMarkRequest .showPort r) := whenLive_serve_of_heads h _

end

/-- Settles O36: a downbeat realigns, a decided request is answered with its status, and the end of a transfer appends
what it carried before the Tempo Engine takes it. -/
theorem timedRequestsAnswered : Obligations.TimedRequestsAnswered := by
  refine ⟨downbeatRealigns, fun s p r rest st h hst => ?_, fun s r rest st h hst => ?_, ?_⟩
  · rw [exec_tap h, State.tapRequest, hst]
    exact onlyAnswers_answer h st []
  · rw [exec_beatMark h, State.beatMarkRequest, hst]
    exact onlyAnswers_answer h st []
  intro s p octets received more tag flag side left hl ht hroom hside
  have hroom' : ((s.wholeEnded p left).port p).requests.length < 4 := by
    rw [State.wholeEnded, State.port_setPort]
    exact hroom
  refine ⟨fun hall => ?_, fun hp hall => ?_⟩
  · have hexec := exec_transferEnd_whole hl ht hside (by rw [hall]; rfl) (hall ▸ inboundRequest_tap tag more)
    rw [State.placeRequest_tap hroom' (classify_tapFrame p tag none)] at hexec
    exact ⟨_, hexec, s.wholeEnded_appended p left _⟩
  · subst hp
    have hexec := exec_transferEnd_whole hl ht hside (by rw [hall]; rfl) (hall ▸ inboundRequest_beatMark tag flag more)
    rw [State.placeRequest_beatMark hroom' (classify_beatMarkFrame tag flag none), octetAt_downbeat] at hexec
    exact ⟨_, hexec, s.wholeEnded_appended .showPort left _⟩

end Sys2Proof.Machine
end

section
/-! Reference beats (O39): the measurement of an interval, the windows around a tempo, and what a pulse is (R130, R131,
R132, R134). -/
namespace Sys2Proof.Machine

/-! ### Measurements and windows (R131, R132, R134) -/

theorem measure_of_measures {i m : Nat} (h : Measures i m) : measure i = some m := by
  obtain ⟨hlow, hhigh, rfl⟩ := h
  exact if_pos ⟨hlow, hhigh⟩

theorem measure_outOfRange {i : Nat} (h : i < 200000 ∨ 3000000 < i) : measure i = none :=
  if_neg fun ⟨hlow, hhigh⟩ => by omega

theorem within_iff (percent m base : Nat) : within percent m base = true ↔ Near percent m base := decide_eq_true_iff

theorem Tempo.followable_near {t : Tempo} {i m : Nat} (h : Measures i m) (hn : Near 12 m t.base) :
    t.followable i = some m := by
  simp only [Tempo.followable, measure_of_measures h, (within_iff _ _ _).mpr hn, if_true]

theorem Tempo.followable_outlier {t : Tempo} {i : Nat} (h : IsOutlier t.base i) : t.followable i = none := by
  rcases h with h | ⟨m, h, hn⟩
  · simp only [Tempo.followable, measure_outOfRange h]
  · simp only [Tempo.followable, measure_of_measures h]
    exact if_neg ((within_iff _ _ _).not.mpr hn)

/-- The rate step, as the clamped share of the difference (R134). -/
theorem followedBase_eq (base m shift : Nat) :
    (followedBase base m shift : Int) = min 30000 (max 2000 (base + ((m : Int) - base).tdiv (2 ^ shift))) := by
  have h := clampInt_eq 2000 30000 ((base : Int) + ((m : Int) - base).tdiv (2 ^ shift)) (by decide)
  rw [followedBase, h]
  omega

/-- The phase step: the phase less the shifted error, but for an error of -1 (R135). -/
theorem correctedPhase_eq (phase : BitVec 32) (shift : Nat) : correctedPhase phase shift =
    if phase.toInt = -1 then phase else phase - BitVec.ofInt 32 (phase.toInt / 2 ^ (shift + 1)) := by
  have hdiv : phase.toInt.fdiv (2 ^ (shift + 1)) = phase.toInt / 2 ^ (shift + 1) :=
    Int.fdiv_eq_ediv_of_nonneg _ (by positivity)
  rw [correctedPhase, phaseError, hdiv, Int.sub_eq_add_neg, BitVec.ofInt_add, BitVec.ofInt_neg,
    ← BitVec.sub_eq_add_neg, BitVec.ofInt_natCast, BitVec.ofNat_toNat, BitVec.setWidth_eq]

/-! ### Pulses (R130) -/

theorem pulsesPerBeat_eq {src : Source} {rate : Nat} (h : pulsesPerBeat src = some rate) :
    src.pulsesPerBeat = rate := by
  cases src with
  | internal => exact nomatch h
  | _ => exact Option.some.inj h

/-- The part once a reference beat has set the pulse count and the time of the beat. -/
def State.beatSeen (s : State) : State := s.setReference (atBeat s.tempo.reference s.time)

/-- A pulse that is a reference beat. -/
theorem State.pulse_refBeat {s : State} {i : Option Nat} (h : RefBeat s i) :
    s.pulse = s.beatSeen.referenceBeat i := by
  obtain ⟨rate, hrate, h⟩ := h
  cases i with
  | none =>
    have hp : s.tempo.reference.pulses = none := h
    simp only [State.pulse, hp]
    rfl
  | some i =>
    obtain ⟨⟨k, hp, hk⟩, last, hlast, rfl⟩ := h
    have hbeat : ¬k + 1 < s.tempo.source.pulsesPerBeat := by
      rw [pulsesPerBeat_eq hrate]
      omega
    simp only [State.pulse, hp, if_neg hbeat, hlast]
    rfl

/-- The command that delivers a pulse takes it (R130). -/
theorem exec_pulseArrives {s u : State} {c : Instr} (hl : s.live = true) (h : PulseArrives s u c) :
    exec c s = .next u.pulse := by
  rcases h with ⟨rfl, ⟨rate, hsrc⟩, hlow, rfl⟩ | ⟨n, rfl, hsrc, rfl⟩
  · rw [exec_syncEdge hl, State.syncRise_of_low hlow, hsrc]
    rfl
  · rw [exec_clock hl, State.timing_clock hsrc]

/-! ### The rule of the source state (R131, R132, R134, R136, R138) -/

section
variable {s : State} {i : Nat}

theorem State.referenceBeat_acquiring_none (hs : s.tempo.state = .acquiring) : s.referenceBeat none = s := by
  simp only [State.referenceBeat, hs]

theorem State.referenceBeat_acquires {m : Nat} (hs : s.tempo.state = .acquiring) (h : Measures i m) :
    s.referenceBeat (some i) = s.acquire m := by
  simp only [State.referenceBeat, hs, measure_of_measures h]

theorem State.referenceBeat_outOfRange (hs : s.tempo.state = .acquiring) (h : i < 200000 ∨ 3000000 < i) :
    s.referenceBeat (some i) = (s.setReference { s.tempo.reference with
      acquisitionRun := 0, previous := none }).report .referenceOutliers 0 := by
  simp only [State.referenceBeat, hs, measure_outOfRange h]

theorem State.referenceBeat_locked_none (hs : s.tempo.state = .locked) :
    s.referenceBeat none = s.countRef.setHoldover := by
  simp only [State.referenceBeat, hs]

theorem State.referenceBeat_holdover_none (hs : s.tempo.state = .holdover) : s.referenceBeat none = s := by
  simp only [State.referenceBeat, hs]

theorem State.referenceBeat_follows {m : Nat} (hs : s.tempo.state = .locked) (h : Measures i m)
    (hn : Near 12 m s.tempo.base) : s.referenceBeat (some i) = (s.countRef.follow m).setHoldover := by
  simp only [State.referenceBeat, hs, Tempo.followable_near h hn]

/-- The part back in LOCKED. -/
def State.relocked (s : State) : State := s.setTempo { s.tempo with state := .locked }

theorem State.referenceBeat_returns {m : Nat} (hs : s.tempo.state = .holdover) (h : Measures i m)
    (hn : Near 12 m s.tempo.base) : s.referenceBeat (some i) =
      ((s.relocked.countRef.follow m).setReference { (s.relocked.countRef.follow m).tempo.reference with
        holdoverBeats := 0 }).setHoldover.reportLock := by
  simp only [State.referenceBeat, hs, Tempo.followable_near h hn, State.relocked]

theorem State.referenceBeat_locked_outlier (hs : s.tempo.state = .locked) (h : IsOutlier s.tempo.base i) :
    s.referenceBeat (some i) = if s.countRef.outlier.tempo.state = .locked then s.countRef.outlier.setHoldover
      else s.countRef.outlier := by
  simp only [State.referenceBeat, hs, Tempo.followable_outlier h]

theorem State.referenceBeat_holdover_outlier (hs : s.tempo.state = .holdover) (h : IsOutlier s.tempo.base i) :
    s.referenceBeat (some i) = s.outlier := by
  simp only [State.referenceBeat, hs, Tempo.followable_outlier h]

/-- The holdover deadline, two beats of the base tempo after the last reference beat (R137). -/
theorem State.setHoldover_after {last : StageTime} (h : s.tempo.reference.lastBeat = some last) :
    s.setHoldover = s.setReference { s.tempo.reference with
      holdoverDeadline := some (last + BitVec.ofNat 32 (12000000000 / s.tempo.base)) } := by
  rw [State.setHoldover, h]
  rfl

end

end Sys2Proof.Machine
end

section
/-! Reference beats in LOCKED and HOLDOVER (O39): the follow and the outliers (R124, R134 to R138). -/
namespace Sys2Proof.Machine

/-! ### A followed beat (R124, R134, R135) -/

/-- A change of phase takes the click index up to the subdivision reached, and its click waits where that is higher. -/
theorem State.clickIfRisen_eq {s : State} {k : Nat}
    (hk : s.tempo.phase.toNat * s.click.pattern.division / 2 ^ 32 = k) :
    s.clickIfRisen = (s.setTempo { s.tempo with clickIndex := max s.tempo.clickIndex k }).setClick { s.click with
      waiting := s.click.waiting ++ if s.tempo.clickIndex < k ∧ s.click.audio = .present ∧ 0 ≤ s.scene.position.bar
        then [s.click.pattern.subdivision] else [] } := by
  rcases Nat.lt_or_ge s.tempo.clickIndex k with h | h
  · rw [State.clickIfRisen_risen hk h, Nat.max_eq_right h.le]
    simp only [h, true_and]
  · rw [State.clickIfRisen_kept hk h, Nat.max_eq_left h, if_neg fun hrise => Nat.not_lt.mpr h hrise.1, List.append_nil]
    rfl

/-- The Tempo Engine with the rate step of a follow made (R134). -/
def Tempo.rateStepped (x : Tempo) (m : Nat) : Tempo :=
  Tempo.recompute { x with base := followedBase x.base m x.followShift }

/-- The phase that a follow leaves (R135). -/
def Tempo.followedPhase (x : Tempo) : BitVec 32 := correctedPhase x.phase x.followShift

section
variable (a : State) (m : Nat)

/-- The part with both steps of a follow made, before the subdivision that the phase reaches is looked at. -/
def State.stepped : State :=
  a.setTempo { a.tempo.rateStepped m with phase := a.tempo.followedPhase }

theorem State.follow_stepped : a.follow m = (a.stepped m).clickIfRisen.setReference
    { (a.stepped m).clickIfRisen.tempo.reference with outlierRun := 0 } := rfl

theorem State.follow_tempo : (a.follow m).tempo = { a.tempo.rateStepped m with
    phase := a.tempo.followedPhase
    clickIndex := max a.tempo.clickIndex (a.tempo.followedPhase.toNat * a.click.pattern.division / 2 ^ 32)
    reference := { a.tempo.reference with outlierRun := 0 } } := by
  rw [State.follow_stepped, State.clickIfRisen_eq rfl]
  rfl

theorem State.follow_click : (a.follow m).click = { a.click with
    waiting := a.click.waiting ++
      if a.tempo.clickIndex < a.tempo.followedPhase.toNat * a.click.pattern.division / 2 ^ 32 ∧
        a.click.audio = .present ∧ 0 ≤ a.scene.position.bar then [a.click.pattern.subdivision] else [] } := by
  rw [State.follow_stepped, State.clickIfRisen_eq rfl]
  rfl

theorem State.follow_tempoInStep : tempoInStep (a.follow m) :=
  (State.setReference_steady _ _).tempo ((State.clickIfRisen_steady _).tempo
    (show tempoInStep (a.stepped m) from a.setTempo_recompute_tempoInStep _))

end

/-- The part at a followed beat: in LOCKED, with the beat seen and counted. -/
structure AtFollow (s a : State) : Prop where
  tempo : a.tempo = { s.tempo with
    state := .locked, refBeats := s.tempo.refBeats + 1, reference := atBeat s.tempo.reference s.time }
  others : SameBut [.tempo] s a

/-- The reference fields after a followed beat (R134, R137). -/
def followedReference (s : State) (base beats : Nat) : Reference :=
  { atBeat s.tempo.reference s.time with
    outlierRun := 0
    holdoverDeadline := some (s.time + BitVec.ofNat 32 (12000000000 / base))
    holdoverBeats := beats }

section
variable {s a t : State} {m : Nat} (ha : AtFollow s a)
include ha

/-- A follow sets the base tempo of the rate step, and finds the time of the beat. -/
theorem AtFollow.follow_reference :
    (a.follow m).tempo.reference = { atBeat s.tempo.reference s.time with outlierRun := 0 } := by
  rw [State.follow_tempo, ha.tempo]

/-- A follow with its reference fields set has been made as O39 says. -/
theorem AtFollow.followed {beats : Nat} (hclick : t.click = (a.follow m).click)
    (ht : t.tempo = { (a.follow m).tempo with
      reference := followedReference s (a.follow m).tempo.base beats }) : Followed s t m := by
  have hac : a.click = s.click := ha.others .click (by decide)
  have has : a.scene = s.scene := ha.others .scene (by decide)
  have hphase : t.tempo.phase = a.tempo.followedPhase := by rw [ht, State.follow_tempo]
  have hbase : t.tempo.base = followedBase s.tempo.base m s.tempo.followShift := by
    rw [ht, State.follow_tempo, ha.tempo]
    rfl
  refine ⟨?_, ?_, ?_, ?_, ?_⟩
  · rw [hbase]
    exact followedBase_eq _ _ _
  · rw [hphase, Tempo.followedPhase, ha.tempo]
    exact correctedPhase_eq _ _
  · have hstep := a.follow_tempoInStep m
    rw [tempoInStep] at hstep ⊢
    rw [ht]
    exact hstep
  · rw [hphase, ht, State.follow_tempo, hac, ha.tempo]
    rfl
  · rw [hphase, hclick, State.follow_click, hac, has, ha.tempo]

/-- The reference fields that a follow leaves take the deadline, two beats after the beat followed (R137). -/
theorem AtFollow.setHoldover : (a.follow m).setHoldover = (a.follow m).setReference
    (followedReference s (a.follow m).tempo.base s.tempo.reference.holdoverBeats) := by
  rw [State.setHoldover_after (last := s.time) (by rw [ha.follow_reference]; rfl), ha.follow_reference]
  rfl

/-- So they do with the holdover beat count cleared (R138). -/
theorem AtFollow.clear_setHoldover :
    ((a.follow m).setReference { (a.follow m).tempo.reference with holdoverBeats := 0 }).setHoldover =
      (a.follow m).setReference (followedReference s (a.follow m).tempo.base 0) := by
  rw [State.setHoldover_after (last := s.time) (by rw [ha.follow_reference]; rfl), ha.follow_reference]
  rfl

end

section
variable {s : State} {i m : Nat} (hbeat : RefBeat s (some i)) (hm : Measures i m) (hn : Near 12 m s.tempo.base)
include hbeat hm hn

/-- A followed beat in LOCKED (R134, R135, R137). -/
theorem State.pulse_followed (hs : s.tempo.state = .locked) : SameBut [.tempo, .click] s s.pulse ∧
    Followed s s.pulse m ∧ s.pulse.tempo.reference.holdoverBeats = s.tempo.reference.holdoverBeats := by
  have ha : AtFollow s s.beatSeen.countRef :=
    ⟨by rw [← hs]; rfl, (s.setReference_sameBut _).trans (State.countRef_sameBut _)⟩
  have hpulse : s.pulse = (s.beatSeen.countRef.follow m).setReference
      (followedReference s (s.beatSeen.countRef.follow m).tempo.base s.tempo.reference.holdoverBeats) := by
    rw [State.pulse_refBeat hbeat, State.referenceBeat_follows (s := s.beatSeen) hs hm hn, ha.setHoldover]
  rw [hpulse]
  exact ⟨((ha.others.mono (by simp)).trans (State.follow_sameBut _ m)).trans
    ((State.setReference_sameBut _ _).mono (by simp)), ha.followed rfl rfl, rfl⟩

/-- A followed beat in HOLDOVER returns the state to LOCKED, and is reported (R138, R139). -/
theorem State.pulse_returns (hs : s.tempo.state = .holdover) : SameBut [.desk, .tempo, .click] s s.pulse ∧
    Followed s s.pulse m ∧ s.pulse.tempo.reference.holdoverBeats = 0 ∧
    s.pulse.desk = lockDesk s.desk s.time .locked s.tempo.source s.pulse.tempo.base := by
  have ha : AtFollow s s.beatSeen.relocked.countRef :=
    ⟨rfl, ((s.setReference_sameBut _).trans (State.setTempo_sameBut _ _)).trans (State.countRef_sameBut _)⟩
  have hpulse : s.pulse = ((s.beatSeen.relocked.countRef.follow m).setReference
      (followedReference s (s.beatSeen.relocked.countRef.follow m).tempo.base 0)).reportLock := by
    rw [State.pulse_refBeat hbeat, State.referenceBeat_returns (s := s.beatSeen) hs hm hn, ha.clear_setHoldover]
  have hfollow := (ha.others.mono (by simp)).trans (State.follow_sameBut s.beatSeen.relocked.countRef m)
  have hdesk : (s.beatSeen.relocked.countRef.follow m).desk = s.desk := hfollow .desk (by decide)
  have htime : (s.beatSeen.relocked.countRef.follow m).time = s.time := hfollow .time (by decide)
  rw [hpulse]
  refine ⟨((hfollow.mono (by simp)).trans ((State.setReference_sameBut _ _).mono (by simp))).trans
    ((State.reportLock_sameBut _).mono (by simp)), ha.followed rfl rfl, rfl, ?_⟩
  have hreport : ∀ (u : State) (x : Reference), (u.setReference x).reportLock.desk =
      lockDesk u.desk u.time u.tempo.state u.tempo.source u.tempo.base := fun _ _ => rfl
  rw [hreport, hdesk, htime, State.reportLock_sameBut _ .tempo (by decide)]
  show lockDesk _ _ _ _ _ = lockDesk _ _ _ _ (s.beatSeen.relocked.countRef.follow m).tempo.base
  rw [State.follow_tempo]
  rfl

end

/-! ### Outliers (R136) -/

section
variable {s : State}

theorem State.outlier_counts (h : s.tempo.reference.outlierRun < 2) :
    s.outlier = (s.report .referenceOutliers 0).setReference { s.tempo.reference with
      outlierRun := s.tempo.reference.outlierRun + 1 } :=
  if_pos (Nat.succ_lt_succ h)

/-- The third outlier in a row returns the state to ACQUIRING, and is reported. -/
theorem State.outlier_third (h : 2 ≤ s.tempo.reference.outlierRun) :
    s.outlier.desk = lockDesk (s.desk.report .referenceOutliers 0) s.time .acquiring s.tempo.source s.tempo.base ∧
      s.outlier.tempo = { s.tempo with state := .acquiring, reference := s.tempo.reference.relisten } := by
  have hthird : s.outlier = ((s.report .referenceOutliers 0).setTempo { s.tempo with
      state := .acquiring, reference := s.tempo.reference.relisten }).reportLock :=
    if_neg (Nat.not_lt.mpr (Nat.succ_le_succ h))
  rw [hthird, State.reportLock_desk]
  exact ⟨rfl, rfl⟩

variable {i : Nat} (hbeat : RefBeat s (some i)) (hout : IsOutlier s.tempo.base i)
include hbeat hout

theorem State.outlierRule_locked (hs : s.tempo.state = .locked) : OutlierRule s := by
  rintro refBeats t hrefs rfl
  rw [if_pos hs] at hrefs
  subst hrefs
  have hpulse := (State.pulse_refBeat hbeat).trans (State.referenceBeat_locked_outlier (s := s.beatSeen) hs hout)
  have hseen : SameBut [.desk, .tempo] s s.beatSeen.countRef.outlier :=
    (((s.setReference_sameBut _).mono (by simp)).trans ((State.countRef_sameBut _).mono (by simp))).trans
      ((State.outlier_sameBut _).mono (by simp))
  rcases Nat.lt_or_ge s.tempo.reference.outlierRun 2 with hrun | hrun
  · have hout := State.outlier_counts (s := s.beatSeen.countRef) hrun
    rw [if_pos (by rw [hout]; exact hs)] at hpulse
    rw [hpulse]
    refine ⟨hseen.trans ((State.setHoldover_sameBut _).mono (by simp)), fun _ => ?_, fun h => by omega⟩
    rw [hout, State.setHoldover_after (last := s.time) rfl, if_pos hs]
    exact ⟨rfl, rfl⟩
  · obtain ⟨hdesk, hacquiring⟩ := State.outlier_third (s := s.beatSeen.countRef) hrun
    rw [if_neg (by rw [hacquiring]; exact nofun)] at hpulse
    rw [hpulse]
    exact ⟨hseen, fun h => by omega, fun _ => ⟨hdesk, hacquiring⟩⟩

theorem State.outlierRule_holdover (hs : s.tempo.state = .holdover) : OutlierRule s := by
  have hother : ¬s.tempo.state = .locked := by simp [hs]
  rintro refBeats t hrefs rfl
  rw [if_neg hother] at hrefs
  subst hrefs
  rw [(State.pulse_refBeat hbeat).trans (State.referenceBeat_holdover_outlier (s := s.beatSeen) hs hout)]
  refine ⟨((s.setReference_sameBut _).mono (by simp)).trans ((State.outlier_sameBut _).mono (by simp)),
    fun hrun => ?_, fun hrun => State.outlier_third (s := s.beatSeen) hrun⟩
  rw [State.outlier_counts (s := s.beatSeen) hrun, if_neg hother]
  exact ⟨rfl, rfl⟩

end

end Sys2Proof.Machine
end

section
/-! Reference beats in ACQUIRING, and the rule of every reference beat (O39): the run of agreeing measurements and the
lock (R132, R133, R137, R139). -/
namespace Sys2Proof.Machine

/-! ### A beat in LOCKED -/

/-- What a lock reads of the Tempo Engine after its snap. -/
def Tempo.lockPart (x : Tempo) : Nat × Source × SourceState × Reference := (x.base, x.source, x.state, x.reference)

theorem State.handOff_lockPart (u : State) : u.handOff.tempo.lockPart = u.tempo.lockPart := by
  obtain ⟨-, -, htempo, -⟩ := u.handOff_handsOff
  rw [htempo]
  rfl

section
variable {s : State} (hs : s.tempo.state = .locked)
include hs

theorem State.counted_lockPart : s.counted.tempo.lockPart = s.tempo.lockPart := by
  have hother : ¬s.tempo.state = .holdover := by simp [hs]
  have htempo : s.counted.tempo = s.tempoBeat.tempo := s.counted_positioned .tempo (by decide)
  rw [htempo, State.tempoBeat_counts fun ⟨hheld, _⟩ => hother hheld, if_neg hother]
  rfl

/-- A beat boundary in LOCKED keeps base tempo, source, state and reference fields, with a take or without one. -/
theorem State.beat_lockPart : s.beat.tempo.lockPart = s.tempo.lockPart := by
  have hcounted := State.counted_lockPart hs
  rcases s.beat_cases with ⟨-, hbeat⟩ | ⟨c, -, hbeat⟩ <;> rw [hbeat, State.handOff_lockPart]
  · exact hcounted
  · simp only [Tempo.lockPart, Prod.mk.injEq] at hcounted
    obtain ⟨hbase, hsource, hstate, href⟩ := hcounted
    have hlocked : ¬s.counted.tempo.state = .free := by simp [hstate, hs]
    rw [State.take_takenTempo, takenTempo, if_neg hlocked]
    simp only [Tempo.lockPart, hbase, hsource, hstate, href]

theorem State.snap_lockPart : s.snap.tempo.lockPart = s.tempo.lockPart := by
  rcases Nat.lt_or_ge s.tempo.phase.toNat (2 ^ 31) with h | h
  · rw [State.snap_keeps h]
    rfl
  · rw [State.snap_beats h]
    exact State.beat_lockPart (s := s.snapped) hs

end

/-! ### The lock (R132, R133) -/

/-- The part with the measurement `m` as its base tempo, in LOCKED. -/
def State.lockedOn (b : State) (m : Nat) : State :=
  b.setTempo (Tempo.recompute { b.tempo with state := .locked, base := m })

/-- The part once a lock has cleared the drift counters and set the reference fields (R132 steps 3 to 5). -/
def State.lockCleared (w : State) (x : Reference) : State :=
  w.setTempo { w.tempo with ownBeats := 0, refBeats := 0, reference := x }

/-- The reference fields of a lock on `m` at `now` (R132, R137). -/
def lockedReference (now : StageTime) (m : Nat) : Reference :=
  ⟨some 0, some now, none, 0, 0, some (now + BitVec.ofNat 32 (12000000000 / m)), 0⟩

section
variable {s : State} (m : Nat)

theorem State.lockedOn_lockPart : ((s.beatSeen.lockedOn m).snap).tempo.lockPart =
    (m, s.tempo.source, .locked, atBeat s.tempo.reference s.time) :=
  State.snap_lockPart (s := s.beatSeen.lockedOn m) rfl

/-- A lock snaps, and then sets drift counters and reference fields and reports. -/
theorem State.lock_eq : s.beatSeen.lock m =
    ((s.beatSeen.lockedOn m).snap.lockCleared (lockedReference s.time m)).reportLock := by
  have hpart := s.lockedOn_lockPart m
  simp only [Tempo.lockPart, Prod.mk.injEq] at hpart
  obtain ⟨hbase, -, -, href⟩ := hpart
  unfold State.lock
  dsimp only
  change State.reportLock (State.setHoldover ((s.beatSeen.lockedOn m).snap.lockCleared
    { (s.beatSeen.lockedOn m).snap.tempo.reference with
      acquisitionRun := 0, outlierRun := 0, holdoverBeats := 0, previous := none })) = _
  rw [href, State.setHoldover_after (last := s.time) rfl]
  show State.reportLock (State.lockCleared _ ⟨_, _, _, _, _, some (s.time + BitVec.ofNat 32 (12000000000 /
    (s.beatSeen.lockedOn m).snap.tempo.base)), _⟩) = _
  rw [hbase]
  rfl

/-- What a lock leaves, as O39 says it. -/
theorem State.lock_rule : tempoInStep (s.beatSeen.lock m) ∧
    ∃ v w, SameBut [.tempo] s v ∧ tempoInStep v ∧
      v.tempo = { s.tempo with
        state := .locked
        base := m
        phase := 0
        reference := atBeat s.tempo.reference s.time
        effective := v.tempo.effective
        increment := v.tempo.increment
        clamped := v.tempo.clamped } ∧
      (s.tempo.phase.toNat < 2 ^ 31 → w = v) ∧
      (2 ^ 31 ≤ s.tempo.phase.toNat → BeatMade v w) ∧
      SameBut [.desk, .tempo] w (s.beatSeen.lock m) ∧
      (s.beatSeen.lock m).tempo = { w.tempo with
        ownBeats := 0
        refBeats := 0
        reference := ⟨some 0, some s.time, none, 0, 0,
          some (s.time + BitVec.ofNat 32 (12000000000 / m)), 0⟩ } ∧
      (s.beatSeen.lock m).desk = lockDesk w.desk s.time .locked s.tempo.source m := by
  have hpart := s.lockedOn_lockPart m
  simp only [Tempo.lockPart, Prod.mk.injEq] at hpart
  obtain ⟨hbase, hsource, hstate, -⟩ := hpart
  have hstep : tempoInStep (s.beatSeen.lockedOn m) := s.beatSeen.setTempo_recompute_tempoInStep _
  have hsnap := (s.beatSeen.lockedOn m).snap_steady
  have htime : (s.beatSeen.lockedOn m).snap.time = s.time := hsnap.time
  have hreport : ∀ (w : State) (x : Reference), (w.lockCleared x).reportLock.desk =
      lockDesk w.desk w.time w.tempo.state w.tempo.source w.tempo.base := fun w x => (w.lockCleared x).reportLock_desk
  rw [State.lock_eq]
  refine ⟨?_, (s.beatSeen.lockedOn m).snapped, (s.beatSeen.lockedOn m).snap, ?_, hstep, rfl,
    fun h => State.snap_keeps (s := s.beatSeen.lockedOn m) h, fun h => ?_, ?_, ?_, ?_⟩
  · exact ((State.reportLock_sameBut _).steady (by simp)).tempo (hsnap.tempo hstep)
  · exact ((s.setReference_sameBut _).trans (State.setTempo_sameBut _ _)).trans (State.setTempo_sameBut _ _)
  · rw [State.snap_beats (s := s.beatSeen.lockedOn m) h]
    exact State.beat_beatMade _
  · exact ((State.setTempo_sameBut _ _).mono (by simp)).trans ((State.reportLock_sameBut _).mono (by simp))
  · exact State.reportLock_sameBut _ .tempo (by decide)
  · rw [hreport, htime, hstate, hsource, hbase]

end

/-! ### Acquisition (R132) -/

section
variable {s : State}

/-- A measurement begins a series when none is held, or when it does not agree with the one that is. -/
theorem State.acquire_begins {m : Nat} (h : s.tempo.reference.previous = none ∨
      ∃ mp, s.tempo.reference.previous = some mp ∧ ¬Near 3 m mp) :
    s.acquire m = s.setReference { s.tempo.reference with previous := some m, acquisitionRun := 0 } := by
  rcases h with h | ⟨mp, h, hn⟩
  · simp only [State.acquire, h]
  · simp only [State.acquire, h]
    exact if_neg ((within_iff 3 m mp).not.mpr hn)

variable {m mp : Nat} (h : s.tempo.reference.previous = some mp) (hn : Near 3 m mp)
include h hn

theorem State.acquire_agrees (hrun : s.tempo.reference.acquisitionRun < 2) :
    s.acquire m = s.setReference { s.tempo.reference with
      previous := some m, acquisitionRun := s.tempo.reference.acquisitionRun + 1 } := by
  simp only [State.acquire, h]
  exact (if_pos ((within_iff 3 m mp).mpr hn)).trans (if_pos (Nat.succ_lt_succ hrun))

theorem State.acquire_locks (hrun : 2 ≤ s.tempo.reference.acquisitionRun) : s.acquire m = s.lock m := by
  simp only [State.acquire, h]
  exact (if_pos ((within_iff 3 m mp).mpr hn)).trans (if_neg (Nat.not_lt.mpr (Nat.succ_le_succ hrun)))

end

/-- A pulse that only sets reference fields. -/
theorem acquires_setReference {s : State} {x : Reference} (h : s.pulse = s.beatSeen.setReference x) :
    Acquires s x s.desk := by
  rw [Acquires, h]
  exact ⟨((s.setReference_sameBut _).trans (State.setReference_sameBut _ _)).mono (by simp), rfl, rfl⟩

/-- Reference beats in ACQUIRING, by their interval, its measurement and the run. -/
theorem acquiringRule : AcquiringRule := by
  refine fun s hs => ⟨fun hbeat => ?_, fun i hbeat => ⟨fun hi => ?_, fun m hm => ⟨fun hp => ?_, fun mp hp hn =>
    ⟨fun hrun => ?_, fun hrun t ht => ?_⟩⟩⟩⟩
  all_goals have hpulse := State.pulse_refBeat hbeat
  · rw [State.referenceBeat_acquiring_none (s := s.beatSeen) hs] at hpulse
    exact acquires_setReference (x := atBeat s.tempo.reference s.time) hpulse
  · rw [State.referenceBeat_outOfRange (s := s.beatSeen) hs hi] at hpulse
    rw [Acquires, hpulse]
    exact ⟨(((s.setReference_sameBut _).trans (State.setReference_sameBut _ _)).mono (by simp)).trans
      ((State.report_sameBut _ _ _).mono (by simp)), rfl, rfl⟩
  all_goals rw [State.referenceBeat_acquires (s := s.beatSeen) hs hm] at hpulse
  · exact acquires_setReference (hpulse.trans (State.acquire_begins (s := s.beatSeen) hp))
  · exact acquires_setReference (hpulse.trans (State.acquire_agrees (s := s.beatSeen) hp hn hrun))
  · rw [ht, hpulse, State.acquire_locks (s := s.beatSeen) hp hn hrun]
    exact s.lock_rule m

/-! ### The rule of every reference beat -/

/-- A beat without an interval counts and sets the deadline in LOCKED, and does nothing more in HOLDOVER. -/
theorem State.pulse_none {s : State} (hbeat : RefBeat s none)
    (hs : s.tempo.state = .locked ∨ s.tempo.state = .holdover) : SameBut [.tempo] s s.pulse ∧
    (s.tempo.state = .locked → s.pulse.tempo = { s.tempo with
      refBeats := s.tempo.refBeats + 1
      reference := { atBeat s.tempo.reference s.time with
        holdoverDeadline := some (s.time + BitVec.ofNat 32 (12000000000 / s.tempo.base)) } }) ∧
    (s.tempo.state = .holdover → s.pulse.tempo = { s.tempo with
      reference := atBeat s.tempo.reference s.time }) := by
  have hpulse := State.pulse_refBeat hbeat
  rcases hs with hs | hs
  · rw [State.referenceBeat_locked_none (s := s.beatSeen) hs, State.setHoldover_after (last := s.time) rfl] at hpulse
    rw [hpulse]
    exact ⟨((s.setReference_sameBut _).trans (State.countRef_sameBut _)).trans (State.setReference_sameBut _ _),
      fun _ => rfl, fun h => absurd (hs.symm.trans h) (by decide)⟩
  · rw [State.referenceBeat_holdover_none (s := s.beatSeen) hs] at hpulse
    rw [hpulse]
    exact ⟨s.setReference_sameBut _, fun h => absurd (hs.symm.trans h) (by decide), fun _ => rfl⟩

/-- Settles O39: pulses by their command, and reference beats by the source state, the interval and its measurement. -/
theorem referenceBeatFollowed : Obligations.ReferenceBeatFollowed := by
  refine ⟨fun s u c => exec_pulseArrives, fun u => State.beatMark_pulse, acquiringRule, ?_⟩
  rintro s t rfl
  refine ⟨State.pulse_none, fun i hbeat => ⟨fun m hm hn => ⟨State.pulse_followed hbeat hm hn,
    State.pulse_returns hbeat hm hn⟩, fun hout hs => ?_⟩⟩
  rcases hs with hs | hs
  · exact State.outlierRule_locked hbeat hout hs
  · exact State.outlierRule_holdover hbeat hout hs

end Sys2Proof.Machine
end

section
/-! What a sample period makes of the Click Generator (O60): the voices that the waiting clicks take, the mix, and the
frame sent (R149 to R152, R154). -/
namespace Sys2Proof.Machine

/-! ### The played fraction (R150) -/

/-- The fraction of its sound that a voice has played. -/
def Voice.played : Voice → ℚ
  | .free => 0
  | .playing _ _ len position => position / len

theorem Voice.fartherThan_iff {a b : Voice} : a.fartherThan b = true ↔ Farther a b := by
  cases a <;> cases b <;> simp [Voice.fartherThan, Farther]

/-- Of two playing voices below their lengths, the farther one has the greater played fraction. -/
theorem Voice.farther_iff_played_lt {a b : Voice} (ha : a ≠ .free) (hb : b ≠ .free) (hia : a.inSound = true)
    (hib : b.inSound = true) : Farther a b ↔ b.played < a.played := by
  cases a with
  | free => exact absurd rfl ha
  | playing _ _ la pa =>
    cases b with
    | free => exact absurd rfl hb
    | playing _ _ lb pb =>
      have hla : (0 : ℚ) < la := by exact_mod_cast Nat.zero_lt_of_lt (of_decide_eq_true hia)
      have hlb : (0 : ℚ) < lb := by exact_mod_cast Nat.zero_lt_of_lt (of_decide_eq_true hib)
      rw [Voice.played, Voice.played, div_lt_div_iff₀ hlb hla]
      exact_mod_cast Iff.rfl

/-! ### The voice that a click takes (R149, R150) -/

/-- A search upwards that moves on only to a strictly greater value ends at the first of the greatest. -/
theorem foldl_first_greatest {α β : Type} [LinearOrder α] [LinearOrder β] (f : α → β) (l : List α) (best : α)
    (rising : (best :: l).Pairwise (· < ·)) :
    ∀ j ∈ best :: l, f j ≤ f (l.foldl (fun b i => if f b < f i then i else b) best) ∧
      (j < l.foldl (fun b i => if f b < f i then i else b) best →
        f j < f (l.foldl (fun b i => if f b < f i then i else b) best)) := by
  induction l generalizing best with
  | nil => simp
  | cons x xs ih =>
    obtain ⟨hbest, hx⟩ := List.pairwise_cons.mp rising
    have hskip : (best :: xs).Pairwise (· < ·) := rising.sublist (by simp)
    rw [List.foldl_cons]
    by_cases h : f best < f x
    · rw [if_pos h]
      intro j hj
      obtain rfl | hj := List.mem_cons.mp hj
      · have hlt := h.trans_le (ih x hx x List.mem_cons_self).1
        exact ⟨hlt.le, fun _ => hlt⟩
      · exact ih x hx j hj
    · rw [if_neg h]
      obtain ⟨hle, hlt⟩ := ih best hskip best List.mem_cons_self
      intro j hj
      obtain rfl | rfl | hj : j = best ∨ j = x ∨ j ∈ xs := by simpa using hj
      · exact ⟨hle, hlt⟩
      · exact ⟨(not_lt.mp h).trans hle, fun hj => (not_lt.mp h).trans_lt
          (hlt ((hbest j List.mem_cons_self).trans hj))⟩
      · exact ih best hskip j (List.mem_cons_of_mem _ hj)

theorem mem_allVoices (i : Fin 4) : i ∈ allVoices := by decide +revert

theorem allVoices_rising : allVoices.Pairwise (· < ·) := by decide

/-- The first voice that a search over all of them finds. -/
theorem find_allVoices_eq_some {p : Fin 4 → Bool} {i : Fin 4} (h : allVoices.find? p = some i) :
    p i = true ∧ ∀ j, j < i → p j = false := by
  obtain ⟨hi, before, behind, hsplit, hbefore⟩ := List.find?_eq_some_iff_append.mp h
  refine ⟨hi, fun j hj => ?_⟩
  have hrising := allVoices_rising
  have hmem := mem_allVoices j
  rw [hsplit] at hrising hmem
  obtain ⟨-, htail, -⟩ := List.pairwise_append.mp hrising
  obtain hj' | rfl | hj' : j ∈ before ∨ j = i ∨ j ∈ behind := by simpa using hmem
  · simpa using hbefore j hj'
  · exact absurd hj (lt_irrefl _)
  · exact absurd hj ((List.pairwise_cons.mp htail).1 j hj').le.not_gt

/-- Every voice of the Click Generator that plays is at a position below its length (R151). -/
def ClickGen.inSound (g : ClickGen) : Prop := ∀ i : Fin 4, (g.voices[i]).inSound = true

theorem voicesPlaying_iff (s : State) : voicesPlaying s ↔ s.click.inSound := Iff.rfl

/-- Where no voice is FREE, the search by played fractions ends at the first of the greatest. -/
theorem ClickGen.voiceFor_farthest {g : ClickGen} (hg : g.inSound) (hfree : ∀ j : Fin 4, g.voices[j] ≠ .free)
    (j : Fin 4) : (j < g.voiceFor → Farther g.voices[g.voiceFor] g.voices[j]) ∧
      ¬Farther g.voices[j] g.voices[g.voiceFor] := by
  have hfar : ∀ a b : Fin 4, Farther g.voices[a] g.voices[b] ↔ (g.voices[b]).played < (g.voices[a]).played :=
    fun a b => Voice.farther_iff_played_lt (hfree a) (hfree b) (hg a) (hg b)
  have hnone : allVoices.find? (fun i => decide (g.voices[i] = .free)) = none :=
    List.find?_eq_none.mpr fun i _ => by simpa using hfree i
  have hvoice : g.voiceFor = [1, 2, 3].foldl
      (fun b i => if (g.voices[b]).played < (g.voices[i]).played then i else b) (0 : Fin 4) := by
    unfold ClickGen.voiceFor
    rw [hnone]
    simp only [allVoices, List.foldl_cons, Voice.fartherThan_iff, hfar, lt_irrefl, if_false]
  obtain ⟨hle, hlt⟩ := foldl_first_greatest (fun i : Fin 4 => (g.voices[i]).played) [1, 2, 3] 0
    allVoices_rising j (mem_allVoices j)
  rw [← hvoice] at hle hlt
  exact ⟨fun h => (hfar _ _).mpr (hlt h), fun h => absurd ((hfar _ _).mp h) (not_lt.mpr hle)⟩

/-- A click takes the voice that the rule names. -/
theorem ClickGen.takesVoice_voiceFor {g : ClickGen} (hg : g.inSound) :
    TakesVoice (fun i => g.voices[i]) g.voiceFor := by
  cases hfind : allVoices.find? (fun i => decide (g.voices[i] = .free)) with
  | none =>
    have hfree : ∀ j : Fin 4, g.voices[j] ≠ .free := fun j => by
      simpa using List.find?_eq_none.mp hfind j (mem_allVoices j)
    exact .inr ⟨hfree, g.voiceFor_farthest hg hfree⟩
  | some i =>
    have hvoice : g.voiceFor = i := by
      unfold ClickGen.voiceFor
      rw [hfind]
    obtain ⟨hi, hbefore⟩ := find_allVoices_eq_some hfind
    rw [hvoice]
    exact .inl ⟨of_decide_eq_true hi, fun j hj => of_decide_eq_false (hbefore j hj)⟩

/-! ### The waiting clicks start (R149, R150) -/

section
variable {g : ClickGen} {mem : SetMemory} {c : Click}

theorem ClickGen.start_silent (h : mem.soundLength c.sound = 0) : g.start mem c = g := if_pos h

theorem ClickGen.start_plays (h : mem.soundLength c.sound ≠ 0) : g.start mem c =
    { g with voices := g.voices.set g.voiceFor (.playing c.sound c.gain (mem.soundLength c.sound) 0) } := if_neg h

theorem ClickGen.start_voice (h : mem.soundLength c.sound ≠ 0) (j : Fin 4) : (g.start mem c).voices[j] =
    if j = g.voiceFor then .playing c.sound c.gain (mem.soundLength c.sound) 0 else g.voices[j] := by
  rw [ClickGen.start_plays h]
  simp [Vector.getElem_set, Fin.ext_iff, eq_comm]

theorem ClickGen.start_inSound (hg : g.inSound) : (g.start mem c).inSound := by
  by_cases h : mem.soundLength c.sound = 0
  · rwa [ClickGen.start_silent h]
  · intro j
    rw [ClickGen.start_voice h]
    split
    · exact decide_eq_true (Nat.pos_of_ne_zero h)
    · exact hg j

end

/-- Clicks start one after another. -/
def ClickGen.startAll (g : ClickGen) (mem : SetMemory) (clicks : List Click) : ClickGen :=
  clicks.foldl (fun g c => g.start mem c) g

section
variable (mem : SetMemory) (clicks : List Click)

theorem ClickGen.startAll_cons (g : ClickGen) (c : Click) :
    g.startAll mem (c :: clicks) = (g.start mem c).startAll mem clicks := rfl

theorem ClickGen.startAll_inSound {g : ClickGen} (hg : g.inSound) : (g.startAll mem clicks).inSound :=
  List.foldlRecOn clicks _ hg fun _ h _ _ => ClickGen.start_inSound h

/-- Starting clicks changes the voices only. -/
theorem ClickGen.startAll_eq (g : ClickGen) :
    g.startAll mem clicks = { g with voices := (g.startAll mem clicks).voices } := by
  refine List.foldlRecOn clicks (motive := fun h : ClickGen => h = { g with voices := h.voices }) _ rfl fun h hh c _ => ?_
  by_cases hlen : mem.soundLength c.sound = 0
  · rwa [ClickGen.start_silent hlen]
  · rw [ClickGen.start_plays hlen, hh]

theorem ClickGen.startAll_starts {g : ClickGen} (hg : g.inSound) :
    Starts mem clicks (fun i => g.voices[i]) (fun i => (g.startAll mem clicks).voices[i]) := by
  induction clicks generalizing g with
  | nil => exact .done _
  | cons c more ih =>
    by_cases h : mem.soundLength c.sound = 0
    · rw [ClickGen.startAll_cons, ClickGen.start_silent h]
      exact .silent c more _ _ h (ih hg)
    · rw [ClickGen.startAll_cons]
      have hmore := ih (ClickGen.start_inSound (mem := mem) (c := c) hg)
      rw [funext (ClickGen.start_voice h)] at hmore
      exact .plays c more _ _ g.voiceFor h (ClickGen.takesVoice_voiceFor hg) hmore

end

/-! ### The mix and the frame (R151, R152, R154) -/

theorem mixSample_eq (acc : Int) (master : Nat) :
    mixSample acc master = min 32767 (max (-32768) ((acc * master + 2 ^ 29) / 2 ^ 30)) := by
  rw [mixSample, clampInt_eq _ _ _ (by decide), Int.fdiv_eq_ediv_of_nonneg _ (by decide)]

theorem Voice.advance_inSound {v : Voice} (h : v.inSound = true) : v.advance.inSound = true := by
  cases v with
  | free => rfl
  | playing sound gain len position =>
    rw [Voice.advance]
    split
    · rfl
    · next h => exact decide_eq_true (Nat.not_le.mp h)

/-- The frame of a sample period begins: it carries the sample of the period before, and no click waits. -/
def ClickGen.frameBegun (g : ClickGen) : ClickGen :=
  { g with left := g.formed, right := g.formed, lastRight := g.right, waiting := [] }

/-- The voices of a sample period, once the waiting clicks have started theirs. -/
def ClickGen.sounding (g : ClickGen) (mem : SetMemory) : Vector Voice 4 :=
  (g.frameBegun.startAll mem g.waiting).voices

/-- The voices are mixed, and each moves on (R151, R152). -/
def ClickGen.mixed (g : ClickGen) (mem : SetMemory) : ClickGen :=
  { g with
    formed := if g.mute then 0 else BitVec.ofInt 16 (mixSample (g.acc mem) g.master)
    voices := mapAll Voice.advance g.voices }

theorem ClickGen.samplePeriod_eq (g : ClickGen) (mem : SetMemory) :
    g.samplePeriod mem = { g.frameBegun with voices := g.sounding mem }.mixed mem :=
  congrArg (fun h : ClickGen => h.mixed mem) (g.frameBegun.startAll_eq mem g.waiting)

theorem ClickGen.samplePeriod_voice (g : ClickGen) (mem : SetMemory) (i : Fin 4) :
    (g.samplePeriod mem).voices[i] = ((g.sounding mem)[i]).advance := by
  rw [ClickGen.samplePeriod_eq]
  exact getElem_mapAll _ _ i

theorem ClickGen.samplePeriod_inSound {g : ClickGen} (mem : SetMemory) (hg : g.inSound) :
    (g.samplePeriod mem).inSound := fun i => by
  rw [ClickGen.samplePeriod_voice]
  exact Voice.advance_inSound (ClickGen.startAll_inSound mem g.waiting (g := g.frameBegun) hg i)

theorem ClickGen.samplePeriod_formed (g : ClickGen) (mem : SetMemory) : (g.samplePeriod mem).formed =
    if g.mute then 0 else BitVec.ofInt 16 (min 32767 (max (-32768)
      ((((List.finRange 4).map fun i => ((g.sounding mem)[i]).contribution mem).sum * g.master + 2 ^ 29) /
        2 ^ 30))) := by
  rw [← mixSample_eq, ← show allVoices = List.finRange 4 by decide, ClickGen.samplePeriod_eq]
  rfl

theorem State.samplePeriod_present {s : State} (h : s.click.audio = .present) :
    s.samplePeriod = s.setClick (s.click.samplePeriod s.mem) := by rw [State.samplePeriod, h]

/-- While the audio clock of a live part is PRESENT its lines carry a frame. -/
theorem State.audioLines_present {s : State} (hl : s.live = true) (h : s.click.audio = .present) :
    s.audioLines = ⟨(List.replicate 32 [false, true]).flatten, wordSelect,
      serialBits s.click.lastRight s.click.left s.click.right⟩ := by
  have hheld : s.pins.resetHeld = false := by
    simpa using (Bool.and_eq_true_iff.mp hl).1
  rw [State.audioLines, hheld, ClickGen.lines, h]
  rfl

end Sys2Proof.Machine
end

section
/-! The kept position (O60): every step keeps the playing voices below the lengths of their sounds (R151). -/
namespace Sys2Proof.Machine

/-! ### Operations that keep the positions -/

/-- An operation keeps the playing voices below the lengths of their sounds. -/
def StaysInSound (s t : State) : Prop := voicesPlaying s → voicesPlaying t

theorem StaysInSound.refl (s : State) : StaysInSound s s := id

theorem StaysInSound.trans {s t u : State} (h : StaysInSound s t) (k : StaysInSound t u) : StaysInSound s u := k ∘ h

theorem StaysInSound.of_voices {s t : State} (h : t.click.voices = s.click.voices) : StaysInSound s t := by
  intro k i
  rw [h]
  exact k i

/-- A change beside the Click Generator. -/
theorem SameBut.staysInSound {l : List Block} {s t : State} (h : SameBut l s t) (hl : Block.click ∉ l) :
    StaysInSound s t := .of_voices (congrArg ClickGen.voices (h .click hl))

/-- An operation followed by a change beside the Click Generator. -/
theorem StaysInSound.and {s t u : State} {l : List Block} (h : StaysInSound s t) (k : SameBut l t u)
    (hl : Block.click ∉ l) : StaysInSound s u := h.trans (k.staysInSound hl)

theorem StaysInSound.foldl {α : Type} (f : State → α → State) (hf : ∀ (s : State) (a : α), StaysInSound s (f s a))
    (l : List α) (s : State) : StaysInSound s (l.foldl f s) := by
  induction l generalizing s with
  | nil => exact .refl s
  | cons a l ih => exact (hf s a).trans (ih (f s a))

/-! ### Takes and preparation (R105 to R112) -/

theorem State.take_staysInSound (s : State) (c : Change) : StaysInSound s (s.take c) :=
  .of_voices (by rw [s.take_click c])

theorem State.takeable_staysInSound (s : State) (f : Quantize → Bool) :
    StaysInSound s (match s.scene.takeable f with
      | some c => s.take c
      | none => s) := by
  split
  · exact s.take_staysInSound _
  · exact .refl s

theorem State.completePreparation_staysInSound (s : State) (c : Change) : StaysInSound s (s.completePreparation c) :=
  StaysInSound.trans (t := (s.readied c).raiseFor c.origin
    (.changeReady c.target.song c.target.scene c.origin c.quantize)) id (State.takeable_staysInSound _ _)

theorem State.endPreparation_staysInSound (s : State) : StaysInSound s s.endPreparation := by
  unfold State.endPreparation
  split
  · exact .refl s
  · split
    · split
      · exact s.completePreparation_staysInSound _
      · exact (s.failPreparation_sameBut _ _ _).staysInSound (by decide)
    · exact .refl s

theorem State.preparationDue_staysInSound (s : State) : StaysInSound s s.preparationDue := by
  unfold State.preparationDue
  split
  · exact s.endPreparation_staysInSound
  · exact .refl s

theorem State.preparationEnds_staysInSound (s : State) (passes : Bool) : StaysInSound s (s.preparationEnds passes) := by
  unfold State.preparationEnds
  split
  · exact .refl s
  · split
    · exact s.endPreparation_staysInSound
    · exact .refl s

/-! ### Beat and click boundaries (R113, R123, R124) -/

/-- A click that waits plays no voice yet (R149). -/
theorem ClickGen.ask_voices (g : ClickGen) (x : Option Click) : (g.ask x).voices = g.voices := by
  rw [ClickGen.ask_eq]

theorem State.handOff_staysInSound (s : State) : StaysInSound s s.handOff := .of_voices (ClickGen.ask_voices _ _)

theorem State.counted_staysInSound (s : State) : StaysInSound s s.counted :=
  (s.positioned_sameBut.staysInSound (by decide)).and s.counted_positioned (by decide)

theorem State.beat_staysInSound (s : State) : StaysInSound s s.beat := by
  rcases s.beat_cases with ⟨-, hbeat⟩ | ⟨c, -, hbeat⟩ <;> rw [hbeat]
  · exact s.counted_staysInSound.trans (State.handOff_staysInSound _)
  · exact (s.counted_staysInSound.trans (State.take_staysInSound _ c)).trans (State.handOff_staysInSound _)

theorem State.clickIfRisen_staysInSound (s : State) : StaysInSound s s.clickIfRisen := by
  unfold State.clickIfRisen
  dsimp only
  split
  · exact .of_voices (ClickGen.ask_voices _ _)
  · exact .refl s

theorem State.advancePhase_staysInSound (s : State) (inc : Nat) : StaysInSound s (s.advancePhase inc) := by
  have h := (s.setTempo_sameBut (s.tempo.advanced inc)).staysInSound (by decide)
  unfold State.advancePhase
  split
  · exact h.trans (State.beat_staysInSound _)
  · exact h.trans (State.clickIfRisen_staysInSound _)

theorem State.phaseDue_staysInSound (s : State) : StaysInSound s s.phaseDue := by
  unfold State.phaseDue
  split
  · exact ((s.setTempo_sameBut _).staysInSound (by decide)).trans (State.advancePhase_staysInSound _ _)
  · exact .refl s

theorem State.boundary_staysInSound (s : State) (beat : Bool) : StaysInSound s (s.boundary beat) := by
  unfold State.boundary
  split
  · exact .refl s
  · split
    · exact s.phaseDue_staysInSound
    · exact .refl s

/-! ### References, taps and marks (R130 to R142) -/

theorem State.setTempo_staysInSound (s : State) (x : Tempo) : StaysInSound s (s.setTempo x) := id

theorem State.setReference_staysInSound (s : State) (x : Reference) : StaysInSound s (s.setReference x) := id

theorem State.snap_staysInSound (s : State) : StaysInSound s s.snap := by
  have h := s.setTempo_staysInSound { s.tempo with phase := 0 }
  unfold State.snap
  split
  · exact h.trans (State.beat_staysInSound _)
  · exact h

theorem State.lock_staysInSound (s : State) (m : Nat) : StaysInSound s (s.lock m) := by
  unfold State.lock
  dsimp only
  refine StaysInSound.and ?_ (State.reportLock_sameBut _) (by decide)
  refine StaysInSound.and ?_ (State.setHoldover_sameBut _) (by decide)
  refine StaysInSound.and ?_ (State.setTempo_sameBut _ _) (by decide)
  exact (s.setTempo_staysInSound _).trans (State.snap_staysInSound _)

theorem State.acquire_staysInSound (s : State) (m : Nat) : StaysInSound s (s.acquire m) := by
  unfold State.acquire
  dsimp only
  split
  · exact s.setReference_staysInSound _
  · split
    · split
      · exact s.setReference_staysInSound _
      · exact s.lock_staysInSound m
    · exact s.setReference_staysInSound _

theorem State.follow_staysInSound (s : State) (m : Nat) : StaysInSound s (s.follow m) :=
  .of_voices (by rw [State.follow_click])

theorem State.referenceBeat_staysInSound (s : State) (i : Option Nat) : StaysInSound s (s.referenceBeat i) := by
  have hcount : StaysInSound s s.countRef := s.setTempo_staysInSound _
  unfold State.referenceBeat
  split
  · exact .refl s
  · exact .refl s
  · split
    · exact s.acquire_staysInSound _
    · exact (s.setReference_staysInSound _).and (State.report_sameBut _ _ _) (by decide)
  · exact hcount.and (State.setHoldover_sameBut _) (by decide)
  · split
    · exact (hcount.trans (State.follow_staysInSound _ _)).and (State.setHoldover_sameBut _) (by decide)
    · have h := hcount.and (State.outlier_sameBut _) (by decide)
      dsimp only
      split
      · exact h.and (State.setHoldover_sameBut _) (by decide)
      · exact h
  · exact .refl s
  · split
    · dsimp only
      refine StaysInSound.and ?_ (State.reportLock_sameBut _) (by decide)
      refine StaysInSound.and ?_ (State.setHoldover_sameBut _) (by decide)
      refine StaysInSound.and ?_ (State.setReference_sameBut _ _) (by decide)
      refine StaysInSound.trans ?_ (State.follow_staysInSound _ _)
      exact (s.setTempo_staysInSound _).and (State.countRef_sameBut _) (by decide)
    · exact s.outlier_sameBut.staysInSound (by decide)

theorem State.pulse_staysInSound (s : State) : StaysInSound s s.pulse := by
  unfold State.pulse
  dsimp only
  split
  · exact (s.setReference_staysInSound _).trans (State.referenceBeat_staysInSound _ _)
  · split
    · exact s.setReference_staysInSound _
    · exact (s.setReference_staysInSound _).trans (State.referenceBeat_staysInSound _ _)

theorem State.tap_staysInSound (s : State) : StaysInSound s s.tap := by
  unfold State.tap State.tapNow
  dsimp only
  split
  · split
    · exact s.setTempo_staysInSound _
    · split
      · exact s.setTempo_staysInSound _
      · split
        · exact .refl s
        · exact (s.setTempo_staysInSound _).trans (State.snap_staysInSound _)
  · exact .refl s

theorem State.beatMark_staysInSound (s : State) (downbeat : Bool) : StaysInSound s (s.beatMark downbeat) := by
  unfold State.beatMark
  dsimp only
  split
  · split
    · exact s.pulse_staysInSound.and (State.realign_sameBut _ _) (by decide)
    · exact s.pulse_staysInSound
  · exact .refl s

/-! ### The instrument lines (R20 to R28, R47 to R58) -/

theorem State.setRig_staysInSound (s : State) (r : Rig) : StaysInSound s (s.setRig r) := id

theorem State.setDeframer_staysInSound (s : State) (n : Input) (d : Deframer) :
    StaysInSound s (s.setDeframer n d) := id

theorem State.routeNoteOn_staysInSound (s : State) (n : Input) (c : Chan) (k v : Seven) :
    StaysInSound s (s.routeNoteOn n c k v) := by
  unfold State.routeNoteOn
  dsimp only
  generalize hx : s.setRig _ = t
  have h : StaysInSound s t := hx ▸ s.setRig_staysInSound _
  have hcue : StaysInSound s (match sceneCue (s.router.active.filter fun e => e.isMatch n c k v) with
      | some e => t.cueRequest e.cueAsk e.cueTag
      | none => t) := by
    split
    · exact h.and (t.cueRequest_sameBut _ _) (by decide)
    · exact h
  split
  · exact hcue.trans (State.tap_staysInSound _)
  · exact hcue

theorem State.songSelect_staysInSound (s : State) (program : Seven) : StaysInSound s (s.songSelect program) := by
  unfold State.songSelect
  split
  · exact (s.record_sameBut _).staysInSound (by decide)
  · exact (s.cueRequest_sameBut _ _).staysInSound (by decide)

theorem State.deliver_staysInSound (s : State) (n : Input) (c : Chan) (e : LineEvent) :
    StaysInSound s (s.deliver n c e) := by
  unfold State.deliver
  split
  case h_2 => exact .refl s
  cases e with
  | noteOn k v => exact s.routeNoteOn_staysInSound n c k v
  | noteOff k => exact s.setRig_staysInSound _
  | continuous e =>
    unfold State.deliverShow
    dsimp only
    split <;> exact s.setRig_staysInSound _
  | program p =>
    unfold State.deliverShow
    dsimp only
    split
    · exact s.songSelect_staysInSound p
    · exact .refl s
  | unused => exact .refl s

theorem State.timing_staysInSound (s : State) (n : Input) (t : TimingOctet) : StaysInSound s (s.timing n t) := by
  unfold State.timing
  split
  · cases t with
    | clock => exact s.pulse_staysInSound
    | align => exact s.setReference_staysInSound _
    | stop => exact .refl s
  · exact .refl s

theorem State.framingErrorIf_staysInSound (s : State) (b : Bool) (n : Input) :
    StaysInSound s (s.framingErrorIf b n) := by
  unfold State.framingErrorIf
  split
  · exact (s.report_sameBut _ _).staysInSound (by decide)
  · exact .refl s

theorem State.dataOctet_staysInSound (s : State) (n : Input) (v : Seven) : StaysInSound s (s.dataOctet n v) := by
  unfold State.dataOctet
  dsimp only
  split
  · exact (s.report_sameBut _ _).staysInSound (by decide)
  · exact .refl s
  · split
    · exact s.deliver_staysInSound _ _ _
    · split
      · exact s.setDeframer_staysInSound _ _
      · exact (s.setDeframer_staysInSound _ _).trans (State.deliver_staysInSound _ _ _ _)

theorem State.octetArrives_staysInSound (s : State) (n : Input) (b : Byte) : StaysInSound s (s.octetArrives n b) := by
  unfold State.octetArrives
  dsimp only
  split
  · exact s.dataOctet_staysInSound n _
  · exact (s.setDeframer_staysInSound _ _).trans (State.framingErrorIf_staysInSound _ _ _)
  · exact (s.setDeframer_staysInSound _ _).trans (State.framingErrorIf_staysInSound _ _ _)
  · exact s.timing_staysInSound n _

theorem State.eventArrives_staysInSound (s : State) (n : Input) (kind : ChannelKind) (c : Chan) (x y : Seven) :
    StaysInSound s (s.eventArrives n kind c x y) :=
  ((s.setDeframer_staysInSound _ _).trans (State.framingErrorIf_staysInSound _ _ _)).trans
    (State.deliver_staysInSound _ _ _ _)

theorem State.continuousArrives_staysInSound (s : State) (n : Input) (c : Chan) (e : ContinuousEvent) :
    StaysInSound s (s.continuousArrives n c e) := by
  cases e <;> exact s.eventArrives_staysInSound _ _ _ _ _

/-! ### The Click Generator's own operations (R13, R151, R155, R157) -/

theorem Voice.stopSound_inSound {v : Voice} (i : Fin 4) (h : v.inSound = true) : (v.stopSound i).inSound = true := by
  cases v with
  | free => rfl
  | playing sound gain len position =>
    rw [Voice.stopSound]
    split
    · rfl
    · exact h

/-- A part whose voices are all FREE plays nothing. -/
theorem voicesPlaying_of_free {s : State} (h : s.click.voices = Vector.replicate 4 .free) : voicesPlaying s := by
  intro i
  rw [h, Fin.getElem_fin, Vector.getElem_replicate]
  rfl

theorem State.storeSound_staysInSound (s : State) (m : SetMemory) (i : Fin 4) :
    StaysInSound s (s.storeSound m i) := by
  intro h k
  have hvoice : (s.storeSound m i).click.voices[k] = (s.click.voices[k]).stopSound i := getElem_mapAll _ _ k
  rw [hvoice]
  exact Voice.stopSound_inSound i (h k)

theorem State.samplePeriod_staysInSound (s : State) : StaysInSound s s.samplePeriod := by
  unfold State.samplePeriod
  split
  · exact ClickGen.samplePeriod_inSound s.mem
  · exact .refl s

theorem State.audioLoss_staysInSound (s : State) : StaysInSound s s.audioLoss := by
  unfold State.audioLoss
  split
  · exact fun _ => voicesPlaying_of_free rfl
  · exact .refl s

theorem State.audioReturn_staysInSound (s : State) : StaysInSound s s.audioReturn := by
  unfold State.audioReturn
  split <;> exact id

theorem State.openRun_staysInSound (s : State) : StaysInSound s s.openRun := by
  unfold State.openRun
  split <;> exact id

theorem State.endRun_staysInSound (s : State) : StaysInSound s s.endRun := by
  unfold State.endRun
  split <;> exact id

/-! ### Requests -/

section
variable (p : Port) (r : Request) (s : State)

theorem State.answer_staysInSound (st : Status) (payload : List Byte) : StaysInSound s (s.answer p st payload) := id

theorem State.setWriteRequest_staysInSound : StaysInSound s (s.setWriteRequest p r) := by
  unfold State.setWriteRequest
  split <;> exact id

theorem State.soundLengthRequest_staysInSound : StaysInSound s (s.soundLengthRequest p r) := by
  unfold State.soundLengthRequest
  split
  · exact (s.answer_staysInSound p _ _).trans (State.storeSound_staysInSound _ _ _)
  · exact s.answer_staysInSound p _ _

theorem State.soundSamplesRequest_staysInSound : StaysInSound s (s.soundSamplesRequest p r) := by
  unfold State.soundSamplesRequest
  split
  · exact s.answer_staysInSound p _ _
  · split
    · exact (s.answer_staysInSound p _ _).trans (State.storeSound_staysInSound _ _ _)
    · exact s.answer_staysInSound p _ _

theorem State.setReadRequest_staysInSound : StaysInSound s (s.setReadRequest p r) := by
  unfold State.setReadRequest
  split <;> exact s.answer_staysInSound p _ _

theorem State.setDigestRequest_staysInSound : StaysInSound s (s.setDigestRequest p r) := by
  unfold State.setDigestRequest
  split <;> exact id

theorem State.enterShowRequest_staysInSound : StaysInSound s (s.enterShowRequest p r) := by
  unfold State.enterShowRequest
  split
  · exact s.answer_staysInSound p _ _
  · split
    · exact s.answer_staysInSound p _ _
    · refine StaysInSound.and ?_ (State.modeRequest_sameBut _) (by decide)
      exact id

theorem State.enterSetupRequest_staysInSound : StaysInSound s (s.enterSetupRequest p r) := by
  unfold State.enterSetupRequest
  split <;> exact id

/-- RESTART stops every voice (R157). -/
theorem State.restartRequest_staysInSound : StaysInSound s (s.restartRequest p r) :=
  fun _ => voicesPlaying_of_free rfl

theorem State.portRequest_staysInSound (ask : SceneAsk) (quantize : Nat) :
    StaysInSound s (s.portRequest p ask quantize) := by
  unfold State.portRequest
  split
  · exact s.answer_staysInSound p _ _
  · split
    · exact s.answer_staysInSound p _ _
    · exact (s.answer_staysInSound p _ _).and (State.accept_sameBut _ _ _ _ _) (by decide)

theorem State.cancelRequest_staysInSound : StaysInSound s (s.cancelRequest p r) := by
  unfold State.cancelRequest
  split
  · exact s.answer_staysInSound p _ _
  · split
    · exact s.answer_staysInSound p _ _
    · split <;> exact id

theorem State.freezeRequest_staysInSound : StaysInSound s (s.freezeRequest p r) := by
  unfold State.freezeRequest
  split <;> exact id

theorem State.thaw_staysInSound : StaysInSound s s.thaw :=
  StaysInSound.trans (t := s.setFrozen false) id (State.takeable_staysInSound _ _)

theorem State.thawRequest_staysInSound : StaysInSound s (s.thawRequest p r) := by
  unfold State.thawRequest
  split
  · exact s.answer_staysInSound p _ _
  · split
    · exact (s.answer_staysInSound p _ _).trans (State.thaw_staysInSound _)
    · exact s.answer_staysInSound p _ _

theorem State.stepRequest_staysInSound : StaysInSound s (s.stepRequest p r) := by
  unfold State.stepRequest
  split
  · exact s.answer_staysInSound p _ _
  · split
    · exact s.answer_staysInSound p _ _
    · split
      · exact (s.take_staysInSound _).trans (State.answer_staysInSound p _ _ _)
      · exact s.answer_staysInSound p _ _

theorem State.selectSource_staysInSound (src : Source) (shift : Option Nat) :
    StaysInSound s (s.selectSource src shift) := by
  unfold State.selectSource
  dsimp only
  split <;> exact id

theorem State.tempoSourceRequest_staysInSound : StaysInSound s (s.tempoSourceRequest p r) := by
  unfold State.tempoSourceRequest
  split
  · exact (s.answer_staysInSound p _ _).trans (State.selectSource_staysInSound _ _ _)
  · exact s.answer_staysInSound p _ _

theorem State.tempoSetRequest_staysInSound : StaysInSound s (s.tempoSetRequest p r) := by
  unfold State.tempoSetRequest
  dsimp only
  split
  · exact s.answer_staysInSound p _ _
  · split <;> exact id

theorem State.trimRequest_staysInSound : StaysInSound s (s.trimRequest p r) := by
  unfold State.trimRequest
  dsimp only
  split <;> exact id

theorem State.outputEnableRequest_staysInSound : StaysInSound s (s.outputEnableRequest p r) :=
  (s.answer_staysInSound p _ _).trans (State.setRig_staysInSound _ _)

theorem State.criticalLevelRequest_staysInSound : StaysInSound s (s.criticalLevelRequest p r) := by
  unfold State.criticalLevelRequest
  split
  · exact s.answer_staysInSound p _ _
  · split <;> exact id

theorem State.panicRequest_staysInSound : StaysInSound s (s.panicRequest p r) :=
  (s.answer_staysInSound p _ _).trans (State.setRig_staysInSound _ _)

theorem State.clickLevelRequest_staysInSound : StaysInSound s (s.clickLevelRequest p r) := by
  unfold State.clickLevelRequest
  dsimp only
  split <;> exact id

theorem State.clickMuteRequest_staysInSound : StaysInSound s (s.clickMuteRequest p r) := id

theorem State.counterSetRequest_staysInSound : StaysInSound s (s.counterSetRequest p r) := by
  unfold State.counterSetRequest
  split <;> exact id

theorem State.counterReadRequest_staysInSound : StaysInSound s (s.counterReadRequest p r) := by
  unfold State.counterReadRequest
  split <;> exact s.answer_staysInSound p _ _

theorem State.captureArmRequest_staysInSound : StaysInSound s (s.captureArmRequest p r) := by
  unfold State.captureArmRequest
  dsimp only
  split <;> exact id

theorem State.captureReadRequest_staysInSound : StaysInSound s (s.captureReadRequest p r) := by
  unfold State.captureReadRequest
  split <;> exact s.answer_staysInSound p _ _

theorem State.statusRequest_staysInSound : StaysInSound s (s.statusRequest p r) := id

theorem State.subscribeRequest_staysInSound : StaysInSound s (s.subscribeRequest p r) := id

theorem handle_staysInSound : StaysInSound s (handle p r s) := by
  unfold handle
  split
  · exact s.setWriteRequest_staysInSound p r
  · exact s.soundLengthRequest_staysInSound p r
  · exact s.soundSamplesRequest_staysInSound p r
  · exact s.setReadRequest_staysInSound p r
  · exact s.setDigestRequest_staysInSound p r
  · exact s.enterShowRequest_staysInSound p r
  · exact s.enterSetupRequest_staysInSound p r
  · exact s.restartRequest_staysInSound p r
  · exact s.portRequest_staysInSound p _ _
  · exact s.portRequest_staysInSound p _ _
  · exact s.portRequest_staysInSound p _ _
  · exact s.portRequest_staysInSound p _ _
  · exact s.cancelRequest_staysInSound p r
  · exact s.freezeRequest_staysInSound p r
  · exact s.thawRequest_staysInSound p r
  · exact s.stepRequest_staysInSound p r
  · exact s.tempoSourceRequest_staysInSound p r
  · exact s.tempoSetRequest_staysInSound p r
  · exact s.trimRequest_staysInSound p r
  · exact s.answer_staysInSound p _ _
  · exact s.answer_staysInSound p _ _
  · exact s.outputEnableRequest_staysInSound p r
  · exact s.criticalLevelRequest_staysInSound p r
  · exact s.panicRequest_staysInSound p r
  · exact s.clickLevelRequest_staysInSound p r
  · exact s.clickMuteRequest_staysInSound p r
  · exact s.counterSetRequest_staysInSound p r
  · exact s.counterReadRequest_staysInSound p r
  · exact s.captureArmRequest_staysInSound p r
  · exact s.captureReadRequest_staysInSound p r
  · exact s.statusRequest_staysInSound p r
  · exact s.subscribeRequest_staysInSound p r
  · exact s.answer_staysInSound p _ _

end

theorem State.turnAway_staysInSound (s : State) (p : Port) : StaysInSound s (s.turnAway p) := by
  unfold State.turnAway
  split
  · exact .refl s
  · split
    · exact s.answer_staysInSound p _ _
    · exact .refl s

/-! ### Transfers, stage time and the pins (R73, R123, R130, R159 to R163, R185) -/

theorem State.setPort_staysInSound (s : State) (p : Port) (x : PortState) : StaysInSound s (s.setPort p x) := id

theorem State.placeRequest_staysInSound (s : State) (p : Port) (r : Request) :
    StaysInSound s (s.placeRequest p r) := by
  unfold State.placeRequest
  dsimp only
  split
  · split
    · exact (s.setPort_staysInSound p _).trans (State.tap_staysInSound _)
    · exact (s.setPort_staysInSound p _).trans (State.beatMark_staysInSound _ _)
    · exact s.setPort_staysInSound p _
  · exact s.setPort_staysInSound p _

theorem State.endTransfer_staysInSound (s : State) (p : Port) (side : OutboundSide) (all : List Byte) :
    StaysInSound s (s.endTransfer p side all) := by
  unfold State.endTransfer
  dsimp only
  split
  · split
    · split
      · exact (s.setPort_staysInSound p _).trans (State.placeRequest_staysInSound _ p _)
      · exact s.setPort_staysInSound p _
    · exact s.setPort_staysInSound p _
  · exact s.setPort_staysInSound p _

theorem State.lineDue_staysInSound (s : State) (o : Output) : StaysInSound s (s.lineDue o) :=
  (s.lineDue_sameBut o).staysInSound (by decide)

theorem State.spillDue_staysInSound (s : State) (o : Output) (c : Chan) : StaysInSound s (s.spillDue o c) :=
  (s.spillDue_sameBut o c).staysInSound (by decide)

theorem State.settleTimed_staysInSound (s : State) : StaysInSound s s.settleTimed := by
  unfold State.settleTimed
  refine StaysInSound.and ?_ (State.digestDue_sameBut _) (by decide)
  refine StaysInSound.trans ?_ (State.audioReturn_staysInSound _)
  refine StaysInSound.and ?_ (State.holdoverStep_sameBut _) (by decide)
  refine StaysInSound.trans ?_
    (StaysInSound.foldl _ (fun s o => StaysInSound.foldl _ (fun s c => s.spillDue_staysInSound o c) _ s) _ _)
  exact (StaysInSound.foldl _ (fun s o => s.lineDue_staysInSound o) _ s).and (State.beatLineDue_sameBut _) (by decide)

theorem State.requestDue_staysInSound (s : State) (p : Port) : StaysInSound s (s.requestDue p) := by
  unfold State.requestDue
  split
  · exact .refl s
  · split
    · exact handle_staysInSound p _ s
    · exact .refl s

theorem State.settleDue_staysInSound (s : State) : StaysInSound s s.settleDue := by
  rw [State.settleDue_eq]
  refine StaysInSound.trans ?_ (State.phaseDue_staysInSound _)
  refine StaysInSound.trans ?_ (State.requestDue_staysInSound _ _)
  refine StaysInSound.trans ?_ (State.requestDue_staysInSound _ _)
  exact s.settleTimed_staysInSound.trans (State.preparationDue_staysInSound _)

theorem State.microsecond_staysInSound (s : State) : StaysInSound s s.microsecond := by
  rw [State.microsecond_eq]
  exact id

theorem State.tick_staysInSound (s : State) : StaysInSound s s.tick :=
  s.settleDue_staysInSound.trans s.settleDue.microsecond_staysInSound

theorem State.setPins_staysInSound (s : State) (x : Pins) : StaysInSound s (s.setPins x) := id

theorem State.syncRise_staysInSound (s : State) : StaysInSound s s.syncRise := by
  unfold State.syncRise
  split
  · exact .refl s
  · refine (s.setPins_staysInSound { s.pins with syncHigh := true }).trans ?_
    dsimp only
    split
    · exact State.pulse_staysInSound _
    · exact .refl _
    · exact .refl _
    · exact .refl _

theorem State.panicFall_staysInSound (s : State) : StaysInSound s s.panicFall := by
  unfold State.panicFall
  split
  · exact .refl s
  · exact (s.setPins_staysInSound _).trans (State.setRig_staysInSound _ _)

/-! ### Commands -/

/-- A command of a live part. -/
theorem whenLive_staysInSound {f : State → State} (hf : ∀ s, StaysInSound s (f s)) {s t : State}
    (h : whenLive f s = .next t) : StaysInSound s t := by
  obtain ⟨-, hw⟩ | ⟨-, hw⟩ := whenLive_eq f s
  · cases hw.symm.trans h
    exact hf s
  · cases hw.symm.trans h
    exact .refl s

/-- A command that answers a request. -/
theorem serve_staysInSound {p : Port} {row : RequestRow} {f : Request → State → State}
    (hf : ∀ r s, StaysInSound s (f r s)) {s t : State} (h : whenLive (fun s => s.serve p row f) s = .next t) :
    StaysInSound s t := by
  refine whenLive_staysInSound (fun s => ?_) h
  obtain ⟨r, -, -, -, hr⟩ | ⟨-, hr⟩ := s.serve_cases p row f <;> rw [hr]
  · exact hf r s
  · exact .refl s

theorem execTransferEnd_staysInSound {p : Port} {octets : List Byte} {s t : State}
    (h : execTransferEnd p octets s = .next t) : StaysInSound s t := by
  refine whenLive_staysInSound (fun s => ?_) h
  split
  · exact .refl s
  · exact s.endTransfer_staysInSound p _ _

/-- Every command keeps the playing voices below the lengths of their sounds. -/
theorem exec_staysInSound {i : Instr} {s t : State} (h : exec i s = .next t) : StaysInSound s t := by
  cases i with
  | setWrite p => exact serve_staysInSound (State.setWriteRequest_staysInSound p) h
  | setWriteSoundLength p => exact serve_staysInSound (State.soundLengthRequest_staysInSound p) h
  | setWriteSoundSamples p => exact serve_staysInSound (State.soundSamplesRequest_staysInSound p) h
  | setRead p => exact serve_staysInSound (State.setReadRequest_staysInSound p) h
  | setDigest p => exact serve_staysInSound (State.setDigestRequest_staysInSound p) h
  | enterShow p => exact serve_staysInSound (State.enterShowRequest_staysInSound p) h
  | enterSetup p => exact serve_staysInSound (State.enterSetupRequest_staysInSound p) h
  | restart p => exact serve_staysInSound (State.restartRequest_staysInSound p) h
  | goSong p => exact serve_staysInSound (fun _ s => State.portRequest_staysInSound p s _ _) h
  | goScene p => exact serve_staysInSound (fun _ s => State.portRequest_staysInSound p s _ _) h
  | goNext p => exact serve_staysInSound (fun _ s => State.portRequest_staysInSound p s _ _) h
  | goPrev p => exact serve_staysInSound (fun _ s => State.portRequest_staysInSound p s _ _) h
  | cancel p => exact serve_staysInSound (State.cancelRequest_staysInSound p) h
  | freeze p => exact serve_staysInSound (State.freezeRequest_staysInSound p) h
  | thaw p => exact serve_staysInSound (State.thawRequest_staysInSound p) h
  | step p => exact serve_staysInSound (State.stepRequest_staysInSound p) h
  | tempoSource p => exact serve_staysInSound (State.tempoSourceRequest_staysInSound p) h
  | tempoSet p => exact serve_staysInSound (State.tempoSetRequest_staysInSound p) h
  | trim p => exact serve_staysInSound (State.trimRequest_staysInSound p) h
  | tap p => exact serve_staysInSound (fun _ s => s.answer_staysInSound p _ _) h
  | beatMark => exact serve_staysInSound (fun _ s => s.answer_staysInSound .showPort _ _) h
  | outputEnable p => exact serve_staysInSound (State.outputEnableRequest_staysInSound p) h
  | criticalLevel p => exact serve_staysInSound (State.criticalLevelRequest_staysInSound p) h
  | panic p => exact serve_staysInSound (State.panicRequest_staysInSound p) h
  | clickLevel p => exact serve_staysInSound (State.clickLevelRequest_staysInSound p) h
  | clickMute p => exact serve_staysInSound (State.clickMuteRequest_staysInSound p) h
  | counterSet p => exact serve_staysInSound (State.counterSetRequest_staysInSound p) h
  | counterRead p => exact serve_staysInSound (State.counterReadRequest_staysInSound p) h
  | captureArm p => exact serve_staysInSound (State.captureArmRequest_staysInSound p) h
  | captureRead p => exact serve_staysInSound (State.captureReadRequest_staysInSound p) h
  | status p => exact serve_staysInSound (State.statusRequest_staysInSound p) h
  | subscribe p => exact serve_staysInSound (State.subscribeRequest_staysInSound p) h
  | unknownRequest p => exact whenLive_staysInSound (fun s => s.turnAway_staysInSound p) h
  | transferBegin p => exact whenLive_staysInSound (fun s => s.setPort_staysInSound p _) h
  | transferEnd p octets => exact execTransferEnd_staysInSound h
  | noteOn n c k v => exact whenLive_staysInSound (fun s => s.eventArrives_staysInSound _ _ _ _ _) h
  | noteOff n c k asNoteOn => exact whenLive_staysInSound (fun s => s.eventArrives_staysInSound _ _ _ _ _) h
  | sustainPedal n c v => exact whenLive_staysInSound (fun s => s.eventArrives_staysInSound _ _ _ _ _) h
  | continuousEvent n c e => exact whenLive_staysInSound (fun s => s.continuousArrives_staysInSound n c e) h
  | songSelect n c program => exact whenLive_staysInSound (fun s => s.eventArrives_staysInSound _ _ _ _ _) h
  | clock n => exact whenLive_staysInSound (fun s => s.timing_staysInSound n .clock) h
  | alignmentPoint n kind => cases kind <;> exact whenLive_staysInSound (fun s => s.timing_staysInSound n .align) h
  | stop n => exact whenLive_staysInSound (fun s => s.timing_staysInSound n .stop) h
  | inputOctet n b => exact whenLive_staysInSound (fun s => s.octetArrives_staysInSound n b) h
  | syncEdge => exact whenLive_staysInSound State.syncRise_staysInSound h
  | panicLineEdge => exact whenLive_staysInSound State.panicFall_staysInSound h
  | resetPinLow =>
    cases h
    exact id
  | resetPinRelease a b =>
    cases h
    split
    · exact fun _ => State.reset_voicesPlaying
    · exact .refl s
  | crystalStop =>
    cases h
    exact s.setPins_staysInSound _
  | crystalReturn =>
    cases h
    exact s.setPins_staysInSound _
  | stageTick => exact whenLive_staysInSound State.tick_staysInSound h
  | beatBoundary => exact whenLive_staysInSound (fun s => s.boundary_staysInSound true) h
  | clickBoundary => exact whenLive_staysInSound (fun s => s.boundary_staysInSound false) h
  | beatLineEnd => exact whenLive_staysInSound (fun s => s.beatLineDue_sameBut.staysInSound (by decide)) h
  | samplePeriod => exact whenLive_staysInSound State.samplePeriod_staysInSound h
  | audioClockLoss => exact whenLive_staysInSound State.audioLoss_staysInSound h
  | audioClockReturn => exact whenLive_staysInSound State.audioReturn_staysInSound h
  | spillExpiry o c => exact whenLive_staysInSound (fun s => s.spillDue_staysInSound o c) h
  | holdoverExpiry => exact whenLive_staysInSound (fun s => s.holdoverStep_sameBut.staysInSound (by decide)) h
  | digestComplete => exact whenLive_staysInSound (fun s => s.digestDue_sameBut.staysInSound (by decide)) h
  | preparationComplete => exact whenLive_staysInSound (fun s => s.preparationEnds_staysInSound true) h
  | preparationCheckFail => exact whenLive_staysInSound (fun s => s.preparationEnds_staysInSound false) h
  | transmissionComplete o => exact whenLive_staysInSound (fun s => s.lineDue_staysInSound o) h
  | panicLineRise => exact whenLive_staysInSound (fun s => s.setPins_staysInSound _) h
  | syncLineFall => exact whenLive_staysInSound (fun s => s.setPins_staysInSound _) h
  | presenceRunOpen => exact whenLive_staysInSound State.openRun_staysInSound h
  | presenceRunGap => exact whenLive_staysInSound State.endRun_staysInSound h

theorem step_staysInSound {s t : State} (h : step s = .next t) : StaysInSound s t := by
  unfold step at h
  split at h
  · cases h
    exact .refl s
  · next i rest _ => exact StaysInSound.trans (t := s.setPending rest) id (exec_staysInSound h)

/-! ### The obligation -/

/-- Settles O60: every step keeps the positions, and a sample period starts the waiting clicks, mixes the voices,
moves each on, and sends the sample formed before. -/
theorem samplePeriodMixes : Obligations.SamplePeriodMixes := by
  refine ⟨fun s t h hstep => step_staysInSound hstep h, fun s hl haudio hplaying => ?_⟩
  have hexec : exec .samplePeriod s = .next (s.setClick (s.click.samplePeriod s.mem)) := by
    rw [exec_samplePeriod hl, State.samplePeriod_present haudio]
  have hstarts := ClickGen.startAll_starts s.mem s.click.waiting (g := s.click.frameBegun)
    ((voicesPlaying_iff s).mp hplaying)
  have hperiod := s.click.samplePeriod_eq s.mem
  refine ⟨_, fun i => (s.click.sounding s.mem)[i], hexec, s.setClick_sameBut _, hstarts, ?_⟩
  rw [State.setClick_click, hperiod]
  refine ⟨rfl, rfl, ?_, fun i => ?_, rfl, rfl, rfl, haudio, rfl, ?_⟩
  · rw [← hperiod]
    exact ClickGen.samplePeriod_formed _ _
  · rw [← hperiod]
    exact ClickGen.samplePeriod_voice _ _ i
  · exact State.audioLines_present (s := s.setClick _) hl haudio

end Sys2Proof.Machine
end

section
/-! The bounds of the ports and of the capture list: what keeps them at one port, on the desk, and in every operation
of the part between two requests (R158, R159, R165, R166, R178). -/
namespace Sys2Proof.Machine

/-! ### One port -/

/-- A port within its bounds, with at most one POSITION waiting (R158, R165, R166). -/
structure PortState.InBounds (x : PortState) : Prop where
  requests : x.requests.length ≤ 4
  frames : x.framesHeld ≤ 13
  idleFill : ∀ received, x.transfer = .inTransfer received .idleFill → x.framesHeld ≤ 12
  queuedFrame : ∀ received, x.transfer = .inTransfer received .queuedFrame → x.outbound ≠ []
  positions : x.waiting.countP Frame.isPosition ≤ 1

theorem PortState.inBounds_iff (x : PortState) : x.InBounds ↔ x.bounded = true ∧ x.onePosition = true := by
  have hb : x.bounded = true ↔ (x.requests.length ≤ 4 ∧ x.framesHeld ≤ 13) ∧
      (∀ received, x.transfer = .inTransfer received .idleFill → x.framesHeld ≤ 12) ∧
      (∀ received, x.transfer = .inTransfer received .queuedFrame → x.outbound ≠ []) := by
    unfold PortState.bounded
    rcases x.transfer with _ | ⟨_, _ | _⟩ <;> simp
  rw [hb, PortState.onePosition, decide_eq_true_iff, ← List.countP_eq_length_filter]
  exact ⟨fun ⟨hr, hf, hi, hq, hp⟩ => ⟨⟨⟨hr, hf⟩, hi, hq⟩, hp⟩, fun ⟨⟨⟨hr, hf⟩, hi, hq⟩, hp⟩ => ⟨hr, hf, hi, hq, hp⟩⟩

section
variable {x y : PortState}

theorem PortState.headOnLine_congr (h : y.transfer = x.transfer) : y.headOnLine = x.headOnLine := by
  rw [PortState.headOnLine, h, PortState.headOnLine]

theorem PortState.headOnLine_iff :
    x.headOnLine = true ↔ ∃ received, x.transfer = .inTransfer received .queuedFrame := by
  unfold PortState.headOnLine
  rcases x.transfer with _ | ⟨_, _ | _⟩ <;> simp

/-- Without a head on the line every frame waits. -/
theorem PortState.waiting_eq_outbound (h : ∀ received, x.transfer ≠ .inTransfer received .queuedFrame) :
    x.waiting = x.outbound := by
  refine if_neg fun hl => ?_
  obtain ⟨received, ht⟩ := PortState.headOnLine_iff.mp hl
  exact h received ht

/-- With the head on the line every frame but the head waits. -/
theorem PortState.waiting_eq_drop {received : List Byte} (h : x.transfer = .inTransfer received .queuedFrame) :
    x.waiting = x.outbound.drop 1 := if_pos (PortState.headOnLine_iff.mpr ⟨received, h⟩)

/-- Frames put behind those of a port in bounds wait behind those that waited. -/
theorem PortState.InBounds.waiting_append (h : x.InBounds) {fs : List Frame} (ht : y.transfer = x.transfer)
    (ho : y.outbound = x.outbound ++ fs) : y.waiting = x.waiting ++ fs := by
  unfold PortState.waiting
  rw [PortState.headOnLine_congr ht, ho]
  split
  · next hl =>
    obtain ⟨received, hr⟩ := PortState.headOnLine_iff.mp hl
    exact List.drop_append_of_le_length (List.length_pos_iff.mpr (h.queuedFrame received hr))
  · rfl

/-- Behind the frame being shifted out every frame waits. -/
theorem PortState.InBounds.waiting_of_shifting (h : x.InBounds) {fs : List Frame} (ht : y.transfer = x.transfer)
    (ho : y.outbound = x.shifting ++ fs) : y.waiting = fs := by
  unfold PortState.waiting
  rw [PortState.headOnLine_congr ht, ho, PortState.shifting]
  split
  · next hl =>
    obtain ⟨received, hr⟩ := PortState.headOnLine_iff.mp hl
    obtain ⟨f, more, hf⟩ := List.exists_cons_of_ne_nil (h.queuedFrame received hr)
    rw [hf]
    rfl
  · rfl

/-- A port to which frames are added stays within its bounds while it holds few enough, few enough of them
POSITIONs. -/
theorem PortState.InBounds.grow (h : x.InBounds) {fs : List Frame} (ht : y.transfer = x.transfer)
    (ho : y.outbound = x.outbound ++ fs) (hr : y.requests.length ≤ 4)
    (hf : y.framesHeld ≤ x.framesHeld ∨ y.framesHeld ≤ 12)
    (hp : x.waiting.countP Frame.isPosition + fs.countP Frame.isPosition ≤ 1) : y.InBounds where
  requests := hr
  frames := by
    have := h.frames
    omega
  idleFill received hi := by
    have := h.idleFill received (ht.symm.trans hi)
    omega
  queuedFrame received hq := by
    rw [ho]
    exact List.append_ne_nil_of_left_ne_nil (h.queuedFrame received (ht.symm.trans hq)) fs
  positions := by rwa [h.waiting_append ht ho, List.countP_append]

/-- The bounds rest on the transfer, the frames and the requests alone. -/
theorem PortState.InBounds.congr (h : x.InBounds) (ht : y.transfer = x.transfer) (ho : y.outbound = x.outbound)
    (hr : y.requests = x.requests) : y.InBounds :=
  h.grow (fs := []) ht (by rw [ho, List.append_nil]) (hr ▸ h.requests)
    (.inl (by rw [PortState.framesHeld, ho, hr, PortState.framesHeld])) (by simpa using h.positions)

/-- A port without a transfer. -/
theorem PortState.inBounds_of_idle (ht : x.transfer = .idle) (hr : x.requests.length ≤ 4) (hf : x.framesHeld ≤ 13)
    (hp : x.outbound.countP Frame.isPosition ≤ 1) : x.InBounds where
  requests := hr
  frames := hf
  idleFill _ h := nomatch ht.symm.trans h
  queuedFrame _ h := nomatch ht.symm.trans h
  positions := by rwa [PortState.waiting_eq_outbound fun _ h => nomatch ht.symm.trans h]

end

section
variable {x : PortState}

/-! ### Notices and answers (R163 to R166) -/

/-- Replacing the values of the POSITIONs that wait changes none of their number. -/
theorem countP_replacePosition {n : Notice} (hn : (Frame.notice n).isPosition = true) (fs : List Frame) :
    (replacePosition n fs).countP Frame.isPosition = fs.countP Frame.isPosition := by
  rw [replacePosition, List.countP_map]
  refine List.countP_congr fun f _ => ?_
  by_cases h : f.isPosition = true <;> simp [h, hn]

theorem PortState.InBounds.coalesced (h : x.InBounds) {n : Notice} (hn : (Frame.notice n).isPosition = true) :
    { x with outbound := x.shifting ++ replacePosition n x.waiting : PortState }.InBounds := by
  have hlen : (x.shifting ++ replacePosition n x.waiting).length = x.outbound.length := by
    simpa using congrArg List.length x.shifting_append_waiting
  have hheld : PortState.framesHeld { x with outbound := x.shifting ++ replacePosition n x.waiting } = x.framesHeld :=
    congrArg (· + x.requests.length) hlen
  exact {
    requests := h.requests
    frames := hheld ▸ h.frames
    idleFill := fun received hi => hheld ▸ h.idleFill received hi
    queuedFrame := fun received hq => List.ne_nil_of_length_pos
      (hlen ▸ List.length_pos_iff.mpr (h.queuedFrame received hq))
    positions := by
      rw [h.waiting_of_shifting (y := { x with outbound := x.shifting ++ replacePosition n x.waiting }) rfl rfl,
        countP_replacePosition hn]
      exact h.positions }

theorem PortState.InBounds.offer (h : x.InBounds) (n : Notice) : (x.offer n).InBounds := by
  obtain ⟨-, he⟩ | ⟨-, hn, -, he⟩ | ⟨-, hnone, he⟩ := x.offer_cases n <;> rw [he]
  · exact h
  · exact h.coalesced hn
  · obtain ⟨hroom, ha⟩ | ⟨-, ha⟩ := x.admitNotice_cases n <;> rw [ha]
    · refine h.grow rfl rfl h.requests (.inr ?_) ?_
      · simp only [PortState.framesHeld, List.length_append, List.length_singleton] at hroom ⊢
        omega
      · rw [List.countP_singleton]
        split
        · next hn =>
          have hz : x.waiting.countP Frame.isPosition = 0 := by
            rw [List.countP_eq_zero]
            exact fun f hf hp => hnone ⟨hn, List.any_eq_true.mpr ⟨f, hf, hp⟩⟩
          rw [hz]
        · exact h.positions
    · exact h.congr rfl rfl rfl

theorem PortState.InBounds.answer (h : x.InBounds) (now : StageTime) (st : Status) (payload : List Byte) :
    (x.answer now st payload).InBounds := by
  cases hr : x.requests with
  | nil =>
    rw [PortState.answer, hr]
    exact h
  | cons r rest =>
    have hlen := h.requests
    rw [hr, List.length_cons] at hlen
    rw [x.answer_cons now st payload r rest hr]
    refine h.grow rfl rfl (Nat.le_of_succ_le hlen) (.inl ?_) ?_
    · simp only [PortState.framesHeld, hr, List.length_append, List.length_cons, List.length_nil]
      omega
    · simpa [Frame.isPosition] using h.positions

/-! ### Transfers (R159 to R162, R166) -/

/-- A fall of chip-select on an idle port (R159). -/
theorem PortState.beginTransfer_idle (ht : x.transfer = .idle) : x.beginTransfer = { x with
    transfer := .inTransfer [] (if x.outbound = [] then .idleFill else .queuedFrame) } := by
  simp only [PortState.beginTransfer, ht, List.isEmpty_iff]

/-- A fall of chip-select on a port whose transfer goes on (log entry 39). -/
theorem PortState.beginTransfer_busy {received : List Byte} {side : OutboundSide}
    (ht : x.transfer = .inTransfer received side) : x.beginTransfer = x := by
  simp only [PortState.beginTransfer, ht]

theorem PortState.InBounds.beginTransfer (h : x.InBounds) : x.beginTransfer.InBounds := by
  cases ht : x.transfer with
  | inTransfer received side =>
    rw [PortState.beginTransfer_busy ht]
    exact h
  | idle =>
    have hpos := h.positions
    rw [PortState.waiting_eq_outbound fun _ hq => nomatch ht.symm.trans hq] at hpos
    rw [PortState.beginTransfer_idle ht]
    by_cases ho : x.outbound = []
    · rw [if_pos ho]
      refine ⟨h.requests, h.frames, fun _ _ => ?_, fun _ hq => by simp at hq, ?_⟩
      · have hr := h.requests
        simp only [PortState.framesHeld, ho, List.length_nil]
        omega
      · rwa [PortState.waiting_eq_outbound fun _ hq => by simp at hq]
    · rw [if_neg ho]
      refine ⟨h.requests, h.frames, fun _ hi => by simp at hi, fun _ _ => ho, ?_⟩
      rw [PortState.waiting_eq_drop rfl]
      exact ((List.drop_sublist 1 x.outbound).countP_le).trans hpos

/-- The merge of POSITIONs after a short transfer adds no frame, and leaves one POSITION at most (R166). -/
theorem mergePosition_inBounds (f : Frame) (fs : List Frame) (h : fs.countP Frame.isPosition ≤ 1) :
    (mergePosition (f :: fs)).length ≤ fs.length + 1 ∧ (mergePosition (f :: fs)).countP Frame.isPosition ≤ 1 := by
  have hcons : ∀ g : Frame, ∀ gs : List Frame, gs.countP Frame.isPosition = 0 →
      (g :: gs).countP Frame.isPosition ≤ 1 := fun g gs hz => by
    rw [List.countP_cons, hz]
    split <;> omega
  by_cases hf : f.isPosition = true
  · cases hg : fs.find? Frame.isPosition with
    | none =>
      rw [mergePosition, if_pos hf, hg]
      exact ⟨le_rfl, hcons f fs (List.countP_eq_zero.mpr (List.find?_eq_none.mp hg))⟩
    | some g =>
      rw [mergePosition, if_pos hf, hg]
      exact ⟨Nat.succ_le_succ (List.length_filter_le _ fs), hcons g _ (by simp [List.countP_eq_zero])⟩
  · rw [mergePosition, if_neg hf, List.countP_cons_of_neg hf]
    exact ⟨le_rfl, h⟩

section
variable (h : x.InBounds) {received : List Byte} {side : OutboundSide} (ht : x.transfer = .inTransfer received side)
include h ht

/-- The end of a whole transfer leaves room for one more frame. -/
theorem PortState.InBounds.endWhole : (x.endWhole side).InBounds ∧ (x.endWhole side).framesHeld ≤ 12 := by
  have hpos := h.positions
  cases side with
  | idleFill =>
    have hheld := h.idleFill received ht
    rw [PortState.waiting_eq_outbound fun _ hq => nomatch ht.symm.trans hq] at hpos
    exact ⟨PortState.inBounds_of_idle rfl h.requests h.frames hpos, hheld⟩
  | queuedFrame =>
    rw [PortState.waiting_eq_drop ht] at hpos
    have hheld : (x.endWhole .queuedFrame).framesHeld ≤ 12 := by
      have := h.frames
      have := List.length_pos_iff.mpr (h.queuedFrame received ht)
      simp only [PortState.framesHeld, PortState.endWhole, List.length_drop] at this ⊢
      simp only [PortState.framesHeld] at *
      omega
    exact ⟨PortState.inBounds_of_idle rfl h.requests (by omega) hpos, hheld⟩

theorem PortState.InBounds.endShort (carried : Bool) : (x.endShort side carried).InBounds := by
  have hpos := h.positions
  cases side with
  | idleFill =>
    rw [PortState.waiting_eq_outbound fun _ hq => nomatch ht.symm.trans hq] at hpos
    exact PortState.inBounds_of_idle rfl h.requests h.frames hpos
  | queuedFrame =>
    obtain ⟨f, fs, ho⟩ := List.exists_cons_of_ne_nil (h.queuedFrame received ht)
    rw [PortState.waiting_eq_drop ht, ho] at hpos
    obtain ⟨hlen, hmerged⟩ := mergePosition_inBounds f fs hpos
    rw [← ho] at hlen hmerged
    refine PortState.inBounds_of_idle rfl h.requests ?_ hmerged
    have hheld := h.frames
    simp only [PortState.framesHeld, ho, List.length_cons, PortState.endShort] at hheld hlen ⊢
    omega

end

/-- A port without a transfer that has room for one more frame takes a request, or refuses it FULL. -/
theorem PortState.InBounds.place (h : x.InBounds) (hroom : x.framesHeld ≤ 12) (ht : x.transfer = .idle)
    (r : Request) : (∀ now, x.requests.length < 4 → (x.appendRequest now r).InBounds) ∧
      (x.respond r .full []).InBounds := by
  have hpos := h.positions
  rw [PortState.waiting_eq_outbound fun _ hq => nomatch ht.symm.trans hq] at hpos
  refine ⟨fun now hr => PortState.inBounds_of_idle ht ?_ ?_ hpos, PortState.inBounds_of_idle ht h.requests ?_ ?_⟩
  · simpa [PortState.appendRequest] using hr
  · simp only [PortState.framesHeld, PortState.appendRequest, List.length_append, List.length_singleton] at hroom ⊢
    omega
  · simp only [PortState.framesHeld, PortState.respond, List.length_append, List.length_singleton] at hroom ⊢
    omega
  · simpa [PortState.respond, Frame.isPosition] using hpos

end

/-! ### The desk -/

/-- Both ports and the capture list are within their bounds (R158, R165, R166, R178). -/
structure Desk.InBounds (d : Desk) : Prop where
  ports : ∀ p, (d.port p).InBounds
  index : d.capture.index ≤ 32
  full : d.capture.state = .full ↔ d.capture.index = 32

/-- The ports of two desks that differ beside them. -/
theorem Desk.port_congr {d e : Desk} (hp : e.panelPort = d.panelPort) (hs : e.showPort = d.showPort) (p : Port) :
    d.port p = e.port p := by
  cases p
  · exact hp.symm
  · exact hs.symm

section
variable {d : Desk}

theorem Desk.InBounds.setPort (h : d.InBounds) (p : Port) {x : PortState} (hx : x.InBounds) :
    (d.setPort p x).InBounds where
  ports q := by
    rw [Desk.port_setPort]
    split
    · exact hx
    · exact h.ports q
  index := by rw [Desk.setPort_capture]; exact h.index
  full := by rw [Desk.setPort_capture]; exact h.full

theorem Desk.InBounds.setCounters (h : d.InBounds) (c : Vector Counter 4) :
    { d with counters := c : Desk }.InBounds :=
  ⟨fun p => Desk.port_congr rfl rfl p ▸ h.ports p, h.index, h.full⟩

theorem Desk.InBounds.setCapture (h : d.InBounds) {l : Capture} (hi : l.index ≤ 32)
    (hf : l.state = .full ↔ l.index = 32) : { d with capture := l : Desk }.InBounds :=
  ⟨fun p => Desk.port_congr rfl rfl p ▸ h.ports p, hi, hf⟩

theorem Desk.InBounds.raiseAt (h : d.InBounds) (p : Port) (n : Notice) : (d.raiseAt p n).InBounds :=
  h.setPort p ((h.ports p).offer n)

theorem Desk.InBounds.raise (h : d.InBounds) (n : Notice) : (d.raise n).InBounds :=
  (h.raiseAt .panelPort n).raiseAt .showPort n

theorem Desk.InBounds.count (h : d.InBounds) (ev : CounterEvent) (named : Nat) (i : Fin 4) :
    (d.count ev named i).InBounds := by
  obtain ⟨-, he⟩ | ⟨-, e, rfl, he | he⟩ := d.count_cases ev named i <;> rw [he]
  · exact h
  · exact h.setCounters _
  · exact (h.setCounters _).raise _

theorem Desk.InBounds.report (h : d.InBounds) (ev : CounterEvent) (named : Nat) : (d.report ev named).InBounds :=
  (((h.count ev named 0).count ev named 1).count ev named 2).count ev named 3

theorem Desk.InBounds.record (h : d.InBounds) (x : CaptureRecord) : (d.record x).InBounds := by
  obtain he | ⟨hi, -, -, ⟨hl, he⟩ | ⟨hl, he⟩⟩ := d.record_cases x <;> rw [he]
  · exact h
  · exact (h.setCapture hl.le ⟨fun _ => hl, fun _ => rfl⟩).raise _
  · exact h.setCapture hi ⟨nofun, fun h => absurd h hl⟩

theorem Desk.InBounds.hears (h : d.InBounds) {e : Desk} (k : d.Hears e) : e.InBounds := by
  induction k with
  | refl => exact h
  | tail _ told ih =>
    cases told with
    | notice p n => exact ih.raiseAt p n
    | count ev named => exact ih.report ev named
    | capture x => exact ih.record x

/-- CAPTURE ARM starts below the end of the list (R179). -/
theorem Desk.InBounds.arm (h : d.InBounds) {start : Nat} (hs : start < 32) (kinds : BitVec 9) :
    { d with capture := d.capture.arm start kinds : Desk }.InBounds := by
  refine h.setCapture hs.le ⟨fun hf => ?_, fun hi => absurd hi hs.ne⟩
  simp only [Capture.arm] at hf
  split at hf <;> cases hf

end

/-! ### Operations that keep the bounds -/

/-- An operation of the part keeps the ports and the capture list within their bounds. -/
def KeepsDesk (s t : State) : Prop := s.desk.InBounds → t.desk.InBounds

theorem KeepsDesk.refl (s : State) : KeepsDesk s s := id

theorem KeepsDesk.trans {s t u : State} (h : KeepsDesk s t) (k : KeepsDesk t u) : KeepsDesk s u := k ∘ h

/-- An operation that answers no request tells the desk by reports alone. -/
theorem Deeds.keepsDesk {s t : State} (h : Deeds s t) : KeepsDesk s t := fun hs => hs.hears h.desk

theorem KeepsDesk.and {s t u : State} (h : KeepsDesk s t) (k : Deeds t u) : KeepsDesk s u := h.trans k.keepsDesk

/-- An operation beside the desk. -/
theorem KeepsDesk.of_desk {s t : State} (h : t.desk = s.desk) : KeepsDesk s t := fun hs => h ▸ hs

theorem State.setPort_keepsDesk (s : State) (p : Port) {x : PortState}
    (h : (s.port p).InBounds → x.InBounds) : KeepsDesk s (s.setPort p x) := fun hs => hs.setPort p (h (hs.ports p))

theorem State.answer_keepsDesk (s : State) (p : Port) (st : Status) (payload : List Byte) :
    KeepsDesk s (s.answer p st payload) := s.setPort_keepsDesk p fun h => h.answer _ st payload

end Sys2Proof.Machine
end

section
/-! The bounds of the ports and of the capture list through every request, transfer and pin, and so through every step
(O5). -/
namespace Sys2Proof.Machine

/-! ### Requests -/

section
variable (p : Port) (r : Request) (s : State)

/-! The set memory (R10 to R17). -/

theorem State.setWriteRequest_keepsDesk : KeepsDesk s (s.setWriteRequest p r) := by
  unfold State.setWriteRequest
  split
  · exact s.answer_keepsDesk p _ _
  · exact (s.answer_keepsDesk p _ _).trans (.of_desk rfl)

theorem State.soundLengthRequest_keepsDesk : KeepsDesk s (s.soundLengthRequest p r) := by
  unfold State.soundLengthRequest
  split
  · exact (s.answer_keepsDesk p _ _).trans (.of_desk rfl)
  · exact s.answer_keepsDesk p _ _

theorem State.soundSamplesRequest_keepsDesk : KeepsDesk s (s.soundSamplesRequest p r) := by
  unfold State.soundSamplesRequest
  split
  · exact s.answer_keepsDesk p _ _
  · split
    · exact (s.answer_keepsDesk p _ _).trans (.of_desk rfl)
    · exact s.answer_keepsDesk p _ _

theorem State.setReadRequest_keepsDesk : KeepsDesk s (s.setReadRequest p r) := by
  unfold State.setReadRequest
  split <;> exact s.answer_keepsDesk p _ _

theorem State.setDigestRequest_keepsDesk : KeepsDesk s (s.setDigestRequest p r) := by
  unfold State.setDigestRequest
  split
  · exact s.answer_keepsDesk p _ _
  · exact (s.answer_keepsDesk p _ _).trans (.of_desk rfl)

/-! The modes (R182 to R184). -/

theorem State.enterShowRequest_keepsDesk : KeepsDesk s (s.enterShowRequest p r) := by
  unfold State.enterShowRequest
  split
  · exact s.answer_keepsDesk p _ _
  · split
    · exact s.answer_keepsDesk p _ _
    · refine KeepsDesk.and ?_ (State.modeRequest_deeds _)
      refine KeepsDesk.and ?_ (State.reportMode_deeds _)
      exact (s.setMode_deeds .showMode).keepsDesk.trans (State.answer_keepsDesk _ p _ _)

theorem State.enterSetupRequest_keepsDesk : KeepsDesk s (s.enterSetupRequest p r) := by
  unfold State.enterSetupRequest
  split
  · exact s.answer_keepsDesk p _ _
  · exact (s.leaveShow_deeds.keepsDesk.trans (State.answer_keepsDesk _ p _ _)).and (State.reportMode_deeds _)

/-- RESTART clears the counters and the capture list, and leaves the ports (R172, R181). -/
theorem State.restartRest_keepsDesk : KeepsDesk s s.restartRest := fun h =>
  (h.setCounters (Vector.replicate 4 Counter.clear)).setCapture (l := Capture.clear) (Nat.zero_le 32) ⟨nofun, nofun⟩

theorem State.restartRequest_keepsDesk : KeepsDesk s (s.restartRequest p r) := by
  unfold State.restartRequest
  dsimp only
  refine KeepsDesk.and ?_ (State.raise_deeds _ _)
  refine KeepsDesk.trans ?_ (State.answer_keepsDesk _ p _ _)
  exact (s.restartScene_deeds.trans (State.restartNotes_deeds _)).keepsDesk.trans (State.restartRest_keepsDesk _)

/-! The Scene Engine (R97 to R104). -/

theorem State.portRequest_keepsDesk (ask : SceneAsk) (quantize : Nat) :
    KeepsDesk s (s.portRequest p ask quantize) := by
  unfold State.portRequest
  split
  · exact s.answer_keepsDesk p _ _
  · split
    · exact s.answer_keepsDesk p _ _
    · exact (s.answer_keepsDesk p _ _).and (State.accept_deeds _ _ _ _ _)

theorem State.cancelRequest_keepsDesk : KeepsDesk s (s.cancelRequest p r) := by
  unfold State.cancelRequest
  split
  · exact s.answer_keepsDesk p _ _
  · split
    · exact s.answer_keepsDesk p _ _
    · split
      · exact s.answer_keepsDesk p _ _
      · exact ((s.answer_keepsDesk p _ _).and (State.dropStaged_deeds _)).and (State.reportSuperseded_deeds _ _ _)

theorem State.freezeRequest_keepsDesk : KeepsDesk s (s.freezeRequest p r) := by
  unfold State.freezeRequest
  split
  · exact s.answer_keepsDesk p _ _
  · exact (s.answer_keepsDesk p _ _).and (State.setFrozen_deeds _ _)

theorem State.thawRequest_keepsDesk : KeepsDesk s (s.thawRequest p r) := by
  unfold State.thawRequest
  split
  · exact s.answer_keepsDesk p _ _
  · split
    · exact (s.answer_keepsDesk p _ _).and (State.thaw_deeds _)
    · exact s.answer_keepsDesk p _ _

theorem State.stepRequest_keepsDesk : KeepsDesk s (s.stepRequest p r) := by
  unfold State.stepRequest
  split
  · exact s.answer_keepsDesk p _ _
  · split
    · exact s.answer_keepsDesk p _ _
    · next c hc =>
      split
      · next hp => exact (s.take_deeds c hc hp).keepsDesk.trans (State.answer_keepsDesk _ p _ _)
      · exact s.answer_keepsDesk p _ _

/-! Tempo, outputs and clicks (R37, R39, R74, R126, R127, R129, R153). -/

theorem State.tempoSourceRequest_keepsDesk : KeepsDesk s (s.tempoSourceRequest p r) := by
  unfold State.tempoSourceRequest
  split
  · exact (s.answer_keepsDesk p _ _).and (State.selectSource_deeds _ _ _)
  · exact s.answer_keepsDesk p _ _

theorem State.tempoSetRequest_keepsDesk : KeepsDesk s (s.tempoSetRequest p r) := by
  unfold State.tempoSetRequest
  dsimp only
  split
  · exact s.answer_keepsDesk p _ _
  · split
    · exact s.answer_keepsDesk p _ _
    · exact (s.answer_keepsDesk p _ _).trans (.of_desk rfl)

theorem State.trimRequest_keepsDesk : KeepsDesk s (s.trimRequest p r) := by
  unfold State.trimRequest
  dsimp only
  split
  · exact s.answer_keepsDesk p _ _
  · exact (s.answer_keepsDesk p _ _).trans (.of_desk rfl)

theorem State.outputEnableRequest_keepsDesk : KeepsDesk s (s.outputEnableRequest p r) :=
  (s.answer_keepsDesk p _ _).and (State.setRig_deeds _ _ (Rig.enableMask_reports _ _ _))

theorem State.criticalLevelRequest_keepsDesk : KeepsDesk s (s.criticalLevelRequest p r) := by
  unfold State.criticalLevelRequest
  split
  · exact s.answer_keepsDesk p _ _
  · split
    · exact s.answer_keepsDesk p _ _
    · exact (s.answer_keepsDesk p _ _).trans (.of_desk rfl)

theorem State.panicRequest_keepsDesk : KeepsDesk s (s.panicRequest p r) :=
  (s.answer_keepsDesk p _ _).and (State.panic_deeds _ _)

theorem State.clickLevelRequest_keepsDesk : KeepsDesk s (s.clickLevelRequest p r) := by
  unfold State.clickLevelRequest
  dsimp only
  split
  · exact s.answer_keepsDesk p _ _
  · exact (s.answer_keepsDesk p _ _).trans (.of_desk rfl)

theorem State.clickMuteRequest_keepsDesk : KeepsDesk s (s.clickMuteRequest p r) :=
  (s.answer_keepsDesk p _ _).trans (.of_desk rfl)

/-! Counters, capture list and ports (R167, R171, R176, R179, R180). -/

theorem State.counterSetRequest_keepsDesk : KeepsDesk s (s.counterSetRequest p r) := by
  unfold State.counterSetRequest
  split
  · exact (s.answer_keepsDesk p _ _).trans fun h => h.setCounters _
  · exact s.answer_keepsDesk p _ _

theorem State.counterReadRequest_keepsDesk : KeepsDesk s (s.counterReadRequest p r) := by
  unfold State.counterReadRequest
  split <;> exact s.answer_keepsDesk p _ _

theorem State.captureArmRequest_keepsDesk : KeepsDesk s (s.captureArmRequest p r) := by
  unfold State.captureArmRequest
  dsimp only
  split
  · exact s.answer_keepsDesk p _ _
  · next h =>
    simp only [Bool.or_eq_true, decide_eq_true_eq, not_or, Nat.not_lt] at h
    exact (s.answer_keepsDesk p _ _).trans fun hd => hd.arm (Nat.lt_succ_of_le h.1) _

theorem State.captureReadRequest_keepsDesk : KeepsDesk s (s.captureReadRequest p r) := by
  unfold State.captureReadRequest
  split <;> exact s.answer_keepsDesk p _ _

theorem State.statusRequest_keepsDesk : KeepsDesk s (s.statusRequest p r) :=
  (s.answer_keepsDesk p _ _).trans (State.setPort_keepsDesk _ p fun h => h.congr rfl rfl rfl)

theorem State.subscribeRequest_keepsDesk : KeepsDesk s (s.subscribeRequest p r) :=
  (s.answer_keepsDesk p _ _).trans (State.setPort_keepsDesk _ p fun h => h.congr rfl rfl rfl)

theorem handle_keepsDesk : KeepsDesk s (handle p r s) := by
  unfold handle
  split
  · exact s.setWriteRequest_keepsDesk p r
  · exact s.soundLengthRequest_keepsDesk p r
  · exact s.soundSamplesRequest_keepsDesk p r
  · exact s.setReadRequest_keepsDesk p r
  · exact s.setDigestRequest_keepsDesk p r
  · exact s.enterShowRequest_keepsDesk p r
  · exact s.enterSetupRequest_keepsDesk p r
  · exact s.restartRequest_keepsDesk p r
  · exact s.portRequest_keepsDesk p _ _
  · exact s.portRequest_keepsDesk p _ _
  · exact s.portRequest_keepsDesk p _ _
  · exact s.portRequest_keepsDesk p _ _
  · exact s.cancelRequest_keepsDesk p r
  · exact s.freezeRequest_keepsDesk p r
  · exact s.thawRequest_keepsDesk p r
  · exact s.stepRequest_keepsDesk p r
  · exact s.tempoSourceRequest_keepsDesk p r
  · exact s.tempoSetRequest_keepsDesk p r
  · exact s.trimRequest_keepsDesk p r
  · exact s.answer_keepsDesk p _ _
  · exact s.answer_keepsDesk p _ _
  · exact s.outputEnableRequest_keepsDesk p r
  · exact s.criticalLevelRequest_keepsDesk p r
  · exact s.panicRequest_keepsDesk p r
  · exact s.clickLevelRequest_keepsDesk p r
  · exact s.clickMuteRequest_keepsDesk p r
  · exact s.counterSetRequest_keepsDesk p r
  · exact s.counterReadRequest_keepsDesk p r
  · exact s.captureArmRequest_keepsDesk p r
  · exact s.captureReadRequest_keepsDesk p r
  · exact s.statusRequest_keepsDesk p r
  · exact s.subscribeRequest_keepsDesk p r
  · exact s.answer_keepsDesk p _ _

end

theorem State.turnAway_keepsDesk (s : State) (p : Port) : KeepsDesk s (s.turnAway p) := by
  unfold State.turnAway
  split
  · exact .refl s
  · split
    · exact s.answer_keepsDesk p _ _
    · exact .refl s

/-! ### Transfers (R159 to R162) -/

/-- A request that reaches a port without a transfer, with room for one more frame. -/
theorem State.placeRequest_keepsDesk {s : State} (p : Port) (r : Request) (ht : (s.port p).transfer = .idle)
    (hroom : (s.port p).framesHeld ≤ 12) : KeepsDesk s (s.placeRequest p r) := by
  unfold State.placeRequest
  dsimp only
  split
  · next hr =>
    have happend : ∀ r : Request, KeepsDesk s (s.setPort p ((s.port p).appendRequest s.time r)) := fun r =>
      s.setPort_keepsDesk p fun h => (h.place hroom ht r).1 s.time hr
    split
    · exact (happend _).and (State.tap_deeds _)
    · exact (happend _).and (State.beatMark_deeds _ _)
    · exact happend _
  · exact s.setPort_keepsDesk p fun h => (h.place hroom ht r).2

theorem State.endTransfer_keepsDesk {s : State} {p : Port} {received : List Byte} {side : OutboundSide}
    (ht : (s.port p).transfer = .inTransfer received side) (all : List Byte) :
    KeepsDesk s (s.endTransfer p side all) := by
  have hwhole : KeepsDesk s (s.setPort p ((s.port p).endWhole side)) := s.setPort_keepsDesk p fun h => (h.endWhole ht).1
  have hshort : ∀ carried, KeepsDesk s (s.setPort p ((s.port p).endShort side carried)) := fun carried =>
    s.setPort_keepsDesk p fun h => h.endShort ht carried
  unfold State.endTransfer
  dsimp only
  split
  · split
    · split
      · intro h
        refine State.placeRequest_keepsDesk p _ ?_ ?_ (hwhole h) <;> rw [State.port_setPort]
        · rfl
        · exact ((h.ports p).endWhole ht).2
      · exact hshort true
    · exact hwhole
  · exact hshort _

/-! ### Stage time and the pins (R73, R123, R130, R163) -/

theorem State.requestDue_keepsDesk (s : State) (p : Port) : KeepsDesk s (s.requestDue p) := by
  unfold State.requestDue
  split
  · exact .refl s
  · split
    · exact handle_keepsDesk p _ s
    · exact .refl s

theorem State.phaseDue_keepsDesk (s : State) : KeepsDesk s s.phaseDue := by
  unfold State.phaseDue
  split
  · exact (State.advancePhase_deeds (s.setTempo { s.tempo with phaseOwed := none }) _).keepsDesk
  · exact .refl s

theorem State.settleDue_keepsDesk (s : State) : KeepsDesk s s.settleDue := by
  rw [State.settleDue_eq]
  refine KeepsDesk.trans ?_ (State.phaseDue_keepsDesk _)
  refine KeepsDesk.trans ?_ (State.requestDue_keepsDesk _ _)
  refine KeepsDesk.trans ?_ (State.requestDue_keepsDesk _ _)
  exact (s.settleTimed_deeds.trans (State.preparationDue_deeds _)).keepsDesk

theorem State.microsecond_desk (s : State) : s.microsecond.desk = s.desk := by
  rw [State.microsecond_eq, State.setTempo_desk, State.setMem_desk, State.setTime_desk]

theorem State.tick_keepsDesk (s : State) : KeepsDesk s s.tick :=
  s.settleDue_keepsDesk.trans (.of_desk s.settleDue.microsecond_desk)

theorem State.boundary_keepsDesk (s : State) (beat : Bool) : KeepsDesk s (s.boundary beat) := by
  unfold State.boundary
  split
  · exact .refl s
  · split
    · exact s.phaseDue_keepsDesk
    · exact .refl s

theorem State.setPins_keepsDesk (s : State) (x : Pins) : KeepsDesk s (s.setPins x) := .of_desk rfl

theorem State.syncRise_keepsDesk (s : State) : KeepsDesk s s.syncRise := by
  unfold State.syncRise
  split
  · exact .refl s
  · dsimp only
    split
    · exact (State.pulse_deeds (s.setPins { s.pins with syncHigh := true })).keepsDesk
    all_goals exact .of_desk rfl

theorem State.panicFall_keepsDesk (s : State) : KeepsDesk s s.panicFall := by
  unfold State.panicFall
  split
  · exact .refl s
  · exact (State.panic_deeds (s.setPins { s.pins with panicLow := true }) .line).keepsDesk

/-! ### Commands -/

/-- The bounds that every step keeps: of both ports, of their POSITIONs while the reset pin is not held, and of the
capture list. -/
def deskBounded (s : State) : Prop := portsBounded s = true ∧ positionsCoalesced s = true ∧ captureBounded s

theorem deskBounded_iff {s : State} (h : s.pins.resetHeld = false) : deskBounded s ↔ s.desk.InBounds := by
  unfold deskBounded portsBounded positionsCoalesced
  rw [h, Bool.false_or, Bool.and_eq_true, Bool.and_eq_true]
  refine ⟨fun ⟨⟨hb1, hb2⟩, ⟨hp1, hp2⟩, hi, hf⟩ => ⟨fun p => (PortState.inBounds_iff _).mpr ?_, hi, hf⟩,
    fun ⟨hports, hi, hf⟩ => ?_⟩
  · cases p with
    | panelPort => exact ⟨hb1, hp1⟩
    | showPort => exact ⟨hb2, hp2⟩
  · obtain ⟨hb1, hp1⟩ := (PortState.inBounds_iff _).mp (hports .panelPort)
    obtain ⟨hb2, hp2⟩ := (PortState.inBounds_iff _).mp (hports .showPort)
    exact ⟨⟨hb1, hb2⟩, ⟨hp1, hp2⟩, hi, hf⟩

/-- A desk in bounds is in bounds whether the reset pin is held or not. -/
theorem Desk.InBounds.deskBounded {s : State} (h : s.desk.InBounds) : deskBounded s := by
  cases hr : s.pins.resetHeld with
  | false => exact (deskBounded_iff hr).mpr h
  | true =>
    obtain ⟨hb, -, hc⟩ := (deskBounded_iff (s := s.setPins { s.pins with resetHeld := false }) rfl).mpr h
    exact ⟨hb, by rw [positionsCoalesced, hr, Bool.true_or], hc⟩

theorem live_resetHeld {s : State} (h : s.live = true) : s.pins.resetHeld = false := by
  rw [State.live, Bool.and_eq_true, Bool.not_eq_true'] at h
  exact h.1

/-- A command of a live part. -/
theorem whenLive_deskBounded {f : State → State} (hf : ∀ s, KeepsDesk s (f s)) {s t : State}
    (h : whenLive f s = .next t) (k : deskBounded s) : deskBounded t := by
  obtain ⟨hl, hw⟩ | ⟨-, hw⟩ := whenLive_eq f s
  · cases hw.symm.trans h
    exact (hf s ((deskBounded_iff (live_resetHeld hl)).mp k)).deskBounded
  · cases hw.symm.trans h
    exact k

/-- A command of deeds alone. -/
theorem whenLive_deeds_deskBounded {f : State → State} (hf : ∀ s, Deeds s (f s)) {s t : State}
    (h : whenLive f s = .next t) (k : deskBounded s) : deskBounded t :=
  whenLive_deskBounded (fun s => (hf s).keepsDesk) h k

/-- A command that answers a request. -/
theorem serve_deskBounded {p : Port} {row : RequestRow} {f : Request → State → State}
    (hf : ∀ r s, KeepsDesk s (f r s)) {s t : State} (h : whenLive (fun s => s.serve p row f) s = .next t)
    (k : deskBounded s) : deskBounded t := by
  refine whenLive_deskBounded (fun s => ?_) h k
  obtain ⟨r, -, -, -, hr⟩ | ⟨-, hr⟩ := s.serve_cases p row f <;> rw [hr]
  · exact hf r s
  · exact .refl s

theorem execTransferEnd_deskBounded {p : Port} {octets : List Byte} {s t : State}
    (h : execTransferEnd p octets s = .next t) (k : deskBounded s) : deskBounded t := by
  unfold execTransferEnd at h
  refine whenLive_deskBounded (fun s => ?_) h k
  split
  · exact .refl s
  · next ht => exact State.endTransfer_keepsDesk ht _

/-- The fall of the reset pin abandons the transfers, and its port may then hold two POSITIONs until the release
(R172, R185). -/
theorem State.holdReset_deskBounded {s : State} (k : deskBounded s) : deskBounded s.holdReset := by
  obtain ⟨hb, -, hc⟩ := k
  have habandon : ∀ x : PortState, x.bounded = true → x.abandon.bounded = true := fun x hx => by
    rw [PortState.bounded, Bool.and_eq_true] at hx
    exact Bool.and_eq_true_iff.mpr ⟨hx.1, rfl⟩
  rw [portsBounded, Bool.and_eq_true] at hb
  exact ⟨Bool.and_eq_true_iff.mpr ⟨habandon _ hb.1, habandon _ hb.2⟩, rfl, hc⟩

theorem State.releaseReset_deskBounded (s : State) (panicLow syncHigh : Bool) :
    deskBounded (s.releaseReset panicLow syncHigh) := by
  obtain ⟨-, -, hb, hp, -, -, -, -, -, -, hc, -⟩ := resetMeetsInvariants
  exact ⟨hb, hp, hc⟩

/-- Every command keeps the bounds of the desk. -/
theorem exec_deskBounded {i : Instr} {s t : State} (h : exec i s = .next t) (k : deskBounded s) : deskBounded t := by
  cases i with
  | setWrite p => exact serve_deskBounded (State.setWriteRequest_keepsDesk p) h k
  | setWriteSoundLength p => exact serve_deskBounded (State.soundLengthRequest_keepsDesk p) h k
  | setWriteSoundSamples p => exact serve_deskBounded (State.soundSamplesRequest_keepsDesk p) h k
  | setRead p => exact serve_deskBounded (State.setReadRequest_keepsDesk p) h k
  | setDigest p => exact serve_deskBounded (State.setDigestRequest_keepsDesk p) h k
  | enterShow p => exact serve_deskBounded (State.enterShowRequest_keepsDesk p) h k
  | enterSetup p => exact serve_deskBounded (State.enterSetupRequest_keepsDesk p) h k
  | restart p => exact serve_deskBounded (State.restartRequest_keepsDesk p) h k
  | goSong p => exact serve_deskBounded (fun _ s => State.portRequest_keepsDesk p s _ _) h k
  | goScene p => exact serve_deskBounded (fun _ s => State.portRequest_keepsDesk p s _ _) h k
  | goNext p => exact serve_deskBounded (fun _ s => State.portRequest_keepsDesk p s _ _) h k
  | goPrev p => exact serve_deskBounded (fun _ s => State.portRequest_keepsDesk p s _ _) h k
  | cancel p => exact serve_deskBounded (State.cancelRequest_keepsDesk p) h k
  | freeze p => exact serve_deskBounded (State.freezeRequest_keepsDesk p) h k
  | thaw p => exact serve_deskBounded (State.thawRequest_keepsDesk p) h k
  | step p => exact serve_deskBounded (State.stepRequest_keepsDesk p) h k
  | tempoSource p => exact serve_deskBounded (State.tempoSourceRequest_keepsDesk p) h k
  | tempoSet p => exact serve_deskBounded (State.tempoSetRequest_keepsDesk p) h k
  | trim p => exact serve_deskBounded (State.trimRequest_keepsDesk p) h k
  | tap p => exact serve_deskBounded (fun _ s => s.answer_keepsDesk p _ _) h k
  | beatMark => exact serve_deskBounded (fun _ s => s.answer_keepsDesk .showPort _ _) h k
  | outputEnable p => exact serve_deskBounded (State.outputEnableRequest_keepsDesk p) h k
  | criticalLevel p => exact serve_deskBounded (State.criticalLevelRequest_keepsDesk p) h k
  | panic p => exact serve_deskBounded (State.panicRequest_keepsDesk p) h k
  | clickLevel p => exact serve_deskBounded (State.clickLevelRequest_keepsDesk p) h k
  | clickMute p => exact serve_deskBounded (State.clickMuteRequest_keepsDesk p) h k
  | counterSet p => exact serve_deskBounded (State.counterSetRequest_keepsDesk p) h k
  | counterRead p => exact serve_deskBounded (State.counterReadRequest_keepsDesk p) h k
  | captureArm p => exact serve_deskBounded (State.captureArmRequest_keepsDesk p) h k
  | captureRead p => exact serve_deskBounded (State.captureReadRequest_keepsDesk p) h k
  | status p => exact serve_deskBounded (State.statusRequest_keepsDesk p) h k
  | subscribe p => exact serve_deskBounded (State.subscribeRequest_keepsDesk p) h k
  | unknownRequest p => exact whenLive_deskBounded (fun s => s.turnAway_keepsDesk p) h k
  | transferBegin p => exact whenLive_deskBounded (fun s => s.setPort_keepsDesk p (·.beginTransfer)) h k
  | transferEnd p octets => exact execTransferEnd_deskBounded h k
  | noteOn n c key v => exact whenLive_deeds_deskBounded (fun s => s.eventArrives_deeds _ _ _ _ _) h k
  | noteOff n c key asNoteOn => exact whenLive_deeds_deskBounded (fun s => s.eventArrives_deeds _ _ _ _ _) h k
  | sustainPedal n c v => exact whenLive_deeds_deskBounded (fun s => s.eventArrives_deeds _ _ _ _ _) h k
  | continuousEvent n c e => exact whenLive_deeds_deskBounded (fun s => s.continuousArrives_deeds n c e) h k
  | songSelect n c program => exact whenLive_deeds_deskBounded (fun s => s.eventArrives_deeds _ _ _ _ _) h k
  | clock n => exact whenLive_deeds_deskBounded (fun s => s.timing_deeds n .clock) h k
  | alignmentPoint n kind => cases kind <;> exact whenLive_deeds_deskBounded (fun s => s.timing_deeds n .align) h k
  | stop n => exact whenLive_deeds_deskBounded (fun s => s.timing_deeds n .stop) h k
  | inputOctet n b => exact whenLive_deeds_deskBounded (fun s => s.octetArrives_deeds n b) h k
  | syncEdge => exact whenLive_deskBounded State.syncRise_keepsDesk h k
  | panicLineEdge => exact whenLive_deskBounded State.panicFall_keepsDesk h k
  | resetPinLow =>
    cases h
    exact State.holdReset_deskBounded k
  | resetPinRelease a b =>
    cases h
    split
    · exact s.releaseReset_deskBounded a b
    · exact k
  | crystalStop =>
    cases h
    exact k
  | crystalReturn =>
    cases h
    exact k
  | stageTick => exact whenLive_deskBounded State.tick_keepsDesk h k
  | beatBoundary => exact whenLive_deskBounded (fun s => s.boundary_keepsDesk true) h k
  | clickBoundary => exact whenLive_deskBounded (fun s => s.boundary_keepsDesk false) h k
  | beatLineEnd => exact whenLive_deeds_deskBounded State.beatLineDue_deeds h k
  | samplePeriod => exact whenLive_deeds_deskBounded State.samplePeriod_deeds h k
  | audioClockLoss => exact whenLive_deeds_deskBounded State.audioLoss_deeds h k
  | audioClockReturn => exact whenLive_deeds_deskBounded State.audioReturn_deeds h k
  | spillExpiry o c => exact whenLive_deeds_deskBounded (fun s => s.spillDue_deeds o c) h k
  | holdoverExpiry => exact whenLive_deeds_deskBounded State.holdoverStep_deeds h k
  | digestComplete => exact whenLive_deeds_deskBounded State.digestDue_deeds h k
  | preparationComplete => exact whenLive_deeds_deskBounded (fun s => s.preparationEnds_deeds true) h k
  | preparationCheckFail => exact whenLive_deeds_deskBounded (fun s => s.preparationEnds_deeds false) h k
  | transmissionComplete o => exact whenLive_deeds_deskBounded (fun s => s.lineDue_deeds o) h k
  | panicLineRise => exact whenLive_deskBounded (fun s => s.setPins_keepsDesk _) h k
  | syncLineFall => exact whenLive_deskBounded (fun s => s.setPins_keepsDesk _) h k
  | presenceRunOpen => exact whenLive_deeds_deskBounded State.openRun_deeds h k
  | presenceRunGap => exact whenLive_deeds_deskBounded State.endRun_deeds h k

theorem step_deskBounded {s t : State} (h : step s = .next t) (k : deskBounded s) : deskBounded t := by
  unfold step at h
  split at h
  · cases h
    exact k
  · next i rest _ => exact exec_deskBounded (s := s.setPending rest) h k

/-! ### The obligation -/

theorem outbound_length_of_portsBounded {s : State} (h : portsBounded s = true) (p : Port) :
    (s.port p).outbound.length ≤ 13 := by
  have hport : ∀ x : PortState, x.bounded = true → x.outbound.length ≤ 13 := fun x hx => by
    rw [PortState.bounded, Bool.and_eq_true, Bool.and_eq_true, decide_eq_true_iff, decide_eq_true_iff] at hx
    obtain ⟨⟨-, hheld⟩, -⟩ := hx
    exact (Nat.le_add_right _ _).trans hheld
  rw [portsBounded, Bool.and_eq_true] at h
  cases p with
  | panelPort => exact hport _ h.1
  | showPort => exact hport _ h.2

/-- Settles O5: every operation of a live part keeps the desk in bounds; the fall of the reset pin keeps all but the
coalescing, which its release restores with the values of pin reset. -/
theorem deskStaysBounded : Obligations.DeskStaysBounded := fun _ _ h hstep =>
  have hbounded := step_deskBounded hstep h
  ⟨hbounded, outbound_length_of_portsBounded hbounded.1⟩

end Sys2Proof.Machine
end

section
/-! The reset pin and the crystal (O58): what the pin's fall cuts short, what its release leaves, and the events that
are lost while the part is not live (R172, R185, R186). -/
namespace Sys2Proof.Machine

/-! ### The fall of the reset pin (R41, R172, R185) -/

section
variable (s : State)

theorem State.holdReset_sameBut : SameBut [.desk, .outputs, .tempo, .click, .pins] s s.holdReset := by
  intro b hb
  cases b with
  | desk | outputs | tempo | click | pins => exact absurd (by decide) hb
  | _ => rfl

theorem State.holdReset_live : s.holdReset.live = false := rfl

theorem State.holdReset_out (o : Output) : s.holdReset.rig.out o = { s.rig.out o with transmit := .idle } :=
  s.rig.out_mapOutputs OutPort.cutShort o

theorem State.holdReset_port (p : Port) : s.holdReset.port p = { s.port p with transfer := .idle } := by
  cases p <;> rfl

end

/-! ### Lost events (R185, R186) -/

/-- The commands of the reset pin and of the crystal are those that a part takes that is not live (log entry 8). -/
theorem exec_lost {i : Instr} {s : State} (h : s.live = false) (hlow : i ≠ .resetPinLow)
    (hrelease : ∀ a b, i ≠ .resetPinRelease a b) (hstop : i ≠ .crystalStop) (hreturn : i ≠ .crystalReturn) :
    exec i s = .next s := by
  have hlost : ∀ t : State, (Host.Outcome.next (if s.live = true then t else s) : Host.Outcome State Fault Refusal) =
      .next s := fun _ => congrArg Host.Outcome.next (if_neg (Bool.eq_false_iff.mp h))
  cases i with
  | resetPinLow => exact absurd rfl hlow
  | resetPinRelease a b => exact absurd rfl (hrelease a b)
  | crystalStop => exact absurd rfl hstop
  | crystalReturn => exact absurd rfl hreturn
  | alignmentPoint n kind => cases kind <;> exact hlost _
  | _ => exact hlost _

/-! ### The commands -/

section
variable {s : State} (panicLow syncHigh : Bool)

theorem exec_resetPinRelease_held (h : s.pins.resetHeld = true) :
    exec (.resetPinRelease panicLow syncHigh) s = .next (s.releaseReset panicLow syncHigh) :=
  congrArg Host.Outcome.next (if_pos h)

theorem exec_resetPinRelease_free (h : s.pins.resetHeld = false) :
    exec (.resetPinRelease panicLow syncHigh) s = .next s :=
  congrArg Host.Outcome.next (if_neg (Bool.eq_false_iff.mp h))

end

/-- Settles O58: the fall of the pin block by block, its release, the crystal, and every other event lost. -/
theorem resetAndCrystal : Obligations.ResetAndCrystal := by
  intro s
  refine ⟨⟨s.holdReset, rfl, s.holdReset_sameBut, rfl, s.holdReset_live, rfl, s.holdReset_out, s.holdReset_port, rfl,
      rfl, rfl, rfl, fun _ => rfl, rfl⟩, fun a b h => exec_resetPinRelease_held a b h,
    fun a b h => exec_resetPinRelease_free a b h, ⟨_, rfl, s.setPins_sameBut _, rfl⟩,
    ⟨_, rfl, s.setPins_sameBut _, rfl⟩, fun _ h => exec_lost h⟩

end Sys2Proof.Machine
end

section
/-! Transfers (O57): what a transfer shifts out, what its end leaves of the outbound queue, and what becomes of the
frame that it carries in (R159 to R162, R166). -/
namespace Sys2Proof.Machine

/-! ### The octets shifted out (R159) -/

theorem PortState.shiftedOut_idleFill (x : PortState) (clocked : Nat) :
    x.shiftedOut .idleFill clocked = List.replicate clocked 0 := by
  cases clocked with
  | zero => rfl
  | succ n => simp [PortState.shiftedOut, List.take_replicate, List.replicate_succ]

theorem PortState.shiftedOut_queuedFrame {x : PortState} {f : Frame} {more : List Frame}
    (h : x.outbound = f :: more) (clocked : Nat) : x.shiftedOut .queuedFrame clocked =
      f.octets.take clocked ++ List.replicate (clocked - f.octets.length) 0 := by
  simp [PortState.shiftedOut, h, List.take_append, List.take_replicate]

/-! ### What the end of a transfer leaves (R160, R166) -/

/-- The outbound side was cut off exactly where its frame has more octets than were clocked. -/
theorem PortState.outboundWhole_eq_false {x : PortState} {side : OutboundSide} {n : Nat} :
    x.outboundWhole side n = false ↔
      side = .queuedFrame ∧ ∃ f, x.outbound.head? = some f ∧ n < f.octets.length := by
  cases side with
  | idleFill => simp [PortState.outboundWhole]
  | queuedFrame => cases h : x.outbound <;> simp [PortState.outboundWhole, h]

/-- The merge of POSITIONs leaves what R166 says. -/
theorem mergePosition_of_afterShort {outbound merged : List Frame} (h : AfterShort outbound merged) :
    mergePosition outbound = merged := by
  obtain ⟨f, rest, rfl, ⟨hf, rfl⟩ | ⟨hf, hnone, rfl⟩ | ⟨hf, before, g, later, rfl, hg, hnone, rfl⟩⟩ := h
  · exact if_neg (Bool.eq_false_iff.mp hf)
  · have hfind : rest.find? Frame.isPosition = none :=
      List.find?_eq_none.mpr fun g hg => Bool.eq_false_iff.mp (hnone g hg)
    rw [mergePosition, if_pos hf, hfind]
  · have hbefore : ∀ x ∈ before, x.isPosition = false := fun x hx => hnone x (List.mem_append_left later hx)
    have hlater : ∀ x ∈ later, x.isPosition = false := fun x hx => hnone x (List.mem_append_right before hx)
    have hfind : (before ++ g :: later).find? Frame.isPosition = some g :=
      List.find?_eq_some_iff_append.mpr ⟨hg, before, later, rfl, fun x hx => by simp [hbefore x hx]⟩
    have hfilter : (before ++ g :: later).filter (fun x => !x.isPosition) = before ++ later := by
      rw [List.filter_append, List.filter_cons_of_neg (by simp [hg]), List.filter_eq_self.mpr fun x hx => by
        simp [hbefore x hx], List.filter_eq_self.mpr fun x hx => by simp [hlater x hx]]
    rw [mergePosition, if_pos hf, hfind, hfilter]

/-- A short transfer leaves the merged queue, and counts the frame that it carried. -/
theorem PortState.endShort_leaves {x : PortState} {side : OutboundSide} {merged : List Frame}
    (h : (side = .idleFill ∧ merged = x.outbound) ∨ (side = .queuedFrame ∧ AfterShort x.outbound merged)) :
    x.endShort side true =
        { x with transfer := .idle, outbound := merged, shortFrames := x.shortFrames + 1 } ∧
      x.endShort side false = { x with transfer := .idle, outbound := merged } := by
  obtain ⟨rfl, rfl⟩ | ⟨rfl, hmerged⟩ := h
  · exact ⟨rfl, rfl⟩
  · rw [← mergePosition_of_afterShort hmerged]
    exact ⟨rfl, rfl⟩

/-! ### The frame carried in (R159, R161) -/

theorem not_carriesFrame {octets : List Byte} (h : octets = [] ∨ ∃ more, octets = 0 :: more) :
    carriesFrame octets = false := by
  obtain rfl | ⟨more, rfl⟩ := h <;> rfl

theorem carriesFrame_cons {len : Byte} (h : len ≠ 0) (more : List Byte) : carriesFrame (len :: more) = true :=
  decide_eq_true h

/-- The length octet of a frame. -/
theorem fieldLE_lengthOctet (len : Byte) (more : List Byte) : fieldLE (len :: more) 0 1 = len.toNat := by
  simp [fieldLE, numberLE]

theorem inboundRequest_whole {len kind tag : Byte} {more : List Byte}
    (h : 3 ≤ len.toNat → len.toNat ≤ 64 → len.toNat ≤ (len :: kind :: tag :: more).length) :
    inboundRequest (len :: kind :: tag :: more) = some ⟨len.toNat, kind, tag,
      (if 3 ≤ len.toNat ∧ len.toNat ≤ 64 then more.take (len.toNat - 3) else []), none⟩ := by
  simp only [inboundRequest, fieldLE_lengthOctet, Bool.and_eq_true, decide_eq_true_eq]
  by_cases hlen : 3 ≤ len.toNat ∧ len.toNat ≤ 64
  · rw [if_pos hlen, if_pos hlen, if_pos (h hlen.1 hlen.2)]
    rfl
  · rw [if_neg hlen, if_neg hlen, if_pos (by simp)]
    rfl

theorem inboundRequest_short {len : Byte} {more : List Byte}
    (h : (len :: more).length < if 3 ≤ len.toNat ∧ len.toNat ≤ 64 then len.toNat else 3) :
    inboundRequest (len :: more) = none := by
  simp only [inboundRequest, fieldLE_lengthOctet, Bool.and_eq_true, decide_eq_true_eq]
  by_cases hlen : 3 ≤ len.toNat ∧ len.toNat ≤ 64
  · rw [if_pos hlen] at h
    rw [if_pos hlen, if_neg h.not_ge]
  · rw [if_neg hlen] at h
    rw [if_neg hlen, if_neg h.not_ge]

/-! ### The commands -/

/-- A command that leaves port `p` at `x`, and changes nothing else. -/
theorem leavesPort {s : State} {o : Host.Outcome State Fault Refusal} {p : Port} {x y : PortState}
    (h : o = .next (s.setPort p y)) (hx : y = x) :
    ∃ t, o = .next t ∧ SameBut [.desk] s t ∧ t.desk = s.desk.setPort p x :=
  ⟨_, h, s.setPort_sameBut p y, by rw [hx, State.setPort_desk]⟩

section
variable {s : State} {p : Port}

theorem exec_transferBegin (hl : s.live = true) :
    exec (.transferBegin p) s = .next (s.setPort p (s.port p).beginTransfer) :=
  whenLive_of_live (fun s => s.setPort p (s.port p).beginTransfer) hl

theorem exec_transferEnd_idle (octets : List Byte) (hl : s.live = true) (ht : (s.port p).transfer = .idle) :
    exec (.transferEnd p octets) s = .next s := by
  show execTransferEnd p octets s = _
  rw [execTransferEnd, whenLive_of_live _ hl, ht]

theorem exec_transferEnd {octets received : List Byte} {side : OutboundSide} (hl : s.live = true)
    (ht : (s.port p).transfer = .inTransfer received side) :
    exec (.transferEnd p octets) s = .next (s.endTransfer p side (received ++ octets)) := by
  show execTransferEnd p octets s = _
  rw [execTransferEnd, whenLive_of_live _ hl, ht]

variable {side : OutboundSide} {all : List Byte}

theorem State.endTransfer_whole_empty (hw : (s.port p).outboundWhole side all.length = true)
    (hc : carriesFrame all = false) : s.endTransfer p side all = s.setPort p ((s.port p).endWhole side) := by
  rw [State.endTransfer, if_pos hw, if_neg (Bool.eq_false_iff.mp hc)]

theorem State.endTransfer_cutOut (hw : (s.port p).outboundWhole side all.length = false) :
    s.endTransfer p side all = s.setPort p ((s.port p).endShort side (carriesFrame all)) := by
  rw [State.endTransfer, if_neg (Bool.eq_false_iff.mp hw)]

/-- A frame carried in that did not arrive whole, or a frame shifted out that was not read whole. -/
theorem State.endTransfer_short (hc : carriesFrame all = true)
    (h : inboundRequest all = none ∨ (s.port p).outboundWhole side all.length = false) :
    s.endTransfer p side all = s.setPort p ((s.port p).endShort side true) := by
  cases hw : (s.port p).outboundWhole side all.length with
  | false => rw [State.endTransfer_cutOut hw, hc]
  | true =>
    obtain hnone | hfalse := h
    · rw [State.endTransfer, if_pos hw, if_pos hc, hnone]
    · exact nomatch hw.symm.trans hfalse

/-- A request that is not timed waits behind the others. -/
theorem State.placeRequest_appended {r : Request} (hroom : (s.port p).requests.length < 4)
    (htap : classify p r ≠ .tap) (hmark : classify p r ≠ .beatMark) : s.placeRequest p r = s.appended p r := by
  unfold State.placeRequest Config.requestSize
  dsimp only
  rw [if_pos hroom]
  split
  · next hc => exact absurd hc htap
  · next hc => exact absurd hc hmark
  · rfl

theorem State.placeRequest_full {r : Request} (hfull : 4 ≤ (s.port p).requests.length) :
    s.placeRequest p r = s.setPort p ((s.port p).respond r .full []) := if_neg hfull.not_gt

/-- What the end of a whole transfer leaves with the request it carried refused. -/
theorem State.wholeEnded_full (left : List Frame) (r : Request) :
    (s.wholeEnded p left).setPort p (((s.wholeEnded p left).port p).respond r .full []) =
      s.setPort p { s.port p with transfer := .idle, outbound := left ++ [replyTo r .full []] } := by
  rw [State.wholeEnded, State.port_setPort]
  cases p <;> rfl

end

/-- Settles O57: the fall by the transfer it finds, and the rise by whether the head was read whole and the frame
carried in arrived whole. -/
theorem transferRule : Obligations.TransferRule := by
  refine fun s p hl => ⟨fun ht => leavesPort (exec_transferBegin hl) (PortState.beginTransfer_idle ht),
    fun received side ht => ?_, (s.port p).shiftedOut_idleFill,
    fun f more clocked h => PortState.shiftedOut_queuedFrame h clocked,
    fun octets ht => exec_transferEnd_idle octets hl ht, fun octets received side ht =>
      ⟨fun left hside => ⟨fun hempty => ?_, fun len kind tag more hall hlen hfits r hr =>
        ⟨fun hroom htap hmark => ?_, fun hfull => ?_⟩⟩,
      fun merged hside => ⟨fun len more hall hlen hshort => ?_, fun hempty hcut => ?_⟩⟩⟩
  · rw [exec_transferBegin hl, PortState.beginTransfer_busy ht]
    exact congrArg Host.Outcome.next (by rw [State.setPort, State.port, Desk.setPort_port]; rfl)
  · obtain ⟨hwhole, hleft⟩ := PortState.endWhole_leaves hside
    refine leavesPort ?_ hleft
    rw [exec_transferEnd hl ht, State.endTransfer_whole_empty hwhole (not_carriesFrame hempty)]
  · subst hr
    have hexec := exec_transferEnd_whole hl ht hside (hall ▸ carriesFrame_cons hlen _)
      (hall ▸ inboundRequest_whole fun hlow hhigh => hall ▸ hfits hlow hhigh)
    rw [State.placeRequest_appended (by rwa [State.wholeEnded, State.port_setPort]) htap hmark] at hexec
    exact ⟨_, hexec, s.wholeEnded_appended p left _⟩
  · subst hr
    have hexec := exec_transferEnd_whole hl ht hside (hall ▸ carriesFrame_cons hlen _)
      (hall ▸ inboundRequest_whole fun hlow hhigh => hall ▸ hfits hlow hhigh)
    rw [State.placeRequest_full (by rwa [State.wholeEnded, State.port_setPort]), State.wholeEnded_full] at hexec
    exact leavesPort hexec rfl
  · refine leavesPort ?_ (PortState.endShort_leaves hside).1
    rw [exec_transferEnd hl ht, State.endTransfer_short (hall ▸ carriesFrame_cons hlen more)]
    exact hshort.imp (fun h => hall ▸ inboundRequest_short (hall ▸ h)) PortState.outboundWhole_eq_false.mpr
  · refine leavesPort ?_ (PortState.endShort_leaves hside).2
    rw [exec_transferEnd hl ht, State.endTransfer_cutOut (PortState.outboundWhole_eq_false.mpr hcut),
      not_carriesFrame hempty]

end Sys2Proof.Machine
end

section
/-! STATUS, SUBSCRIBE, and the frames that the checks of R163 turn away (O56): the octets of the status report, and
which frames pass (R163, R167, R171, R188). -/
namespace Sys2Proof.Machine

/-! ### The status report (R171, R188) -/

@[simp] theorem currentOctets_length (current : Option Target) : (currentOctets current).length = 3 := by
  cases current <;> rfl

@[simp] theorem slotOctets_length (staged : Option Change) : (slotOctets staged).length = 6 := by
  cases staged <;> rfl

theorem State.statusReport_length (s : State) (p : Port) : (s.statusReport p).length = 37 := by
  simp [State.statusReport, SceneEngine.report, Tempo.report]

/-- The flags octet, with the flag of R155 as the state of the audio clock. -/
theorem flagsOctet_missing (clamped lost : Bool) (g : ClickGen) : flagsOctet clamped g.missing lost =
    octet ((if clamped then 1 else 0) + (if g.audio = .missing then 2 else 0) + (if lost then 4 else 0)) := by
  simp [flagsOctet, ClickGen.missing]

/-- The report field by field. -/
theorem State.statusReport_fields (s : State) (p : Port) : s.statusReport p =
    [s.scene.mode.code] ++ currentOctets s.scene.current ++ octetsLE 2 s.scene.generation.toNat ++
    slotOctets s.scene.staged ++ [markOctet s.scene.frozen] ++ [optOctet s.scene.position.song] ++
    octetsLE 2 (unsignedCode s.scene.position.bar 16) ++ [octet s.scene.position.beat] ++
    octetsLE 2 s.tempo.base ++ octetsLE 2 s.tempo.effective ++ octetsLE 2 (unsignedCode s.tempo.trim 16) ++
    [octet s.tempo.source.kindCode, octet s.tempo.source.parameter] ++ [octet s.tempo.state.code] ++
    octetsLE 4 s.tempo.ownBeats.toNat ++ octetsLE 4 s.tempo.refBeats.toNat ++
    [octet ((if s.tempo.clamped then 1 else 0) + (if s.click.audio = .missing then 2 else 0) +
      (if (s.port p).lostNotice then 4 else 0))] ++
    octetsLE 2 (s.port p).shortFrames.toNat := by
  simp only [State.statusReport, SceneEngine.report, Tempo.report, flagsOctet_missing, List.append_assoc,
    List.cons_append, List.nil_append]

/-- The codes of the report are those of R188: those of the source and of its state by their kinds, every other field
as it is written. -/
theorem State.statusReport_eq (s : State) (p : Port) : s.statusReport p = statusOctets s p := by
  have happend : ∀ {a b c d : List Byte}, a = b → c = d → a ++ c = b ++ d := fun h k => congrArg₂ (· ++ ·) h k
  rw [State.statusReport_fields, statusOctets]
  repeat' apply happend
  all_goals try rfl
  · cases s.tempo.source <;> rfl
  · cases s.tempo.state <;> rfl

/-! ### Answers that set a port (R167, R171) -/

/-- The port of an answered request takes one more value. -/
theorem State.answer_setPort_desk (s : State) (p : Port) (st : Status) (payload : List Byte) (x : PortState) :
    ((s.answer p st payload).setPort p x).desk = s.desk.setPort p x := by
  rw [State.answer, State.setPort_desk, State.setPort_desk, Desk.setPort_setPort]

theorem State.answer_port {s : State} {p : Port} {r : Request} {rest : List Request}
    (h : (s.port p).requests = r :: rest) (st : Status) (payload : List Byte) :
    (s.answer p st payload).port p = { s.port p with
      requests := rest, outbound := (s.port p).outbound ++ [replyTo r st payload], handledSince := s.time } := by
  rw [State.answer, State.port_setPort, PortState.answer_cons _ _ _ _ _ _ h]
  rfl

section
variable {s : State} {p : Port} {r : Request} {rest : List Request}

theorem exec_status (h : Heads s p .status r rest) : exec (.status p) s = .next (s.statusRequest p r) :=
  whenLive_serve_of_heads h _

theorem exec_subscribe (h : Heads s p .subscribe r rest) :
    exec (.subscribe p) s = .next (s.subscribeRequest p r) := whenLive_serve_of_heads h _

/-- A frame that the checks turn away is answered with their status, and has no effect. -/
theorem onlyAnswers_turnedAway (hl : s.live = true) (hr : (s.port p).requests = r :: rest) {st : Status}
    (hc : classify p r = .turnedAway st) : OnlyAnswers s (exec (.unknownRequest p) s) p r rest st [] := by
  have hexec := exec_rowCommand hl hr
  rw [handle, hc] at hexec
  exact hexec ▸ onlyAnswers_answer ⟨hl, hr, hc⟩ st []

end

/-! ### The checks of R163 -/

section
variable {p : Port} {r : Request}

theorem not_impossibleLength (hlow : 3 ≤ r.length) (hhigh : r.length ≤ 64) :
    ¬(decide (r.length < 3) || decide (64 < r.length)) = true := by
  simp only [Bool.or_eq_true, decide_eq_true_eq]
  omega

theorem classify_impossibleLength (h : r.length < 3 ∨ 64 < r.length) : classify p r = .turnedAway .length := by
  unfold classify
  exact if_pos (by simpa using h)

theorem kindRow_unassigned (h : r.kind.toNat = 0 ∨ 0x1F ≤ r.kind.toNat) : r.kindRow = none := by
  unfold Request.kindRow
  split <;> first | omega | rfl

theorem kindRow_beatMark (h : r.kind.toNat = 0x13) : r.kindRow = some (.beatMark, decide (r.length = 4)) := by
  simp only [Request.kindRow, h]

theorem classify_unassigned (hlow : 3 ≤ r.length) (hhigh : r.length ≤ 64)
    (h : r.kind.toNat = 0 ∨ 0x1F ≤ r.kind.toNat ∨ (p = .panelPort ∧ r.kind.toNat = 0x13)) :
    classify p r = .turnedAway .unknown := by
  rw [classify, if_neg (not_impossibleLength hlow hhigh)]
  obtain hk | ⟨rfl, hk⟩ := or_assoc.mpr h
  · rw [kindRow_unassigned hk]
  · rw [kindRow_beatMark hk]
    rfl

/-- The length of a SET WRITE by its record kind (R188). -/
theorem setWriteFits_iff (hk : r.kind.toNat = 0x01) (hp : r.payload.length + 3 = r.length) :
    r.setWriteFits = true ↔ lengthFits r := by
  unfold Request.setWriteFits lengthFits Request.recordKind
  rw [hk]
  cases hpay : r.payload with
  | nil =>
    rw [hpay] at hp
    simp [fieldLE, numberLE, ← hp]
  | cons k ks =>
    rw [hpay, List.length_cons] at hp
    rw [fieldLE_lengthOctet, List.length_cons]
    dsimp only
    split
    all_goals simp only [Bool.and_eq_true, decide_eq_true_eq]
    all_goals exact and_iff_right_of_imp fun hlength => by omega

theorem setReadFits_iff (hk : r.kind.toNat = 0x02) (hp : r.payload.length + 3 = r.length) :
    r.setReadFits = true ↔ lengthFits r := by
  unfold Request.setReadFits lengthFits Request.recordKind
  rw [hk]
  cases hpay : r.payload with
  | nil =>
    rw [hpay] at hp
    simp [fieldLE, numberLE, ← hp]
  | cons k ks =>
    rw [fieldLE_lengthOctet]
    dsimp only
    split
    · exact decide_eq_true_iff
    · split <;> exact decide_eq_true_iff

/-- Each assigned kind has a row of its own, with the length that the request table gives it. -/
theorem kindRow_assigned (hlow : 1 ≤ r.kind.toNat) (hhigh : r.kind.toNat ≤ 0x1E)
    (hp : r.payload.length + 3 = r.length) : ∃ row fits, r.kindRow = some (row, fits) ∧
      (∀ st, row ≠ .turnedAway st) ∧ (row = .beatMark → r.kind.toNat = 0x13) ∧ (fits = true ↔ lengthFits r) := by
  have hwrite := setWriteFits_iff (r := r) (hp := hp)
  have hread := setReadFits_iff (r := r) (hp := hp)
  unfold Request.kindRow lengthFits at *
  generalize r.kind.toNat = k at *
  interval_cases k
  · exact ⟨_, _, rfl, fun st => by split_ifs <;> nofun, fun h => by split_ifs at h, hwrite rfl⟩
  · exact ⟨_, _, rfl, nofun, nofun, hread rfl⟩
  all_goals exact ⟨_, _, rfl, nofun, by simp, decide_eq_true_iff⟩

/-- A frame of assigned kind passes the checks exactly where its length is the one of its kind. -/
theorem classify_assigned (hlow : 3 ≤ r.length) (hhigh : r.length ≤ 64) (hfirst : 1 ≤ r.kind.toNat)
    (hlast : r.kind.toNat ≤ 0x1E) (hpanel : ¬(p = .panelPort ∧ r.kind.toNat = 0x13))
    (hp : r.payload.length + 3 = r.length) : (¬lengthFits r → classify p r = .turnedAway .length) ∧
      (lengthFits r → ∀ st, classify p r ≠ .turnedAway st) := by
  obtain ⟨row, fits, hrow, hturned, hmark, hfits⟩ := kindRow_assigned hfirst hlast hp
  have hown : ¬(decide (row = .beatMark) && decide (p = .panelPort)) = true := by
    simp only [Bool.and_eq_true, decide_eq_true_eq]
    exact fun ⟨hb, hpp⟩ => hpanel ⟨hpp, hmark hb⟩
  have hclass : classify p r = if fits = true then row else .turnedAway .length := by
    rw [classify, if_neg (not_impossibleLength hlow hhigh), hrow]
    exact if_neg hown
  rw [hclass]
  refine ⟨fun h => if_neg (hfits.not.mpr h), fun h st => ?_⟩
  rw [if_pos (hfits.mpr h)]
  exact hturned st

end

/-- Settles O56: the two requests by their answer and the field they set, and the frames by the checks in order. -/
theorem portRequests : Obligations.PortRequests := by
  refine fun s p r rest => ⟨fun h => ⟨s.statusReport_eq p, by rw [← s.statusReport_eq, s.statusReport_length], _,
      exec_status h, (s.answer_sameBut p _ _).trans (State.setPort_sameBut _ p _), ?_⟩,
    fun h => ⟨_, exec_subscribe h, (s.answer_sameBut p _ _).trans (State.setPort_sameBut _ p _), ?_⟩,
    fun hl hr => ⟨fun hlength => onlyAnswers_turnedAway hl hr (classify_impossibleLength hlength),
      fun hlow hhigh => ⟨fun hkind => onlyAnswers_turnedAway hl hr (classify_unassigned hlow hhigh hkind),
        fun hfirst hlast hpanel hp => ?_⟩⟩⟩
  · obtain ⟨-, hr, -⟩ := h
    rw [State.statusRequest, State.answer_setPort_desk, State.answer_port hr, s.statusReport_eq]
  · obtain ⟨-, hr, -⟩ := h
    rw [State.subscribeRequest, State.answer_setPort_desk, State.answer_port hr]
  · obtain ⟨hmisfit, hfit⟩ := classify_assigned hlow hhigh hfirst hlast hpanel hp
    exact ⟨fun h => onlyAnswers_turnedAway hl hr (hmisfit h), hfit⟩

end Sys2Proof.Machine
end
